-- ==== Sys2Proof/Word.lean ====
section
/-! DEFINITION. The words the manual names: bytes, byte strings and bit strings. -/

namespace Sys2Proof

/-- One byte. Multi-byte fields are little-endian (R7). -/
abbrev Byte := BitVec 8

/-- A run of bytes, lowest address first. -/
abbrev Bytes := List Byte

/-- A bit string of the test access port, first bit shifted first (R489). -/
abbrev Bits := List Bool

end Sys2Proof
end

