-- ==== Sys2Proof/Syntax.lean ====
section
/-! DEFINITION. The commands of the block: one constructor per row of spec/opcode_table.json, and the data their
operands carry. The table gives no operands; these are the facts each step needs from outside (an address, a value
written, a message's contents, a measurement). -/

namespace Sys2Proof

/-- The page type codes of R26, in code order. -/
inductive PageType where
  | glb | hlk | sec | pwr | kwf | kwt | trf | cxp | mem | pim | flc | ftl
  | bay | scl | mxc | slu | qpl | idx | tbl | plc | rop | hlt | dbg
deriving DecidableEq, Repr

/-- One register page: its type and its instance number (R26). -/
structure PageRef where
  type : PageType
  inst : Nat
deriving DecidableEq, Repr

/-- What a start-up stage found (R494 to R496): facts of the hardware that the stage's end reports. -/
structure StageFindings where
  hostLinkModules : Nat        -- UCIe modules up on the H to IO link, 0 to 2
  dieLinkLost     : Bool       -- a die-to-die link trained with no module up
  failedStacks    : List Nat   -- stacks whose PHY failed training
  badImages       : List Nat   -- firmware targets whose running image failed verification
  badPending      : List Nat   -- firmware targets whose pending image failed its second verification
  presentBays     : List Nat   -- bays with PRESENT asserted
deriving DecidableEq, Repr

/-- A PROXY message as it reaches the target (R436): the slot's registers and the rope session it came on. -/
structure ProxyMsg where
  session : BitVec 12
  target  : BitVec 32
  offset  : BitVec 32
  ctrl    : BitVec 32
  data    : BitVec 64
deriving DecidableEq, Repr

/-- An OPEN message (R429, R476, R477): session named in the segment header, sender, descriptor, payload. -/
structure OpenMsg where
  session  : BitVec 12
  endpoint : BitVec 16
  desc     : Bytes
  payload  : Bytes
deriving DecidableEq, Repr

/-- A filter term of R124. -/
structure Term where
  field : Nat
  op    : Nat
  value : Nat
deriving DecidableEq, Repr

/-- A first-pass entry of R143 with its annotations of R163: PQ distance, vector ID, partition, cairn,
visibility at the query's cairn, filter result, and where its full vector lies. -/
structure Entry where
  d       : Nat
  vid     : Nat
  part    : Nat
  cairn   : Nat
  visible : Bool
  pass    : Bool
  place   : Nat
  number  : Nat   -- ordinal, or the side-list entry number when part is 0xFFFF_FFFF
deriving DecidableEq, Repr

/-- A refined entry of R192: the exact distance's binary32 bits, the vector ID and the partition. -/
structure Refined where
  dist : BitVec 32
  vid  : Nat
  part : Nat
deriving DecidableEq, Repr

/-- A shard request of R131 as it reaches a place. -/
structure ShardReq where
  fromPlace : Nat
  reqId     : Nat
  index     : Nat
  version   : Nat
  cairn     : Nat
  query     : List (BitVec 16)   -- D BF16 elements
  table4    : List Nat           -- M × 16 bytes of R141
  table8    : List Nat           -- M × 256 bytes, empty when the version's CODE8 is 0
  k         : Nat
  width     : Nat
  waves     : Nat
  refine    : Nat
  noSkip    : Bool
  terms     : List Term
  budget    : BitVec 24          -- 100 ns units, R137, as the header carries it (R428)
  shards    : List Nat           -- the shards asked of the place
  side      : Bool               -- its side pool is asked too (R239)
  op        : Nat                -- OPCODE of the descriptor the request goes with (R434)
deriving DecidableEq, Repr

/-- What a place answers to a shard request (R131, R132): the pools of the shards it served, each with its shard, and its side
pool where it was asked for one; or the status with which the request ended. -/
inductive ShardReply where
  | pools (lists : List (Nat × List Entry)) (side : Option (List Entry))
  | ended (status : BitVec 8)
deriving DecidableEq, Repr

/-- A synchronisation counter: of a scan core, or of a matrix core (R261, R305). -/
inductive CounterRef where
  | core (cluster : Fin 512) (core : Fin 576) (ctr : Fin 48)
  | matrix (mxc : Fin 64) (ctr : Fin 64)
deriving DecidableEq, Repr

/-- A thread of a scan core (R256): cluster, core, and its number among the core's resident threads. -/
structure ThreadRef where
  cluster : Fin 512
  core    : Fin 576
  thread  : Nat
deriving DecidableEq, Repr

/-- The far side of a block move (R249, R271): an address of staging SRAM, or an offset of the run's result reference. -/
inductive MovePlace where
  | staging (addr : Nat)
  | result (off : Nat)
deriving DecidableEq, Repr

/-- The move writes a result reference. -/
def MovePlace.isResult : MovePlace → Bool
  | .result _ => true
  | .staging _ => false

/-- A route operation of R295: issued by a thread, which names the 64 B block in its frame and a counter of its core; or an
operation in a selection unit's slot that completes, by its number. -/
inductive RouteStep where
  | issue (thread : ThreadRef) (block : Nat) (ctr : Fin 48)
  | complete (op : Nat)
deriving DecidableEq, Repr

/-- A stack controller request to a bank (R171, R172). -/
structure DramReq where
  die     : Fin 8
  bank    : Fin 256
  row     : Nat
  col     : Nat          -- byte offset in the row
  write   : Option Bytes -- the bytes written, or none for a read
  len     : Nat          -- bytes of a read
  cmd     : Option Nat   -- the command the request serves
  uncorrectable : Bool   -- on-die ECC reports an uncorrectable error
deriving DecidableEq, Repr

/-- Work with a deadline: a command admitted here, a shard request in a context, an item at an engine, or a request of a place
that waits for a context or is held in a CUTOVER (R148, R328). -/
inductive WorkRef where
  | command (id : Nat)
  | context (id : Nat)
  | item (engine : Fin 64) (id : Nat)
  | request (place tag : Nat)
deriving DecidableEq, Repr

/-- A refinement item of R192: the place and search it serves, with the opcode of its descriptor, and its candidates. -/
structure RefineItem where
  qpl      : Fin 2
  fromPlace : Nat
  cmd      : Nat
  query    : Nat           -- which query of a batch
  op       : Nat
  index    : Nat
  version  : Nat
  vector   : List (BitVec 16)
  deadline : Nat
  cands    : List Entry
deriving DecidableEq, Repr

/-- A cold-scan item of R193. -/
structure ColdItem where
  qpl      : Fin 2
  ctx      : Nat
  index    : Nat
  version  : Nat
  cairn    : Nat
  part     : Nat
  table    : List Nat
  keep     : Nat      -- the candidate count C
  terms    : List Term
  deadline : Nat
deriving DecidableEq, Repr

/-- How a channel read came back (R195, R403): the bits corrected and the retry steps of the worst codeword, and the page
it lies in. -/
inductive ReadOutcome where
  | decoded (corrected retries target lun page : Nat)
  | uncorrectable (target lun page codeword : Nat)
deriving DecidableEq, Repr

/-- Scalar integer instructions of R249; register numbers are s0 to s31. -/
inductive IntOp where
  | add (rd ra rb : Fin 32) | sub (rd ra rb : Fin 32)
  | and (rd ra rb : Fin 32) | or (rd ra rb : Fin 32) | xor (rd ra rb : Fin 32)
  | shl (rd ra rb : Fin 32) | shr (rd ra rb : Fin 32) | sar (rd ra rb : Fin 32)
  | mulLow (rd ra rb : Fin 32) | mulHigh (rd ra rb : Fin 32)
  | eq (rd ra rb : Fin 32) | ltS (rd ra rb : Fin 32) | ltU (rd ra rb : Fin 32)
  | select (rd ra rb rc : Fin 32)
  | constant (rd : Fin 32) (value : BitVec 32)
  | branch (ra : Fin 32) (target : Nat)
  | unimplemented
deriving DecidableEq, Repr

/-- Stored number formats of R309. -/
inductive NumFmt where
  | int4 | int8 | e4m3 | e5m2 | bf16 | fp16
deriving DecidableEq, Repr

/-- Scalar binary32 instructions of R249. -/
inductive FloatOp where
  | add (rd ra rb : Fin 32) | sub (rd ra rb : Fin 32) | mul (rd ra rb : Fin 32)
  | eq (rd ra rb : Fin 32) | lt (rd ra rb : Fin 32) | le (rd ra rb : Fin 32)
  | min (rd ra rb : Fin 32) | max (rd ra rb : Fin 32)
  | key (rd ra : Fin 32)
  | fromInt32 (rd ra : Fin 32)
  | fromFmt (rd ra : Fin 32) (fmt : NumFmt)
  | toBf16 (rd ra : Fin 32)
deriving DecidableEq, Repr

/-- SIMD instructions of R249; register numbers are v0 to v15. -/
inductive SimdOp where
  | add (wide sat signed : Bool) (rd ra rb : Fin 16)
  | sub (wide sat signed : Bool) (rd ra rb : Fin 16)
  | min (wide signed : Bool) (rd ra rb : Fin 16)
  | max (wide signed : Bool) (rd ra rb : Fin 16)
  | eq (wide : Bool) (rd ra rb : Fin 16)
  | lt (wide signed : Bool) (rd ra rb : Fin 16)
  | select (rd ra rb rc : Fin 16)
  | shuffle (wide : Bool) (rd ra rb : Fin 16)
  | dot8 (rd : Fin 16) (lane : Fin 4) (ra rb : Fin 16)
deriving DecidableEq, Repr

/-- Loads and stores of R249: scalar sizes 1, 2 and 4, vector size 16, and 8 as two scalar registers. -/
inductive StoreOp where
  | loadS (size : Nat) (rd : Fin 32) (addr : Nat)
  | storeS (size : Nat) (rs : Fin 32) (addr : Nat)
  | loadV (rd : Fin 16) (addr : Nat)
  | storeV (rs : Fin 16) (addr : Nat)
deriving DecidableEq, Repr

/-- One record of an update command (R225); attribute row and full vector are empty in a delete. -/
structure UpdRec where
  vid  : Nat
  attr : Bytes
  vec  : Bytes
deriving DecidableEq, Repr

/-- The kind of an update. -/
inductive UpdKind where
  | insert | delete | upsert
deriving DecidableEq, Repr

/-- The records a coordinator sends one owner (R229 step 1); with no record, its word that they are discarded (R232). -/
structure OwnerMsg where
  index     : Fin 16
  fromPlace : Nat
  tag       : Nat
  kind      : UpdKind
  records   : List UpdRec
deriving DecidableEq, Repr

/-- The cairn a coordinator sends every touched place (R229 step 4), with the deleted IDs. -/
structure CairnMsg where
  index     : Fin 16
  fromPlace : Nat
  tag       : Nat
  cairn     : BitVec 48
  deleted   : List Nat
deriving DecidableEq, Repr

/-- A reply of another place to a command at work here: its place, its status, a number and bytes that its kind gives a
meaning (a cairn, a count of rows staged, records folded; the rows asked for). -/
structure PeerReply where
  place  : Nat
  status : BitVec 8
  num    : Nat
  data   : Bytes
deriving DecidableEq, Repr

/-- What another place asks of this one for a command it works on: a mount, a switch, a retirement, a consolidation, a
table's definition, publish or drop. -/
structure PeerOrder where
  fromPlace : Nat
  tag       : Nat
  object    : Nat
  version   : Nat
  params    : Nat        -- the PARAMS of the command
  data      : Bytes      -- its payload
deriving DecidableEq, Repr

/-- A place's part in a command: its own command with the replies that have come, or another place's order. -/
inductive CmdPart where
  | own (cmd : Nat) (replies : List PeerReply)
  | order (o : PeerOrder)
deriving DecidableEq, Repr

/-- One record of a scatter at an owner: its update ID of R332 and its row. -/
structure ScatterRec where
  origin : Nat
  seq    : Nat
  pos    : Nat
  row    : Nat
  add    : Bool
  data   : Bytes
deriving DecidableEq, Repr

/-- The tentative records an origin sends an owner (R334); with no record, the origin's word that they are discarded. -/
structure TentativeMsg where
  table     : Nat
  step      : Nat
  fromPlace : Nat
  tag       : Nat
  records   : List ScatterRec
deriving DecidableEq, Repr

/-- An item the placement engine moves (R342): a row block of a table, or a shard of an index. -/
inductive ItemRef where
  | rowBlock (table block : Nat)
  | shard (index shard : Nat)
deriving DecidableEq, Repr

/-- A rope table request at an owner or replica (R327, R330). -/
structure TableReq where
  fromPlace : Nat
  tag       : Nat
  table     : Nat
  version   : Nat
  prefetch  : Bool
  rows      : List Nat
  budget    : BitVec 24 := 0     -- BUDGET of the descriptor it goes with, in 100 ns units; 0 is no deadline (R328, R434)
deriving DecidableEq, Repr

/-- A request for a moving or moved item (R344, R345, R347): rows of a table, scatter records, a shard request for one
shard, or deletions to be recorded for a shard. -/
inductive ForwardReq where
  | table (req : TableReq)
  | records (msg : TentativeMsg)
  | shard (req : ShardReq)
  | deletions (msg : CairnMsg) (shard : Nat)
deriving DecidableEq, Repr

/-- What a migration's copy or log tail carries (R344): rows of versions as (version, row, bytes), pending records with
whether they are committed, and deletion-map entries as (version, ordinal, cairn). -/
structure ItemCopy where
  rows    : List (Nat × Nat × Bytes)
  records : List (TentativeMsg × Bool)
  dels    : List (Nat × Nat × Nat)
deriving DecidableEq, Repr

/-- A version of an index as the rope-level copies hold it: its root, whether it is CURRENT, its tiles by number. -/
structure VersionCopy where
  root    : Bytes
  current : Bool
  tiles   : List (Nat × Bytes)
deriving DecidableEq, Repr

/-- An index of a lost place as the rope-level copies hold it (R441, R442): the keeper's state, with open cairns as (cairn,
place, number at that place), the tiles of the side list with its vectors and attribute rows, those of the tombstones, and the
deletes recorded there. -/
structure IndexCopy where
  index     : Fin 16
  high      : Nat
  keeper    : Nat
  owners    : List Nat
  assigned  : Nat
  visible   : Nat
  opened    : List (Nat × Nat × Nat)
  voids     : List Nat
  voided    : Nat
  deletes   : List (Nat × Nat)
  nextEntry : Nat
  side      : List Bytes
  vecs      : List Bytes
  attrs     : List Bytes
  tombs     : List Bytes
  versions  : List VersionCopy
deriving DecidableEq, Repr

/-- A table's definition, the places its row blocks were first given to, and its CURRENT version number, as the rope-level copies of
a place hold them; its rows come as items. -/
structure TableCopy where
  number   : Nat
  efmt     : Nat
  prio     : Nat
  retain   : Nat
  rows     : Nat
  rowBytes : Nat
  keeper   : Nat
  current  : Nat
  owners   : List Nat := []
deriving DecidableEq, Repr

/-- A migration in CUTOVER or RETIRE as the rope-level copies of a party hold it (R344). -/
structure MoveCopy where
  item   : ItemRef
  source : Nat
  dest   : Nat
  retire : Bool
deriving DecidableEq, Repr

/-- The durable version of a pool region: its pages that are not all zero. -/
structure RegionCopy where
  number  : Nat
  pages   : Nat
  version : Nat
  data    : List (Nat × Bytes)
deriving DecidableEq, Repr

/-- A pushed layer's last written-back generation. -/
structure LayerCopy where
  object : Nat
  layer  : Nat
  gen    : Nat
  prio   : Nat
  tiles  : List Bytes
deriving DecidableEq, Repr

/-- A page of a lost place whose rope stripe has lost more than two members (R445): a tile of an index version, a row of a table version,
a tile of a state layer, a page of a pool region. -/
inductive LostPage where
  | tile (index version tile : Nat)
  | row (table version row : Nat)
  | state (object layer tile : Nat)
  | pool (region page : Nat)
deriving DecidableEq, Repr

/-- What a stand-in decodes of a lost place from the rope-level copies, beside the rows and records of its tables: indexes,
tables, pool regions, pushed layers, the owner maps of shards and row blocks, and migrations in CUTOVER or RETIRE; and the pages that
cannot be decoded. -/
structure PlaceCopy where
  indexes  : List IndexCopy := []
  tables   : List TableCopy := []
  regions  : List RegionCopy := []
  layers   : List LayerCopy := []
  shardMap : List ((Nat × Nat) × Nat) := []
  blockMap : List ((Nat × Nat) × Nat) := []
  moves    : List MoveCopy := []
  lost     : List LostPage := []
deriving DecidableEq, Repr

/-- A dirty item of R360. -/
inductive DirtyRef where
  | poolPage (region page version : Nat)
  | stateTile (object layer tile : Nat)
deriving DecidableEq, Repr

/-- A LUN of a channel (R386). -/
structure LunRef where
  channel : Fin 64
  target  : Fin 8
  lun     : Fin 4
deriving DecidableEq, Repr

/-- A flash block (R386). -/
structure BlockRef where
  lun   : LunRef
  block : Nat
deriving DecidableEq, Repr

/-- A membership notice (R437, R438, R442, R505 to R507): epoch, the member table in force and the lead's module ID; the
places that no module serves yet, the lead's BEAT_CFG, each member's MAC addresses, and for a module that rejoins the
versions the rope holds: index, version, CURRENT. A notice with the epoch in force reports a place ready, or a change of
the lead's BEAT_CFG. -/
structure Membership where
  epoch    : BitVec 32
  leadId   : BitVec 12
  ropeId   : BitVec 6
  members  : List (BitVec 12 × BitVec 6 × Bool)   -- module ID, place, SPARE
  notReady : List (BitVec 6)
  beat     : BitVec 32
  macs     : List (BitVec 12 × BitVec 48)
  held     : List (Fin 16 × Nat × Bool)
deriving DecidableEq, Repr

/-- A join request at the lead (R506, R507). -/
structure JoinReq where
  moduleId    : BitVec 12
  tenant      : BitVec 32
  storedPlace : Option (BitVec 6)
  sessionOk   : Bool
deriving DecidableEq, Repr

/-- The CXL mailbox commands of R372. -/
inductive MailboxCmd where
  | identify | supportedLogs | getLog | healthInfo | other (opcode : BitVec 16)
deriving DecidableEq, Repr

/-- A read at a register's own address: of 32 bits, or, when `wide`, of all 64 (R28). -/
structure LowRead where
  off  : BitVec 26
  wide : Bool
deriving DecidableEq, Repr

/-- A sweep that resumes, and the step of it, if any, in which its row proves uncorrectable (R169, R172). -/
structure Resumed where
  sweep         : Nat
  uncorrectable : Option Nat
deriving DecidableEq, Repr

/-- A cold-scan item's context and partition; the place's own state gives the rest of it (R178, R193). -/
structure ColdOrder where
  ctx  : Nat
  part : Nat
deriving DecidableEq, Repr

/-- A sag sensor of a domain, and how far below the setpoint its supply stands (R76). -/
structure SagReading where
  sensor : Fin 4
  below  : BitVec 12
deriving DecidableEq, Repr

/-- A member declared lost, or, when `retiring`, one whose health asks that it be retired (R439, R513). -/
structure Declared where
  place    : BitVec 6
  retiring : Bool
deriving DecidableEq, Repr

/-- What a stand-in has decoded of a lost place: its tables' rows and records by item, and the rest of the place (R442). -/
structure Restored where
  items : List (ItemRef × ItemCopy)
  place : PlaceCopy
deriving DecidableEq, Repr

/-- The commands, in the order of spec/opcode_table.json. -/
inductive Instr where
  /-- R9: A write to a register field that has no behaviour of its own applies the field's access type (RW, W1C, W1S, RWS, RWL). -/
  | registerWrite (off : BitVec 26) (wide : Bool) (value : BitVec 64)
  /-- R27: A misaligned, wrong-width or unoccupied register access reads 0, has no effect, and the first such access sets GLB.ERR_STATUS.ACCESS and BAD_ACCESS. -/
  | invalidAccess (off : BitVec 26) (size : Nat) (write : Bool)
  /-- R30: A register access issued in bivouac or before DIE_LINKS ends runs to the host die's UCIe completion timeout, a read returns 0xFFFF_FFFF, and the access has no effect. -/
  | unreachableAccess (off : BitVec 26) (write : Bool)
  /-- R28: A 32-bit read of the lower half of a 64-bit register loads that register's single upper-half latch. -/
  | lowerHalfRead (off : LowRead)
  /-- R28: A 32-bit read of the upper half returns and empties the latch, or returns the live upper half when the latch is empty. -/
  | upperHalfRead (off : BitVec 26)
  /-- R40: A read of GLB.INT_SUMMARY that returns all-zero sets ARMED. -/
  | intSummaryRead
  /-- R40: Writing INT_CTRL.EN from 0 to 1 sets ARMED, and writing EN 0 clears ARMED. -/
  | intCtrlEnWrite (value : BitVec 32)
  /-- R32: A CTRL.ENABLE write moves a page from OFF to ENABLING or from RUNNING to DRAINING, or is refused with CTRL_CONFLICT. -/
  | enableWrite (page : PageRef) (value : BitVec 32)
  /-- R34: Setting DRAIN_ABORT makes each in-flight item of a DRAINING page end ABORTED at its next handshake boundary. -/
  | drainAbortWrite (page : PageRef) (value : BitVec 32)
  /-- R32: A page in ENABLING finishes initialising, enters RUNNING and sets INT_STATUS.STATE_CHANGE. -/
  | initialisationEnds (page : PageRef) (failed : List Nat)
  /-- R32: INFLIGHT of a DRAINING page reaches 0, the page enters OFF and INT_STATUS.DRAINED is set. -/
  | drained (page : PageRef)
  /-- R35: Writing SOFT_RESET 1 in OFF or FAULT starts a block reset; in other states the write is ignored with CTRL_CONFLICT. -/
  | softResetWrite (page : PageRef) (value : BitVec 32)
  /-- R501: A block reset ends within 100 µs, leaving the page OFF with its fields reset except RWS, RWL, counters and the health block. -/
  | softResetEnd (page : PageRef)
  /-- R32: An uncontained error ends a page's in-flight items with TIER_FAULT, clears ENABLE, writes ERR_FIRST and puts the page in FAULT. -/
  | uncontainedBlockError (page : PageRef) (bit : Fin 32)
  /-- R18: An uncorrectable error in data that a request depends on ends that request with TIER_FAULT and is recorded in ERR_STATUS and ERR_FIRST. -/
  | uncorrectableError (page : PageRef) (bit : Fin 32) (unit : Nat) (cmd : Option Nat)
  /-- R39: Writing an ERR_INJECT bit makes the block raise that error once, on its next operation that can carry it, unless the field-lock fuse is blown. -/
  | errInjectWrite (page : PageRef) (value : BitVec 32)
  /-- R499: A GLB.RESET write with WARM and key 0xB4C5 performs a warm reset that keeps sticky state, PHY training and the DRAM tier. -/
  | resetWarm (value : BitVec 32)
  /-- R499: A GLB.RESET write with COLD and key 0xB4C5 performs a cold reset that runs the stages from BOOT. -/
  | resetCold (value : BitVec 32)
  /-- R44: Writing GLB.LOCK.CFG_LOCK sets the configuration lock until the next cold reset. -/
  | cfgLock (value : BitVec 32)
  /-- R494: Busbar power, or a restart by the standby controller, starts a power-up that runs the start-up stages from RAILS. -/
  | powerUp
  /-- R494: A start-up stage ends and the next stage begins, with READY set when DONE is reached. -/
  | startUpStageEnd (found : StageFindings)
  /-- R494: A start-up stage that passes its time limit raises a module-fatal error with cause 6. -/
  | stageLimitExceeded
  /-- R510: A module-fatal error records its cause in HLT.FATAL, ends all commands in flight, stops every page from taking work and silences KWT. -/
  | moduleFatal (cause : Fin 16) (site : Fin 16)
  /-- R48: Setting PORT_CTRL.ENABLE resets the port's counts and VIOLATED and writes 0 to its credit word. -/
  | portEnable (port : Fin 64) (value : BitVec 32)
  /-- R49: Clearing PORT_CTRL.ENABLE stops posts at once while accepted commands run to their end. -/
  | portDisable (port : Fin 64) (value : BitVec 32)
  /-- R50: A 64-byte aligned write into an enabled port's post window submits one command, or is dropped and counted. `data` is
  what the host die writes; none is a read of 8 bytes of the aperture. -/
  | post (port : Fin 64) (offset : BitVec 12) (data : Option Bytes)
  /-- R63: Writing PXY_CTRL.GO starts one proxied access to another rope member and sets BUSY. -/
  | pxyGo (slot : Fin 4) (value : BitVec 32)
  /-- R64: A proxied access whose budget runs out ends with LATE. -/
  | proxyTimeout (slot : Fin 4)
  /-- R436: A PROXY message at the target module performs the register access and returns a PROXY_REPLY. -/
  | proxyAccess (msg : ProxyMsg)
  /-- R65: A PROXY_REPLY at the lead ends the slot's access, clears BUSY, writes STATUS and loads the read data. -/
  | proxyReply (slot : Fin 4) (status : BitVec 8) (data : BitVec 64)
  /-- R131: A SEARCH is checked, bound to a version and cairn, and fanned out as shard requests to every place that holds a shard. -/
  | search (cmd : Nat)
  /-- R128: A SEARCH_BATCH runs up to 256 queries that share one deadline and writes one result block per query. -/
  | searchBatch (cmd : Nat)
  /-- R125: A SEARCH_HYBRID searches as SEARCH and passes only entries whose IDs appear in every named posting list. -/
  | searchHybrid (cmd : Nat) (replies : List PeerReply)
  /-- R210: A TOPK selects the K best elements of each row of a tensor by (key, position) and writes one result block per row. -/
  | topk (cmd : Nat)
  /-- R229: An INSERT appends side-list entries at their owners under one cairn and completes after confirmation. -/
  | insert (cmd : Nat) (replies : List PeerReply)
  /-- R229: A DELETE appends tombstones at the owners and records the deletion maps at every place under one cairn. -/
  | delete (cmd : Nat) (replies : List PeerReply)
  /-- R105: An UPSERT records a tombstone and an insert of the same vector IDs under one cairn. -/
  | upsert (cmd : Nat) (replies : List PeerReply)
  /-- R242: A CONSOLIDATE builds a new version from the CURRENT base at a cut cairn and mounts it at every place. -/
  | consolidate (part : CmdPart)
  /-- R116: An INDEX_SWITCH makes a MOUNTED version CURRENT by swapping the base pointer at every module. -/
  | indexSwitch (part : CmdPart)
  /-- R114: An INDEX_MOUNT checks a manifest and starts mounting a new version at every place. -/
  | indexMount (part : CmdPart)
  /-- R118: An INDEX_RETIRE makes a MOUNTED version RETIRING at every place. -/
  | indexRetire (part : CmdPart)
  /-- R327: A TBL_GATHER reads the named rows of a table version from their owners and writes them in list order. -/
  | tblGather (cmd : Nat) (replies : List PeerReply)
  /-- R330: A TBL_PREFETCH makes each owner stage the named rows into its DRAM tier for up to PF_HOLD. -/
  | tblPrefetch (cmd : Nat) (replies : List PeerReply)
  /-- R334: A TBL_SCATTER_SET sends records that replace rows to their owners and commits them into the OPEN version. -/
  | tblScatterSet (cmd : Nat) (replies : List PeerReply)
  /-- R334: A TBL_SCATTER_ADD sends records that add to rows to their owners and commits them into the OPEN version. -/
  | tblScatterAdd (cmd : Nat) (replies : List PeerReply)
  /-- R339: A TBL_SWITCH with ACTION PUBLISH seals the OPEN version, folds its records and makes it CURRENT. -/
  | tblSwitchPublish (part : CmdPart)
  /-- R321: A TBL_SWITCH with ACTION DEFINE defines a table and places its version 1. -/
  | tblSwitchDefine (part : CmdPart)
  /-- R341: A TBL_SWITCH with ACTION DROP makes the table DROPPING and frees it at every place. -/
  | tblSwitchDrop (part : CmdPart)
  /-- R268: A JOB_LOAD checks an image, binds clusters and matrix cores and loads code and resident tiles. -/
  | jobLoad (cmd : Nat)
  /-- R269: A JOB_RUN with INVOKE 0 sets counters to INIT and starts threads on every bound core. -/
  | jobRun (cmd : Nat)
  /-- R270: A JOB_RUN with INVOKE 1 copies an input into a staging buffer and queues an invocation to a running service job. -/
  | jobRunInvoke (cmd : Nat)
  /-- R272: A JOB_STOP kills a job's threads, ends its run and invocations ABORTED, and unloads it when UNLOAD is 1. -/
  | jobStop (cmd : Nat)
  /-- R273: A job's load finishes, the job becomes LOADED and JOB_LOAD ends OK. -/
  | loadComplete (job : Fin 64) (readable : Bool)
  /-- R273: Every thread of a running job has executed END, and the job returns to LOADED. -/
  | allThreadsEnd (job : Fin 64)
  /-- R376: A POOL_LEASE with ACTION ACQUIRE grants the exclusive lease of a defined region and writes a lease record. -/
  | acquire (cmd : Nat)
  /-- R376: A POOL_LEASE with ACTION RENEW restarts the held lease's term and may change its writer. -/
  | renew (cmd : Nat)
  /-- R376: A POOL_LEASE with ACTION CREATE defines a region and acquires its lease. -/
  | create (cmd : Nat)
  /-- R377: A POOL_PUBLISH swaps the working copy's pages in as the region's new CURRENT version. -/
  | poolPublish (cmd : Nat)
  /-- R377: A POOL_RELEASE discards the working copy and ends the lease, and may delete the region. -/
  | poolRelease (cmd : Nat)
  /-- R377: A POOL_DISCARD discards the working copy while the lease continues. -/
  | poolDiscard (cmd : Nat)
  /-- R366: A STATE_PUSH replaces one layer of a state object with new tiles and swaps the layer's base pointer. -/
  | statePush (cmd : Nat)
  /-- R367: A STATE_FETCH writes the bound layers' tile payloads, each layer preceded by a layer header. -/
  | stateFetch (cmd : Nat)
  /-- R407: A DISCARD frees the named zones, state layers or state object. -/
  | discard (cmd : Nat)
  /-- R407: A SECURE_DISCARD frees data and ends only after every physical copy has been erased or zeroed. -/
  | secureDiscard (cmd : Nat) (erased : Bool)
  /-- R480: A SESSION_OPEN for an armed slot from its peer draws NONCE_M and moves the session to OPENING. -/
  | sessionOpen (msg : OpenMsg)
  /-- R480: A SESSION_PROVE checks PROOF_C, derives the session keys, and opens the session or counts a failure. -/
  | sessionProve (msg : OpenMsg)
  /-- R480: A SESSION_CLOSE moves an OPEN session to CLOSING. -/
  | sessionClose (cmd : Nat)
  /-- R480: A CLOSING session whose other requests have all replied frees its leases, flow and keys, and SESSION_CLOSE replies OK. -/
  | sessionClosed (session : BitVec 12)
  /-- R480: An OPENING session with no SESSION_PROVE 1 ms after its reply returns to FREE with its nonces zeroed. -/
  | openingTimeout (session : BitVec 12)
  /-- R462: The ingress scheduler picks the next eligible queue entry and hands it to its admitting block. -/
  | ingressService (full : List Nat)
  /-- R462: The egress scheduler picks the next eligible outgoing message and hands it to the transport. -/
  | egressService (full : List Nat)
  /-- R130: A waiting search takes a context on a compute die, binds its version and cairn and is assigned a lane. -/
  | queryAdmission (cmd : Nat)
  /-- R131: A shard request reaching a place takes a context, raises BOUND and starts the navigation walk of each shard held. -/
  | shardRequest (req : ShardReq)
  /-- R140: The navigation walk of a shard ends with its ranked partition list, and its waves start. -/
  | navigationWalkEnd (ctx : Nat) (shard : Nat)
  /-- R144: All partitions of a wave have returned, the shard pool is updated and the wave bound decides whether later waves are skipped. -/
  | waveEnd (ctx : Nat) (shard : Nat)
  /-- R146: A place's shard and side pools arrive at the admitting module toward the global pool. -/
  | shardPoolReturn (req : Nat) (place : Nat) (reply : ShardReply)
  /-- R217: A selection unit forms the global pool and removes invisible, duplicate and filtered entries. -/
  | poolMerge (cmd : Nat) (query : Nat)
  /-- R216: A selection unit merges sorted lists into a shard pool or side pool. -/
  | shardMerge (ctx : Nat) (shard : Option Nat)
  /-- R218: A selection unit ranks the refined or first-pass entries, writes K rows with flags and ends the search. -/
  | finalSelection (cmd : Nat) (query : Nat) (returns : List (List Refined))
  /-- R220: A route operation selects K experts per token and fills each expert's dispatch list up to CAP. -/
  | route (part : RouteStep)
  /-- R205: A selection-unit operation waiting for a slot takes the first slot that frees, by deadline then arrival. -/
  | operationStart (slu : Fin 64)
  /-- R148: The meter passes a command's deadline, and the command ends LATE with all its work dropped and its resources freed. -/
  | deadline (work : WorkRef)
  /-- R138: A pitch ends, every context assigned to it is dropped and its lane enters PURGING. -/
  | pitchClose
  /-- R138: A lane's purge ends, realignment-mode counter groups are realigned and the lane opens for pitch p + 8. -/
  | purgeEnd (lane : Fin 8)
  /-- R169: A queued sweep is taken into a free LUT bank of its scan unit and its table is loaded. -/
  | sweepTaken (stack : Fin 9) (sweep : Nat) (tableOk : Bool)
  /-- R166: A loaded sweep takes a quota token when one is free, activates its first row and starts stepping. -/
  | sweepStart (stack : Fin 9) (sweep : Nat) (uncorrectable : Option Nat)
  /-- R172: A controller request to a swept bank pair makes the sweep yield at the end of its current column group. -/
  | sweepYield (stack : Fin 9) (sweep : Nat)
  /-- R172: After serving up to 8 queued requests the controller reactivates the sweep row and the sweep resumes. -/
  | sweepResume (stack : Fin 9) (sweep : Resumed)
  /-- R169: A sweep sums its last code, releases its token and sends its shortlist to the stack controller. -/
  | sweepEnd (stack : Fin 9) (sweep : Nat)
  /-- R163: The stack controller turns each returned entry into an annotated first-pass entry. -/
  | shortlistAnnotation (stack : Fin 9) (sweep : Nat) (crcOk : Bool)
  /-- R171: A stack controller read or write reaches a bank and is served, and a write to an index row is refused. -/
  | controllerRequest (stack : Fin 9) (req : DramReq)
  /-- R176: A LUT or shortlist parity or CRC error fences a scan unit and hands its work to channel engines. -/
  | unitFence (stack : Fin 9) (unit : Fin 1024) (list : Bool)
  /-- R174: A per-bank refresh falls due and interrupts a sweep at its next column-group boundary. -/
  | dramRefresh (stack : Fin 9) (die : Fin 8) (bank : Fin 256)
  /-- R174: A patrol scrub read of the SCRUB_CFG period visits a row and acts on a sweep as a refresh does. -/
  | patrolScrub (stack : Fin 9) (die : Fin 8) (bank : Fin 256) (row : Nat)
  /-- R370: An active stack fails, its ROLE becomes FAILED and S8 starts rebuilding in its place, or a second failure is handled. -/
  | stackFailure (stack : Fin 9)
  /-- R370: Copying and restaging into S8 end and S8 becomes ACTIVE with its partitions sweepable. -/
  | spareRebuildEnd
  /-- R186: A channel engine chooses the next item to serve by class share, deadline and arrival. -/
  | channelOperation (channel : Fin 64) (timeUsed : Nat)
  /-- R192: A refinement item arrives at a channel engine, which reads the candidates' full vectors and computes their exact distances. -/
  | refinementItem (channel : Fin 64) (item : RefineItem)
  /-- R193: A cold-scan item arrives at a channel engine, which sums all codes of the partition and keeps the C lowest. -/
  | coldScanItem (channel : Fin 64) (item : ColdOrder)
  /-- R195: A flash read returns and is decoded, retried or found uncorrectable. -/
  | channelReadComplete (channel : Fin 64) (item : Nat) (read : ReadOutcome)
  /-- R196: A channel read that has not returned within READ_LIMIT ends its item with TIER_FAULT. -/
  | readLimitExpiry (channel : Fin 64) (item : Nat)
  /-- R188: A result waiting in the return buffer is sent once the engine holds enough return credits. -/
  | resultReturn (channel : Fin 64)
  /-- R186: A 1 ms window of a channel engine ends and class share use restarts. -/
  | flcWindow (channel : Fin 64)
  /-- R292: A scan-core Issue instruction queues a matrix step at a matrix core. -/
  | issueStep (thread : ThreadRef) (mxc : Fin 64) (desc : Nat) (ctr : Fin 48)
  /-- R290: A MATMUL step multiplies activation rows by a stored weight matrix in groups and writes the outputs. -/
  | matmul (mxc : Fin 64)
  /-- R293: A DIST step computes exact binary32 distances between query rows and vectors. -/
  | dist (mxc : Fin 64)
  /-- R294: A TABLE step builds the PQ distance tables of query rows, quantised to bytes when OFMT is UINT8. -/
  | table (mxc : Fin 64)
  /-- R301: A job's next schedule entry lands its tiles in weight SRAM once the previous entry has landed and its WAIT holds. -/
  | scheduleEntryLanding (mxc : Fin 64) (readable : Bool)
  /-- R262: A SIG instruction adds n to a target counter. -/
  | sig (thread : ThreadRef) (target : CounterRef) (n : Nat)
  /-- R263: A signal reaches its counter and adds to VALUE, or faults or saturates on overflow. -/
  | signalArrival (signal : Nat)
  /-- R262: A WAIT instruction waits until VALUE is at least n and then subtracts n, parking its thread when it cannot complete. -/
  | wait (thread : ThreadRef) (ctr : Fin 48) (n : Nat)
  /-- R257: A parked thread becomes ready when its WAIT or INVGET can complete, and it unparks into a free slot. -/
  | waitComplete (thread : ThreadRef)
  /-- R262: A TAKE instruction subtracts n when VALUE is at least n, and otherwise underflows. -/
  | take (thread : ThreadRef) (ctr : Fin 48) (n : Nat)
  /-- R262: A TEST instruction returns VALUE without changing it. -/
  | test (thread : ThreadRef) (ctr : Fin 48) (rd : Fin 32)
  /-- R249: A MOVE instruction starts a block move between the frame and staging SRAM. -/
  | move (thread : ThreadRef) (toFrame : Bool) (frameAddr : Nat) (place : MovePlace) (len : Nat) (ctr : Fin 48)
  /-- R253: A block move's data is in place and it signals its counter. -/
  | blockMoveComplete (move : Nat)
  /-- R364: A TILE instruction asks the tier manager to bring one tile into staging SRAM. -/
  | tile (thread : ThreadRef) (keyAddr : Nat) (staging : Nat) (ctr : Fin 48)
  /-- R364: A requested tile is in staging SRAM and the request signals its counter. -/
  | tileComplete (request : Nat) (readable : Bool)
  /-- R250: An LSUM4 instruction looks up 4 nibbles of a code in a table and adds them to an accumulator. -/
  | lsum4 (thread : ThreadRef) (acc : Fin 32) (code : BitVec 16) (table : Nat)
  /-- R250: A scalar integer instruction computes a result that wraps modulo 2³². -/
  | scalarInteger (thread : ThreadRef) (op : IntOp)
  /-- R250: A scalar binary32 instruction, KEY or conversion computes under the rounding of R189. -/
  | scalarBinary32 (thread : ThreadRef) (op : FloatOp)
  /-- R250: A SIMD instruction, DOT8 included, computes its lanes wrapping, saturating or exactly. -/
  | simd (thread : ThreadRef) (op : SimdOp)
  /-- R252: A load or store inside the thread's frame executes, and one outside it is an execution fault. -/
  | localStore (thread : ThreadRef) (op : StoreOp)
  /-- R249: A METER instruction reads the die's meter follower. -/
  | meter (thread : ThreadRef) (lo : Fin 32) (hi : Fin 32)
  /-- R249: An END instruction ends its thread. -/
  | endInstr (thread : ThreadRef)
  /-- R270: An INVGET takes the oldest queued invocation and returns its buffers, waiting when none is queued. -/
  | invget (thread : ThreadRef)
  /-- R270: An INVEND moves the output bytes to the result reference, frees the buffers and completes the invocation. -/
  | invend (thread : ThreadRef) (number : Nat) (count : Nat)
  /-- R229: An owner receives an update's records, computes codes, appends them to its logs and makes them durable. -/
  | ownerRecords (msg : OwnerMsg)
  /-- R230: Twenty microseconds after a log page's first record, the owner programs the page. -/
  | logPageTimer (index : Fin 16)
  /-- R441: A parity place receives a new log page in class 5, holds it whole and updates P and Q. -/
  | logCopy (fromPlace : Nat) (page : Nat) (data : Bytes)
  /-- R106: The keeper receives a cairn request and assigns the next cairn. -/
  | cairnRequest (index : Fin 16) (fromPlace : Nat) (tag : Nat)
  /-- R229: A touched place records an update under its assigned cairn, including the deletion maps, and replies. -/
  | cairnRecord (msg : CairnMsg)
  /-- R106: The keeper receives a cairn's confirmation, records it and replies. -/
  | confirm (index : Fin 16) (cairn : BitVec 48)
  /-- R233: The keeper records a cairn as void when its place cannot record or leaves the rope. -/
  | voidCairn (index : Fin 16) (cairn : BitVec 48)
  /-- R107: The keeper sends its advanced visible cairn to every member, at most once per VC_PERIOD. -/
  | visibleCairnSend (index : Fin 16)
  /-- R107: A member receives a visible-cairn message, discards records of voided cairns and raises its local visible cairn. -/
  | visibleCairnMessage (index : Fin 16) (cairn : BitVec 48) (voided : List Nat)
  /-- R113: A mounting version's tiles are all placed and verified at a place, and the version becomes MOUNTED. -/
  | mountTilesPlaced (index : Fin 16) (version : BitVec 32)
  /-- R334: An owner receives a scatter's records and makes them durable as tentative records. -/
  | tentativeRecords (msg : TentativeMsg)
  /-- R334: The origin records a scatter's commit durably and sends it to the owners, and the scatter completes. -/
  | commit (cmd : Nat) (origin : Option Nat)
  /-- R344: The placement engine starts moving a row block or shard from one place to another, entering COPY. -/
  | migrationStart (item : ItemRef) (source : Nat) (dest : Nat)
  /-- R344: The copy of a migrating item ends and the destination replays the log in CATCH_UP. -/
  | copyEnd (item : ItemRef) (copy : ItemCopy)
  /-- R344: The migration log is drained, the source holds new requests and the owner-map change goes to every member. -/
  | cutover (item : ItemRef) (tail : ItemCopy)
  /-- R344: Every member has acknowledged the map change, MAP_VERSION rises and held requests go to the new owner. -/
  | cutoverAcknowledged (item : ItemRef)
  /-- R344: Every request the source accepted before CUTOVER has ended, and it frees the item. -/
  | retireEnd (item : ItemRef)
  /-- R344: A migration in COPY or CATCH_UP is abandoned on a member loss, DRAIN_ABORT or copy error. -/
  | migrationAbandon (item : ItemRef) (error : Bool)
  /-- R345: A request for an item the place no longer owns is forwarded one hop to the owner in its map. -/
  | forwardedRequest (req : ForwardReq)
  /-- R343: A load window ends, loads are compared under SKEW and replicas may be made or dropped. -/
  | loadWindowEnd
  /-- R330: Prefetched rows not read by a gather within PF_HOLD lose their hold. -/
  | pfHoldExpiry (table : Nat) (row : Nat)
  /-- R358: A write to PLC.Q_KEY starts a placement query whose result appears within 5 / 6 µs. -/
  | qKeyWrite (value : BitVec 64)
  /-- R378: A CXL.mem read is answered from the working copy, CURRENT, zeros or poison. -/
  | cxlRead (port : Fin 2) (ld : Fin 16) (addr : BitVec 46)
  /-- R378: A CXL.mem write by the writer LD goes into the working copy after mirroring, and any other write is discarded. -/
  | cxlWrite (port : Fin 2) (ld : Fin 16) (addr : BitVec 46) (data : Bytes)
  /-- R523: A CXL link goes up or down, by cable or PERST_n, and LINK_CHANGE is set. -/
  | cxlLinkChange (port : Fin 2) (up : Bool) (width : BitVec 5) (rate : BitVec 3)
  /-- R380: A lease whose term passes ends, and its working copy is discarded. -/
  | leaseExpiry (region : BitVec 12)
  /-- R360: A dirty DRAM item is written back to flash in class 3, becomes clean and frees its mirror. -/
  | dirtyWriteBack (item : DirtyRef)
  /-- R392: The FTL programs a full or timed-out data member with a journal copy until its row's parity is written. -/
  | pageProgram (lun : LunRef) (page : Nat)
  /-- R399: A filled zone is sealed and its zone record written, or it waits while the zone log is full. -/
  | zoneSeal (zone : Nat)
  /-- R413: Writing ZLOG_BASE makes the FTL write its held zone records to the ring. -/
  | zlogBaseWrite (value : BitVec 64)
  /-- R402: A block that reaches READ_REFRESH reads is copied to a new block and erased. -/
  | flashRefresh (block : BlockRef)
  /-- R403: A block with a codeword over ERR_REWRITE or needing read-retry is rewritten. -/
  | rewrite (block : BlockRef)
  /-- R404: A failed program or erase retires the block and repeats the program in a spare block. -/
  | blockRetire (block : BlockRef)
  /-- R401: A log zone is compacted by copying its live pages out, switching the map and erasing the zone. -/
  | compaction (zone : Nat)
  /-- R395: REBUILD_DELAY after a bay reaches EMPTY, or at once on FAILED, the rebuild of its lost members starts. -/
  | bayRebuildStart (bay : Fin 16)
  /-- R395: A bay rebuild or move under R396 ends and REBUILD_DONE is set. -/
  | bayRebuildEnd (bay : Fin 16)
  /-- R410: A cartridge asserts PRESENT in an empty bay, the rail turns on and the PHYs train. -/
  | presentAsserted (bay : Fin 16)
  /-- R410: Bay PHY training ends and the identity record is read, or training fails and the bay is FAILED. -/
  | bayTrainingEnd (bay : Fin 16) (trained : Bool)
  /-- R410: The identity record is checked and the bay becomes ONLINE, FOREIGN or REFUSED. -/
  | identifyEnd (bay : Fin 16) (record : Bytes) (parameterPages : Bool)
  /-- R410: A FOREIGN cartridge's blocks are all erased, BOUND and GEN are written and the bay becomes ONLINE. -/
  | formatEnd (bay : Fin 16)
  /-- R410: An attention press drains an ONLINE bay, cancels a drain or powers a SAFE bay again. -/
  | attentionPress (bay : Fin 16)
  /-- R410: BAY_CMD.ADMIT on a FOREIGN bay formats the cartridge. -/
  | bayCmdAdmit (bay : Fin 16)
  /-- R410: BAY_CMD.DRAIN drains an ONLINE bay when R411 allows it. -/
  | bayCmdDrain (bay : Fin 16)
  /-- R410: BAY_CMD.CANCEL returns a DRAINING bay to ONLINE. -/
  | bayCmdCancel (bay : Fin 16)
  /-- R410: The four FLC pages are OFF and the journal copies are rewritten, so the rail turns off and the bay is SAFE. -/
  | bayDrainEnd (bay : Fin 16)
  /-- R410: A cartridge is removed, the bay becomes EMPTY and a surprise removal ends waiting items. -/
  | presentDeasserted (bay : Fin 16)
  /-- R410: An unresponsive channel or failed retraining ends its items, turns the rail off and puts the bay in FAILED. -/
  | channelUnresponsive (channel : Fin 64)
  /-- R522: A bay rail above 3.5 A turns off within 50 µs and the bay enters FAILED. -/
  | railOvercurrent (bay : Fin 16)
  /-- R76: A sag sensor fires, every controller of its domain brakes to level-4 spacing and the governor sets the sag level. -/
  | sagFire (domain : Fin 12) (sensor : SagReading)
  /-- R77: The last asserted sag sensor of a domain deasserts and the SAG_HOLD count starts. -/
  | sagDeassert (domain : Fin 12) (sensor : SagReading)
  /-- R77: SAG_HOLD passes with no sensor asserted and the sag level falls by 1. -/
  | sagHoldExpiry (domain : Fin 12)
  /-- R78: A domain's junction temperature crosses a step and its thermal level follows. -/
  | thermalLevelChange (domain : Fin 12) (temp : BitVec 11)
  /-- R80: Every 100 µs the governor averages package and module power and raises or lowers the cap level. -/
  | capEvaluation (pkg : BitVec 16) (mod : BitVec 16) (vin : BitVec 16)
  /-- R79: A sensor stops reporting and holds its domain at level 4 or above until cold reset. -/
  | sensorFail (domain : Fin 12)
  /-- R75: The 100 MHz reference stops or drifts beyond ±200 ppm and the standby controller restarts the module. -/
  | referenceLost
  /-- R504: The busbar falls below 40 V and package power is removed. -/
  | busbarUndervoltage
  /-- R504: A power-stage overcurrent removes power until an SMBus power-on request. -/
  | powerStageOvercurrent
  /-- R504: After a trip's wait or condition, the standby controller starts a power-up. -/
  | powerRestart
  /-- R518: The MATE contact opens on withdrawal and the power stage turns off within 200 µs. -/
  | mateOpen
  /-- R422: A DATA flit is accepted, or discarded with one NAK for the expected FSEQ. -/
  | dataFlit (port : Fin 8) (flit : Bytes) (fecOk : Bool)
  /-- R424: A received NAK makes the sender replay from the oldest unacknowledged flit. -/
  | nak (port : Fin 8) (ackSeq : BitVec 16)
  /-- R419: A hello control flit received after PCS lock brings a link-mode port UP and sets its credits. -/
  | hello (port : Fin 8) (credits : List (BitVec 16))
  /-- R419: PCS locks on a port, which is UP in frame mode or starts the hello exchange in link mode. -/
  | pcsLock (port : Fin 8) (signal : BitVec 8)
  /-- R447: Loss of signal or PCS lock takes a port down with LAST_DOWN 2. -/
  | signalLoss (port : Fin 8) (signal : BitVec 8)
  /-- R419: No hello within 10 ms takes the port down with LAST_DOWN 4, to retry every 100 ms. -/
  | helloTimeout (port : Fin 8)
  /-- R424: REPLAY_WAIT passes without acknowledgement progress and the sender replays. -/
  | replayWaitExpiry (port : Fin 8)
  /-- R424: LINK_GIVEUP passes or REPLAY_MAX replays fail, so the port goes down and reports its messages to the transport. -/
  | giveUp (port : Fin 8)
  /-- R433: An Ethernet frame of EtherType 0x8A5E carries one segment in, and other frames are discarded. -/
  | frameReceived (port : Fin 8) (frame : Bytes) (fcsOk : Bool)
  /-- R429: A transport segment is authenticated, decrypted and reassembled into its message, or discarded. -/
  | segmentReceived (segment : Bytes)
  /-- R427: A message still incomplete REASM_WAIT after its last segment arrived is discarded. -/
  | reasmWaitExpiry (session : BitVec 12) (msgId : BitVec 32)
  /-- R430: An ACK message stops the resend of the message it names. -/
  | ack (session : BitVec 12) (msgId : BitVec 32)
  /-- R430: A REPLY delivers a request's completion and result and acknowledges the request. -/
  | reply (session : BitVec 12) (msgId : BitVec 32) (body : Bytes)
  /-- R435: A message's RTO passes without acknowledgement and it is resent whole with a new NONCE_CTR. -/
  | rtoExpiry (session : BitVec 12) (msgId : BitVec 32)
  /-- R437: Every BEAT_PERIOD a member sends a beat NOTICE with its HEARD map to every member. -/
  | beatSend
  /-- R437: A received beat updates the heard places. -/
  | beat (place : BitVec 6) (spare : Bool) (heard : BitVec 64)
  /-- R439: The lead or the spare declares a member unheard for BEAT_MISS periods, with a majority, lost, and raises the epoch. -/
  | declareLost (place : Declared)
  /-- R438: A membership notice with a new epoch updates the member table, or fences a module that it excludes. -/
  | membershipNotice (notice : Membership)
  /-- R440: A member that hears fewer than half of the members for 2 × BEAT_MISS periods fences itself. -/
  | fence
  /-- R442: FENCE_WAIT after a declaration passes and the stand-in restores the place from the rope-level copies. -/
  | fenceWaitExpiry
  /-- R442: The stand-in's restore ends, it reports the place ready and serves requests. -/
  | restoreEnd (items : Restored)
  /-- R442: Every page of the place is rebuilt into local flash and the stand-in becomes a member. -/
  | standinRebuildEnd
  /-- R506: Writing ROP JOIN starts forming a rope as lead, or joining one as member. -/
  | join (value : BitVec 32)
  /-- R506: The lead admits a joiner in its member table once the rope session opens, and completes the formation when all have joined. -/
  | joinRequest (req : JoinReq)
  /-- R506: FORM_WAIT passes before every entry joins and the lead and joiners return to UNJOINED. -/
  | formWaitExpiry
  /-- R508: Writing ROP LEAVE takes the module out of its rope or abandons a formation or join. -/
  | leave (value : BitVec 32)
  /-- R508: Writing ROP DECLARE at the lead declares the member DECL_ID lost. -/
  | declare (value : BitVec 32)
  /-- R511: Every WINDOW / 8, HLT scores every page, sets bands and takes the actions the bands prompt. -/
  | healthEvaluation
  /-- R516: Writing HLT.CLEAR.FATAL clears the fatal record. -/
  | clearFatal (value : BitVec 32)
  /-- R512: Writing HLT.CLEAR.PAGE ends the forced band of the named page. -/
  | clearPage (value : BitVec 32)
  /-- R459: Writing FLOW_CTRL.LOAD applies the staged meter of the selected flow and refills its tokens. -/
  | load (value : BitVec 32)
  /-- R465: Writing SAMPLE_CTRL.EN 1 starts queue sampling with round 0. -/
  | sampleEnWrite (value : BitVec 32)
  /-- R465: Every SAMPLE_PERIOD a round writes one record per selected queue to the sample ring, or is skipped. -/
  | sampleRound
  /-- R482: Every TEL_PERIOD each open session with the telemetry right receives a telemetry NOTICE. -/
  | telemetryNotice
  /-- R471: Writing a non-zero TENANT while VACANT draws a tenant flash key and enters SERVING. -/
  | tenantWrite (value : BitVec 32)
  /-- R472: Writing TENANT_CTRL.RELEASE with key 0x7E5A starts the scrub of the tenant-release procedure. -/
  | tenantRelease (value : BitVec 32)
  /-- R472: The scrub ends, the keys are zeroed, TSTATE becomes VACANT and SCRUB_DONE is set. -/
  | scrubDone
  /-- R475: SLOT_CTRL.ARM copies the staged key, peer and rights into an empty slot. -/
  | arm (value : BitVec 32)
  /-- R475: SLOT_CTRL.DISARM kills the slot's session, zeroes its key and empties the slot. -/
  | disarm (value : BitVec 32)
  /-- R475: SLOT_CTRL.KILL kills the slot's session and leaves the slot armed. -/
  | kill (value : BitVec 32)
  /-- R484: FW_CTRL.STAGE starts verifying a firmware image in host memory. -/
  | stage (value : BitVec 32)
  /-- R484: Verification of an image ends, storing it as pending or refusing it. -/
  | fwVerifyEnd
  /-- R484: FW_CTRL.DROP_PENDING discards the pending firmware image. -/
  | dropPending (value : BitVec 32)
  /-- R485: ATT_CTRL.GO starts writing a signed attestation report. -/
  | attGo (value : BitVec 32)
  /-- R485: The attestation report is written and ATT_DONE is set. -/
  | attDone
  /-- R487: AUTH_CTRL.SUBMIT checks the debug token and grants or refuses its permissions. -/
  | submit (value : BitVec 32)
  /-- R487: AUTH_CTRL.REVOKE ends a debug grant and draws a new challenge. -/
  | revoke (value : BitVec 32)
  /-- R488: A DBG.FREEZE write with GO and key 0xB1F0 enters bivouac when FREEZE is granted. -/
  | freezeWrite (value : BitVec 32)
  /-- R488: The freeze input held for 1 µs enters bivouac when FREEZE is granted. -/
  | freezeInput (heldNs : Nat)
  /-- R490: FUSE_CTRL.BLOW with key 0xF10C blows the field-lock fuse permanently. -/
  | blow (value : BitVec 32)
  /-- R489: The TAP BYPASS instruction selects the 1-bit bypass register. -/
  | bypass (tdi : Bits)
  /-- R489: The TAP IDCODE instruction shifts out 0x2604_B74B. -/
  | idcode
  /-- R489: The TAP SAMPLE/PRELOAD instruction selects the boundary register. -/
  | samplePreload (tdi : Bits) (pins : Bits)
  /-- R489: The TAP EXTEST instruction drives the pins from the boundary register in bivouac. -/
  | extest (tdi : Bits)
  /-- R489: The TAP CHALLENGE instruction shifts out the 512-bit challenge. -/
  | challenge
  /-- R489: The TAP TOKEN instruction shifts in a token and submits it at Update-DR. -/
  | token (data : Bytes)
  /-- R489: The TAP FREEZE instruction requests bivouac. -/
  | freeze
  /-- R489: The TAP CHAIN_SEL instruction selects a scan chain by site and number. -/
  | chainSel (chain : BitVec 16)
  /-- R489: The TAP CHAIN_LEN instruction shifts out the selected chain's length. -/
  | chainLen
  /-- R489: The TAP CHAIN_READ instruction shifts out the chain in bivouac when READOUT is granted. -/
  | chainRead
  /-- R489: The TAP CHAIN_WRITE instruction shifts in the chain in bivouac when SCAN is granted. -/
  | chainWrite (data : Bits)
  /-- R525: The SMBus STATUS read returns the module status word and releases SMBALERT_n. -/
  | smbusStatus (pecOk : Bool)
  /-- R525: The SMBus TRIP_LAST read returns the cause of the last power removal. -/
  | smbusTripLast (pecOk : Bool)
  /-- R525: The SMBus FATAL read returns HLT.FATAL. -/
  | smbusFatal (pecOk : Bool)
  /-- R525: The SMBus POWER_READ returns VIN, module power and coolant outlet temperature. -/
  | powerRead (pecOk : Bool)
  /-- R525: The SMBus POWER_ON command starts a power-up unless the package is powered. -/
  | powerOn (pecOk : Bool)
  /-- R526: The SMBus POWER_OFF command writes back dirty items and takes the package rails down. -/
  | powerOff (pecOk : Bool) (data : BitVec 8)
  /-- R526: A write-back of POWER_OFF not ended within 10 s takes the rails down at once. -/
  | powerOffLimit
  /-- R525: The SMBus COLD_RESET command performs a cold reset. -/
  | smbusColdReset (pecOk : Bool)
  /-- R525: The SMBus LOCATE command turns the locate LED on or off. -/
  | locate (pecOk : Bool) (data : BitVec 8)
  /-- R525: The SMBus IDENT read returns the serial number and the module ID. -/
  | ident (pecOk : Bool)
  /-- R525: The SMBus SET_MODULE_ID command writes the module ID into the sled identity memory while the package is off. -/
  | setModuleId (pecOk : Bool) (data : BitVec 16)
  /-- R528: A press of the locate button toggles the LOCATE LED. -/
  | locateButton (heldMs : Nat)
  /-- R528: Release of the module service button does nothing, performs a cold reset or removes package power, by hold time. -/
  | moduleServiceButton (heldMs : Nat)
  /-- R419: A link-mode port that went down with LAST_DOWN 4 tries the hello exchange again every 100 ms. -/
  | helloRetry (port : Fin 8)
  /-- R422: ACK_WAIT passes with unacknowledged flits held, and the receiver sends an acknowledgement. -/
  | ackWaitExpiry (port : Fin 8)
  /-- R423: A received IDLE or CONTROL flit carrying ACK_SEQ or returned credits frees replay-buffer flits and restores VC credits. -/
  | linkAcknowledgement (port : Fin 8) (ackSeq : Option (BitVec 16)) (crVc : BitVec 3) (crCount : BitVec 12)
  /-- R392: A page program or block erase on a LUN ends, making journalled or parity-complete pages durable or freeing the journal copy. -/
  | programComplete (lun : LunRef) (ok : Bool)
  /-- R399: A driver write to FTL.ZLOG_RD frees ring slots so that a zone held OPEN by a full zone log is sealed and its record written. -/
  | zlogRdWrite (value : BitVec 32)
  /-- R372: A CXL mailbox command such as Identify Memory Device, Get Supported Logs, Get Log or Get Health Info is received and answered. -/
  | mailboxCommand (port : Fin 2) (ld : Fin 16) (command : MailboxCmd)
  /-- R372: The switch's fabric manager binds or unbinds a logical device of a CXP port to a host through the FM API MLD commands, changing CXP.LDS. -/
  | ldBinding (port : Fin 2) (ld : Fin 16) (bound : Bool)
  /-- R533: The sled's flow sensor finds coolant flow below 2.5 L/min, sets FLOW_LOW and asserts SMBALERT_n. -/
  | flowLow (low : Bool)
  /-- R533: The sled's tray sensor detects fluid, sets LEAK and asserts SMBALERT_n. -/
  | leak (fluid : Bool)
  /-- R527: SVC_PRESENT_n of the service connector changes as the service plug is fitted or removed, setting or clearing DBG_STATUS.TAP_ACTIVE. -/
  | svcPresent (present : Bool)
  /-- R527: TRST_n asserted holds the TAP controller in Test-Logic-Reset. -/
  | trstAsserted (asserted : Bool)
  /-- R327: A rope table request reaching a row block's owner or replica is served by reading the named rows of the bound version, or staging them for a prefetch, and replying. -/
  | tableRequest (req : TableReq)
deriving DecidableEq, Repr

end Sys2Proof
end

