-- ==== Sys2Proof/Config.lean ====
section
/-! DEFINITION. What the spec leaves to the module or to a key: free values and choices, as constants without a body, so
that no proof can see a value of them. -/

namespace Sys2Proof.Config

/-- The stack, bank pair and bank the placement engine gives a code tile of an index version, as one number; `none` keeps
the tile on flash (R20, R351). -/
opaque codePlace : (index version tile : Nat) → Option Nat

/-- The active stack the tier manager gives a new dirty item, as a number (R351). -/
opaque itemStack : (item : Nat) → Nat

/-- The stack, bank pair and bank the placement engine gives a code tile that it stages again, at its n-th try (R175, R176,
R351). -/
opaque restagePlace : (index version tile n : Nat) → Option Nat

/-- A tile other than a code tile of a version, or of the side list from 2³³ on, has a copy cached in DRAM (R183, R351). -/
opaque tileCached : (index version tile : Nat) → Bool

/-- Bytes that a returned shortlist of some entries takes on the stack interface (R179). -/
opaque shortlistBytes : (entries : Nat) → Nat

/-- The place that owns a vector ID of an index, as a number below the members (R228). -/
opaque ownerOf : (index vid : Nat) → Nat

/-- The place chosen as the keeper of an index, or of a table (R105, R338). -/
opaque keeperOf : (object : Nat) → Nat

/-- AES-256-XTS of one data unit of some bytes under a key, with its tweak (R389). -/
opaque xts : (key : List (BitVec 8)) → (tweak : Nat) → (unit : List (BitVec 8)) → (len : Nat) → Vector (BitVec 8) len

/-- The rope stripe of a page of a place, its member number there, and two numbers that pick its parity places among the
other places (R441). -/
opaque ropeStripe : (place page : Nat) → Nat × Nat × Nat × Nat

/-- The place that first owns a shard of an index (R342, R351), as a number below the members. -/
opaque shardPlace : (index shard : Nat) → Nat

/-- The place that first owns a row block of a table (R342, R351), as a number below the members. -/
opaque blockPlace : (table block : Nat) → Nat

/-- Where the staging buffers of a job's invocations begin, in 64 B units (R270). -/
opaque invBase : (job : Nat) → Nat

/-- The start state that the query pipeline gives a thread of a search context (R258): scalar and vector register n, and BOUND
and INIT of counter n of its core, which the firmware assigns (R259, R261). `role` is the thread's number in its context. -/
opaque searchReg : (ctx role n : Nat) → BitVec 32
opaque searchVec : (ctx role n : Nat) → BitVec 128
opaque searchCtr : (ctx role n : Nat) → BitVec 16 × BitVec 16

/-- The answer of a CXL mailbox command: its number, the LD, and how many values were drawn before (R372). -/
opaque mailbox : (command ld n : Nat) → List (BitVec 8)

/-- The places at which the placement engine makes replicas of a row block at the end of a load window (R350). -/
opaque replicaChoice : (table block window : Nat) → List Nat

/-- The tier manager keeps an item in DRAM and flash, or on flash only (R351): KIND, OBJECT and key of a query. -/
opaque inDram : (kind object key : Nat) → Bool

/-- What a placement query reads of a load that another place counts, or that KIND 2 has (R358). -/
opaque farLoad : (kind object key n : Nat) → Nat

/-- Byte i of a result area that the spec leaves undefined (R271, R369), by the command's number. -/
opaque undefinedByte : (cmd i : Nat) → BitVec 8

/-- Every 32-bit word of a code section encodes an instruction that the module implements (R252, R268): the encodings are
Routebook's. -/
opaque codeOk : (code : List (BitVec 8)) → Bool

/-- A code section holds a TEST or METER instruction (R266). -/
opaque usesTestOrMeter : (code : List (BitVec 8)) → Bool

/-- A scalar result that R249 and R250 do not fix: which instruction, and its two operands. -/
opaque scalarFree : (instr : Nat) → BitVec 32 → BitVec 32 → BitVec 32

/-- Which of the ports that are UP a message takes (R435). -/
opaque portChoice : (n : Nat) → Nat

/-- The body of a rope message whose bytes the spec does not lay out. -/
opaque ropeBody : (n : Nat) → List (BitVec 8)

/-- AES-256-GCM (R429): the cipher text followed by the 16-byte tag. -/
opaque gcmSeal : (key iv header body : List (BitVec 8)) → List (BitVec 8)

/-- AES-256-GCM opened: the body when the tag is right. -/
opaque gcmOpen : (key iv header sealed : List (BitVec 8)) → Option (List (BitVec 8))

/-- SHA-512. -/
opaque sha512 : List (BitVec 8) → Vector (BitVec 8) 64

/-- HMAC-SHA-512 of RFC 2104 (R478). -/
opaque hmac512 : (key data : List (BitVec 8)) → Vector (BitVec 8) 64

/-- HKDF-SHA-512 of RFC 5869, 32 bytes (R479, R505). -/
opaque hkdf512 : (ikm salt info : List (BitVec 8)) → Vector (BitVec 8) 32

/-- RSASSA-PSS with SHA-512 and exponent 65,537 verifies (R483). -/
opaque pssOk : (modulus data sig : List (BitVec 8)) → Bool

/-- The signature of a report under the attestation key (R485); PSS salts differ, so it depends on a draw. -/
opaque attSign : (serial : BitVec 64) → (n : Nat) → (data : List (BitVec 8)) → Vector (BitVec 8) 512

/-- The attestation public modulus and its certificate in the sled identity memory (R485). -/
opaque attPub : (serial : BitVec 64) → Vector (BitVec 8) 512
opaque attCert : (serial : BitVec 64) → List (BitVec 8)

/-- The host die's boot measurement (R485), the processor manual's. -/
opaque hostMeasure : (n : Nat) → Vector (BitVec 8) 64

/-- The fused hashes of R470: firmware root (0) and debug root (1). -/
opaque rootHash : (which : Nat) → Vector (BitVec 8) 64

/-- The length in bits of a scan chain, by its CHAIN_SEL number, and its contents at a read (R489). -/
opaque chainLen : (chain : Nat) → Nat
opaque chainBits : (chain n : Nat) → List Bool

/-- The bytes of a place that a stand-in decodes from rope stripes (ROP CNT7), by what has ended: its restore (0) or its
rebuild (1); and the progress of either, or of a tenant's scrub, in per cent, as it reads at a state (R442, R491, R515). -/
opaque rebuiltBytes : (ended n : Nat) → Nat
opaque progress : (n : Nat) → Nat

/-- What the sled's sensors measure at a read (R525): busbar voltage, module power, coolant outlet temperature, in the units
of POWER_READ. -/
opaque sensors : (n : Nat) → Nat × Nat × Nat

/-- How many steps past its last stop a stepping sweep has come when a request, a refresh or a stop meets it (R172): by its number and
that stop. -/
opaque sweepSteps : (n sweep step : Nat) → Nat

/-- `len` bytes of the random generator after `n` draws (R470). -/
opaque random : (n len : Nat) → Vector (BitVec 8) len

end Sys2Proof.Config
end

