-- ==== Sys2Proof/Machine/Regs.lean ====
section
/-! DEFINITION. The register pages: where each register lies in the window (R26), its reset value, and what a write
does to each of its fields (R9). The rows follow the register tables of the chapters, in their order. -/

namespace Sys2Proof

/-- What a write does to a field (R9). `key` is a WO field whose written value the block keeps and no read returns;
`wo` is a WO field that only triggers. -/
inductive Acc where
  | rw | rwl | rws | w1c | w1s | wo | key
deriving DecidableEq, Repr

/-- A writable field: its lowest bit, its width and the values it accepts. -/
structure Field where
  acc : Acc
  lo : Nat
  width : Nat
  min : Nat
  max : Nat
deriving DecidableEq, Repr

/-- What a value outside a field's range does: the field keeps its value; the same with an error bit set; or the whole
write has no effect and an error bit is set. -/
inductive Policy where
  | keepField
  | keepFieldErr (bit : Nat)
  | refuse (bit : Nat)
deriving DecidableEq, Repr

/-- A register, or `count` registers `stride` bytes apart: offset in the page, width in bits, reset value, policy and
writable fields; every bit outside the fields is RO or reserved. -/
structure RegDesc where
  off : Nat
  count : Nat
  stride : Nat
  bits : Nat
  reset : Nat
  policy : Policy
  fields : List Field
deriving DecidableEq, Repr

/-- The registers every page holds (R31). -/
def commonRegs : List RegDesc := [
  ⟨0x0, 1, 4, 32, 0x0, .keepField, []⟩,  -- PAGE_ID (per page: type, instance, layout 1)
  ⟨0x4, 1, 4, 32, 0x0, .keepField, []⟩,  -- PAGE_REV (IMPL strap, SITE per page)
  ⟨0x8, 1, 4, 32, 0x0, .keepField, [⟨.rw, 0, 1, 0, 1⟩, ⟨.rw, 1, 1, 0, 1⟩, ⟨.w1s, 2, 1, 0, 1⟩]⟩,  -- CTRL
  ⟨0xC, 1, 4, 32, 0x0, .keepField, []⟩,  -- STATE (STATE stored; INFLIGHT is a view)
  ⟨0x10, 1, 4, 32, 0x0, .keepField, [⟨.w1c, 0, 32, 0, 4294967295⟩]⟩,  -- ERR_STATUS
  ⟨0x14, 1, 4, 32, 0x0, .keepField, [⟨.rw, 0, 7, 0, 127⟩, ⟨.rw, 16, 16, 0, 65535⟩]⟩,  -- ERR_MASK
  ⟨0x18, 1, 4, 32, 0x0, .keepField, [⟨.wo, 0, 32, 0, 4294967295⟩]⟩,  -- ERR_INJECT
  ⟨0x1C, 1, 4, 32, 0x0, .keepField, []⟩,  -- ERR_FIRST (W1C of VALID clears all)
  ⟨0x20, 1, 4, 32, 0x0, .keepField, [⟨.w1c, 1, 31, 0, 2147483647⟩]⟩,  -- INT_STATUS (ERR bit is a view)
  ⟨0x24, 1, 4, 32, 0x0, .keepField, [⟨.rw, 0, 4, 0, 15⟩, ⟨.rw, 16, 16, 0, 65535⟩]⟩,  -- INT_ENABLE
  ⟨0x40, 8, 8, 64, 0x0, .keepField, []⟩,  -- CNT
  ⟨0x80, 1, 8, 64, 0x0, .keepField, []⟩,  -- HLT_CORR
  ⟨0x88, 1, 8, 64, 0x0, .keepField, []⟩,  -- HLT_RETRY
  ⟨0x90, 1, 8, 64, 0x0, .keepField, []⟩,  -- HLT_RETRAIN
  ⟨0x98, 1, 4, 32, 0x0, .keepField, []⟩ ]  -- HLT_SCORE

/-- The block-specific registers of a GLB page (R42 of 02_registers_and_commands.md). -/
def glbRegs : List RegDesc := [
  ⟨0x100, 1, 4, 32, 0x2604, .keepField, []⟩,  -- PART
  ⟨0x104, 1, 4, 32, 0x0, .keepField, []⟩,  -- SILICON (strap)
  ⟨0x108, 1, 8, 64, 0x0, .keepField, []⟩,  -- SERIAL (strap)
  ⟨0x110, 1, 4, 32, 0x0, .keepField, [⟨.rwl, 0, 12, 0, 4095⟩]⟩,  -- IDENT (strap MODULE_ID)
  ⟨0x118, 1, 4, 32, 0x0, .keepField, [⟨.w1s, 0, 1, 0, 1⟩]⟩,  -- LOCK
  ⟨0x11C, 1, 4, 32, 0x0, .keepField, []⟩,  -- READY
  ⟨0x120, 1, 4, 32, 0x0, .keepField, []⟩,  -- INT_SUMMARY (view)
  ⟨0x124, 1, 4, 32, 0x0, .keepField, [⟨.rw, 0, 1, 0, 1⟩]⟩,  -- INT_CTRL
  ⟨0x128, 1, 4, 32, 0x0, .keepField, []⟩,  -- BAD_ACCESS
  ⟨0x140, 1, 4, 32, 0x0, .keepField, [⟨.wo, 0, 2, 0, 3⟩, ⟨.wo, 16, 16, 0, 65535⟩]⟩,  -- RESET
  ⟨0x144, 1, 4, 32, 0x0, .keepField, [⟨.rws, 0, 4, 0, 15⟩]⟩ ]  -- LAST_RESET

/-- The block-specific registers of a HLK page (R45 of 02_registers_and_commands.md, R46 of 02_registers_and_commands.md, R63 of 02_registers_and_commands.md). -/
def hlkRegs : List RegDesc := [
  ⟨0x100, 1, 4, 32, 0x0, .keepField, []⟩,  -- LINK
  ⟨0x104, 1, 4, 32, 0x40, .keepField, []⟩,  -- PORTS
  ⟨0x108, 1, 8, 64, 0x0, .keepField, [⟨.rwl, 18, 46, 0, 70368744177663⟩]⟩,  -- POST_BASE
  ⟨0x110, 1, 8, 64, 0x0, .keepField, [⟨.rwl, 6, 58, 0, 288230376151711743⟩]⟩,  -- DMA_BASE
  ⟨0x118, 1, 8, 64, 0x0, .keepField, [⟨.rwl, 6, 58, 0, 288230376151711743⟩]⟩,  -- DMA_LIMIT
  ⟨0x120, 1, 8, 64, 0x0, .keepField, [⟨.w1c, 0, 64, 0, 18446744073709551615⟩]⟩,  -- CPL_INT_STATUS
  ⟨0x128, 1, 8, 64, 0x0, .keepField, [⟨.rw, 0, 64, 0, 18446744073709551615⟩]⟩,  -- CPL_INT_ENABLE
  ⟨0x130, 1, 8, 64, 0x0, .keepField, []⟩,  -- VIOLATED (view)
  ⟨0x180, 4, 32, 32, 0x0, .keepField, [⟨.rw, 0, 26, 0, 67108863⟩]⟩,  -- PXY_TARGET
  ⟨0x184, 4, 32, 32, 0x0, .keepField, [⟨.rw, 2, 10, 0, 1023⟩]⟩,  -- PXY_OFFSET
  ⟨0x188, 4, 32, 64, 0x0, .keepField, [⟨.rw, 0, 64, 0, 18446744073709551615⟩]⟩,  -- PXY_DATA
  ⟨0x190, 4, 32, 32, 0x0, .keepField, [⟨.w1s, 0, 1, 0, 1⟩, ⟨.rw, 1, 1, 0, 1⟩, ⟨.rw, 2, 1, 0, 1⟩]⟩,  -- PXY_CTRL
  ⟨0x194, 4, 32, 32, 0x0, .keepField, []⟩,  -- PXY_STATUS
  ⟨0x198, 4, 32, 32, 0x64, .keepField, [⟨.rw, 0, 24, 1, 16777215⟩]⟩,  -- PXY_TIMEOUT
  ⟨0x800, 64, 32, 32, 0xFF00, .keepField, [⟨.rw, 0, 1, 0, 1⟩, ⟨.rw, 1, 1, 0, 1⟩, ⟨.rw, 8, 8, 0, 255⟩, ⟨.rw, 16, 3, 0, 3⟩]⟩,  -- PORT_CTRL
  ⟨0x804, 64, 32, 32, 0x1, .keepField, []⟩,  -- PORT_STATUS
  ⟨0x808, 64, 32, 64, 0x0, .keepField, [⟨.rw, 3, 61, 0, 2305843009213693951⟩]⟩,  -- CREDIT_ADDR
  ⟨0x810, 64, 32, 64, 0x0, .keepField, [⟨.rw, 6, 58, 0, 288230376151711743⟩]⟩,  -- CA_BASE
  ⟨0x818, 64, 32, 32, 0x0, .keepField, []⟩ ]  -- DROPPED

/-- The block-specific registers of a SEC page (R491 of 18_security_debug.md). -/
def secRegs : List RegDesc := [
  ⟨0x100, 1, 4, 32, 0x0, .keepField, []⟩,  -- SEC_STATUS
  ⟨0x104, 1, 4, 32, 0x0, .keepField, [⟨.rw, 0, 32, 0, 4294967295⟩]⟩,  -- TENANT
  ⟨0x108, 1, 4, 32, 0x0, .keepField, [⟨.wo, 0, 1, 0, 1⟩, ⟨.wo, 16, 16, 0, 65535⟩]⟩,  -- TENANT_CTRL
  ⟨0x10C, 1, 4, 32, 0x0, .keepField, [⟨.rw, 0, 12, 0, 4095⟩]⟩,  -- SLOT_SEL
  ⟨0x110, 1, 4, 32, 0x0, .refuse 20, [⟨.rw, 0, 16, 4096, 65535⟩]⟩,  -- SLOT_PEER (view of slot)
  ⟨0x114, 1, 4, 32, 0x0, .keepField, [⟨.rw, 0, 7, 0, 127⟩]⟩,  -- SLOT_RIGHTS (view of slot)
  ⟨0x118, 1, 4, 32, 0x0, .keepField, [⟨.w1s, 0, 3, 0, 7⟩]⟩,  -- SLOT_CTRL (view of slot)
  ⟨0x120, 8, 4, 32, 0x0, .keepField, [⟨.key, 0, 32, 0, 4294967295⟩]⟩,  -- SLOT_KEY
  ⟨0x140, 1, 8, 64, 0x0, .keepField, [⟨.rw, 6, 58, 0, 288230376151711743⟩]⟩,  -- FW_ADDR
  ⟨0x148, 1, 4, 32, 0x0, .keepField, [⟨.rw, 0, 32, 0, 4294967295⟩]⟩,  -- FW_LEN
  ⟨0x14C, 1, 4, 32, 0x0, .keepFieldErr 20, [⟨.w1s, 0, 2, 0, 3⟩, ⟨.rw, 12, 2, 0, 2⟩]⟩,  -- FW_CTRL
  ⟨0x150, 1, 4, 32, 0x0, .keepField, []⟩,  -- SVN (view)
  ⟨0x154, 1, 4, 32, 0x0, .keepField, [⟨.w1s, 0, 1, 0, 1⟩]⟩,  -- ATT_CTRL
  ⟨0x158, 1, 8, 64, 0x0, .keepField, [⟨.rw, 6, 58, 0, 288230376151711743⟩]⟩,  -- ATT_ADDR
  ⟨0x160, 16, 4, 32, 0x0, .keepField, [⟨.rw, 0, 32, 0, 4294967295⟩]⟩,  -- ATT_NONCE
  ⟨0x1A0, 1, 4, 32, 0x640064, .refuse 20, [⟨.rw, 0, 16, 10, 10000⟩, ⟨.rw, 16, 16, 100, 10000⟩]⟩,  -- TEL_CFG
  ⟨0x1A4, 1, 4, 32, 0x0, .keepField, []⟩ ]  -- TEL_SEQ

/-- The block-specific registers of a PWR page (R84 of 03_clockless_operation.md). -/
def pwrRegs : List RegDesc := [
  ⟨0x100, 1, 8, 64, 0x0, .keepField, []⟩,  -- METER (view of meter)
  ⟨0x108, 1, 4, 32, 0x740, .keepField, [⟨.rw, 0, 3, 0, 7⟩, ⟨.rw, 4, 3, 0, 7⟩, ⟨.rw, 8, 3, 0, 7⟩]⟩,  -- LEVEL_CTRL
  ⟨0x10C, 1, 4, 32, 0x3228, .keepField, [⟨.rw, 0, 8, 20, 100⟩, ⟨.rw, 8, 16, 10, 10000⟩]⟩,  -- SAG_CFG
  ⟨0x110, 1, 4, 32, 0x6A, .keepField, [⟨.rwl, 0, 8, 100, 110⟩]⟩,  -- THERM_CFG
  ⟨0x114, 1, 4, 32, 0x640041A, .refuse 16, [⟨.rw, 0, 16, 400, 1050⟩, ⟨.rw, 16, 16, 700, 1600⟩]⟩,  -- CAP_CFG
  ⟨0x118, 1, 4, 32, 0x1401F4, .keepField, [⟨.rw, 0, 16, 100, 10000⟩, ⟨.rw, 16, 8, 0, 255⟩]⟩,  -- CAP_CTRL
  ⟨0x11C, 1, 4, 32, 0x0, .keepField, []⟩,  -- QUOTA_EFF (view)
  ⟨0x120, 1, 4, 32, 0x0, .keepField, []⟩,  -- TRIP_LAST (strap; loaded at power-up)
  ⟨0x140, 12, 4, 32, 0x0, .keepField, []⟩,  -- LEVEL
  ⟨0x180, 12, 4, 32, 0x0, .keepField, []⟩,  -- TEMP
  ⟨0x1C0, 1, 4, 32, 0x0, .keepField, []⟩,  -- PKG_POWER
  ⟨0x1C4, 1, 4, 32, 0x0, .keepField, []⟩,  -- MOD_POWER
  ⟨0x1C8, 1, 4, 32, 0x0, .keepField, []⟩ ]  -- VIN

/-- The block-specific registers of a KWF page (R447 of 16_kwago_fabric.md). -/
def kwfRegs : List RegDesc := [
  ⟨0x100, 1, 4, 32, 0x0, .keepField, [⟨.rw, 0, 1, 0, 1⟩]⟩,  -- MODE
  ⟨0x104, 1, 4, 32, 0x0, .keepField, []⟩,  -- LINK_STATUS
  ⟨0x108, 1, 8, 64, 0x0, .keepField, []⟩,  -- MAC_ADDR (strap)
  ⟨0x110, 1, 4, 32, 0x140004, .refuse 20, [⟨.rw, 0, 4, 1, 15⟩, ⟨.rw, 16, 8, 14, 20⟩]⟩,  -- REPLAY_CFG
  ⟨0x114, 1, 4, 32, 0x540, .refuse 20, [⟨.rw, 0, 8, 16, 255⟩, ⟨.rw, 8, 8, 1, 50⟩]⟩,  -- ACK_CFG
  ⟨0x118, 4, 4, 32, 0x0, .keepField, []⟩,  -- TX_CR
  ⟨0x128, 1, 4, 32, 0x0, .keepField, []⟩,  -- REPLAY_PEND
  ⟨0x12C, 1, 4, 32, 0x0, .keepField, []⟩ ]  -- LAST_DOWN

/-- The block-specific registers of a KWT page (R450 of 16_kwago_fabric.md). -/
def kwtRegs : List RegDesc := [
  ⟨0x100, 1, 4, 32, 0x0, .keepField, []⟩,  -- ENDPOINT (strap; view of MODULE_ID)
  ⟨0x104, 1, 4, 32, 0x0, .keepField, []⟩,  -- SESSIONS (view)
  ⟨0x108, 1, 4, 32, 0x3E80096, .refuse 20, [⟨.rw, 0, 16, 150, 10000⟩, ⟨.rw, 16, 16, 150, 60000⟩]⟩,  -- RTO_CFG
  ⟨0x10C, 1, 4, 32, 0x1408, .refuse 20, [⟨.rw, 0, 4, 1, 15⟩, ⟨.rw, 8, 8, 1, 100⟩]⟩,  -- RESEND_CFG
  ⟨0x110, 1, 4, 32, 0x100, .refuse 20, [⟨.rwl, 0, 9, 16, 511⟩, ⟨.rwl, 16, 1, 0, 1⟩, ⟨.rwl, 17, 12, 0, 4095⟩]⟩,  -- FRAME_CFG
  ⟨0x114, 1, 4, 32, 0x100, .refuse 20, [⟨.rw, 0, 9, 1, 256⟩]⟩,  -- CREDIT_CFG
  ⟨0x118, 1, 4, 32, 0x0, .keepField, []⟩,  -- AUTH_LAST
  ⟨0x11C, 1, 4, 32, 0x0, .keepField, [⟨.rw, 0, 16, 0, 65535⟩]⟩,  -- NBR_SEL
  ⟨0x120, 1, 8, 64, 0x0, .keepField, [⟨.rw, 0, 49, 0, 562949953421311⟩]⟩,  -- NBR_MAC (view of neighbour table)
  ⟨0x128, 1, 4, 32, 0x0, .keepField, [⟨.rw, 0, 12, 0, 4095⟩]⟩,  -- SESS_SEL
  ⟨0x12C, 1, 4, 32, 0x0, .keepField, []⟩,  -- SESS_VIEW (view)
  ⟨0x130, 1, 4, 32, 0x0, .keepField, []⟩,  -- SESS_HIGH (view)
  ⟨0x134, 1, 4, 32, 0x0, .keepField, []⟩,  -- SESS_FLIGHT (view)
  ⟨0x138, 1, 4, 32, 0x0, .keepField, []⟩,  -- EPOCH
  ⟨0x13C, 1, 4, 32, 0xA0064, .refuse 20, [⟨.rw, 0, 16, 20, 10000⟩, ⟨.rw, 16, 8, 3, 255⟩]⟩ ]  -- BEAT_CFG

/-- The block-specific registers of a TRF page (R468 of 17_traffic_manager.md). -/
def trfRegs : List RegDesc := [
  ⟨0x100, 1, 4, 32, 0x400A32, .keepField, []⟩,  -- CAPS
  ⟨0x104, 1, 4, 32, 0x0, .keepField, []⟩,  -- STORE (view)
  ⟨0x108, 1, 4, 32, 0x0, .refuse 17, [⟨.rw, 0, 17, 0, 131071⟩]⟩,  -- STORE_HIGH
  ⟨0x10C, 1, 4, 32, 0x1000004B, .refuse 17, [⟨.rw, 0, 7, 10, 100⟩, ⟨.rw, 16, 16, 1, 65535⟩]⟩,  -- CONG
  ⟨0x110, 1, 4, 32, 0x0, .refuse 17, [⟨.rw, 0, 1, 0, 1⟩]⟩,  -- SAMPLE_CTRL
  ⟨0x114, 1, 4, 32, 0x3E8, .refuse 17, [⟨.rw, 0, 20, 10, 1000000⟩]⟩,  -- SAMPLE_PERIOD
  ⟨0x118, 1, 8, 64, 0x0, .refuse 17, [⟨.rw, 6, 58, 0, 288230376151711743⟩]⟩,  -- SAMPLE_BASE
  ⟨0x120, 1, 4, 32, 0x1000, .refuse 17, [⟨.rw, 0, 17, 64, 65536⟩]⟩,  -- SAMPLE_ENTRIES
  ⟨0x124, 1, 4, 32, 0x0, .keepField, []⟩,  -- SAMPLE_WR
  ⟨0x128, 1, 4, 32, 0x0, .refuse 17, [⟨.rw, 0, 32, 0, 4294967295⟩]⟩,  -- SAMPLE_RD
  ⟨0x12C, 1, 4, 32, 0x0, .keepField, []⟩,  -- SAMPLE_LOST
  ⟨0x130, 1, 4, 32, 0x0, .refuse 17, [⟨.rw, 0, 32, 0, 4294967295⟩]⟩,  -- SAMPLE_MASK0
  ⟨0x134, 1, 4, 32, 0x0, .refuse 17, [⟨.rw, 0, 18, 0, 262143⟩]⟩,  -- SAMPLE_MASK1
  ⟨0x138, 1, 4, 32, 0x0, .refuse 17, [⟨.rw, 0, 10, 0, 1023⟩]⟩,  -- SAMPLE_MASK2
  ⟨0x13C, 1, 4, 32, 0x0, .refuse 17, []⟩,  -- SAMPLE_MASK3
  ⟨0x140, 1, 4, 32, 0x0, .refuse 17, [⟨.rw, 0, 13, 0, 4159⟩]⟩,  -- FLOW_SEL
  ⟨0x144, 1, 4, 32, 0x0, .refuse 17, [⟨.rw, 0, 1, 0, 1⟩, ⟨.rw, 1, 1, 0, 1⟩, ⟨.w1s, 2, 1, 0, 1⟩]⟩,  -- FLOW_CTRL (reads values in force; staged value stored)
  ⟨0x148, 1, 4, 32, 0x0, .refuse 17, [⟨.rw, 0, 32, 0, 4294967295⟩]⟩,  -- FLOW_CIR (reads the staged value)
  ⟨0x14C, 1, 4, 32, 0x0, .refuse 17, [⟨.rw, 0, 32, 0, 4294967295⟩]⟩,  -- FLOW_PIR (reads the staged value)
  ⟨0x150, 1, 4, 32, 0x0, .refuse 17, [⟨.rw, 0, 32, 0, 4294967295⟩]⟩,  -- FLOW_CBS (reads the staged value)
  ⟨0x154, 1, 4, 32, 0x0, .refuse 17, [⟨.rw, 0, 32, 0, 4294967295⟩]⟩,  -- FLOW_PBS (reads the staged value)
  ⟨0x158, 1, 4, 32, 0x0, .keepField, []⟩,  -- FLOW_KIND (view)
  ⟨0x15C, 1, 4, 32, 0x0, .keepField, []⟩,  -- FLOW_TC (view)
  ⟨0x160, 1, 4, 32, 0x0, .keepField, []⟩,  -- FLOW_TP (view)
  ⟨0x164, 1, 4, 32, 0x0, .keepField, []⟩,  -- FLOW_GREEN (view)
  ⟨0x168, 1, 4, 32, 0x0, .keepField, []⟩,  -- FLOW_YELLOW (view)
  ⟨0x16C, 1, 4, 32, 0x0, .keepField, []⟩,  -- FLOW_RED (view)
  ⟨0x170, 1, 4, 32, 0x0, .keepField, []⟩,  -- FLOW_YDROP (view)
  ⟨0x180, 1, 4, 32, 0x0, .refuse 17, [⟨.rw, 0, 1, 0, 1⟩, ⟨.rw, 1, 1, 0, 1⟩]⟩,  -- DEF_CTRL
  ⟨0x184, 1, 4, 32, 0x0, .refuse 17, [⟨.rw, 0, 32, 0, 4294967295⟩]⟩,  -- DEF_CIR
  ⟨0x188, 1, 4, 32, 0x0, .refuse 17, [⟨.rw, 0, 32, 0, 4294967295⟩]⟩,  -- DEF_PIR
  ⟨0x18C, 1, 4, 32, 0x0, .refuse 17, [⟨.rw, 0, 32, 0, 4294967295⟩]⟩,  -- DEF_CBS
  ⟨0x190, 1, 4, 32, 0x0, .refuse 17, [⟨.rw, 0, 32, 0, 4294967295⟩]⟩,  -- DEF_PBS
  ⟨0x1C0, 1, 4, 32, 0x1001000, .refuse 17, [⟨.rw, 0, 16, 1, 65535⟩, ⟨.rw, 16, 16, 1, 65535⟩]⟩,  -- SHP_IN0
  ⟨0x1C4, 1, 4, 32, 0x1001000, .refuse 17, [⟨.rw, 0, 16, 1, 65535⟩, ⟨.rw, 16, 16, 1, 65535⟩]⟩,  -- SHP_IN1
  ⟨0x1C8, 1, 4, 32, 0x1001000, .refuse 17, [⟨.rw, 0, 16, 1, 65535⟩, ⟨.rw, 16, 16, 1, 65535⟩]⟩,  -- SHP_IN2
  ⟨0x1CC, 1, 4, 32, 0x1001000, .refuse 17, [⟨.rw, 0, 16, 1, 65535⟩, ⟨.rw, 16, 16, 1, 65535⟩]⟩,  -- SHP_IN3
  ⟨0x1D0, 1, 4, 32, 0x1004000, .refuse 17, [⟨.rw, 0, 16, 1, 65535⟩, ⟨.rw, 16, 16, 1, 65535⟩]⟩,  -- SHP_IN4
  ⟨0x1D8, 1, 4, 32, 0x1000400, .refuse 17, [⟨.rw, 0, 16, 1, 65535⟩, ⟨.rw, 16, 16, 1, 65535⟩]⟩,  -- SHP_IN6
  ⟨0x1E0, 1, 4, 32, 0x1004000, .refuse 17, [⟨.rw, 0, 16, 1, 65535⟩, ⟨.rw, 16, 16, 1, 65535⟩]⟩,  -- SHP_OUT0
  ⟨0x1E4, 1, 4, 32, 0x1004000, .refuse 17, [⟨.rw, 0, 16, 1, 65535⟩, ⟨.rw, 16, 16, 1, 65535⟩]⟩,  -- SHP_OUT1
  ⟨0x1E8, 1, 4, 32, 0x1004000, .refuse 17, [⟨.rw, 0, 16, 1, 65535⟩, ⟨.rw, 16, 16, 1, 65535⟩]⟩,  -- SHP_OUT2
  ⟨0x1EC, 1, 4, 32, 0x1004000, .refuse 17, [⟨.rw, 0, 16, 1, 65535⟩, ⟨.rw, 16, 16, 1, 65535⟩]⟩,  -- SHP_OUT3
  ⟨0x1F0, 1, 4, 32, 0x1004000, .refuse 17, [⟨.rw, 0, 16, 1, 65535⟩, ⟨.rw, 16, 16, 1, 65535⟩]⟩,  -- SHP_OUT4
  ⟨0x1F8, 1, 4, 32, 0x1001000, .refuse 17, [⟨.rw, 0, 16, 1, 65535⟩, ⟨.rw, 16, 16, 1, 65535⟩]⟩,  -- SHP_OUT6
  ⟨0x200, 2, 64, 32, 0x5F5E100, .refuse 17, [⟨.rw, 0, 32, 1, 4294967295⟩]⟩,  -- BKT_RATE_REPL
  ⟨0x204, 2, 64, 32, 0x1000000, .refuse 17, [⟨.rw, 0, 32, 65536, 4294967295⟩]⟩,  -- BKT_BURST_REPL
  ⟨0x208, 2, 64, 32, 0x1000000, .keepField, []⟩,  -- BKT_TOKENS_REPL (view)
  ⟨0x210, 2, 64, 32, 0x23C34600, .refuse 17, [⟨.rw, 0, 32, 1, 4294967295⟩]⟩,  -- BKT_RATE_REBUILD
  ⟨0x214, 2, 64, 32, 0x1000000, .refuse 17, [⟨.rw, 0, 32, 65536, 4294967295⟩]⟩,  -- BKT_BURST_REBUILD
  ⟨0x218, 2, 64, 32, 0x1000000, .keepField, []⟩,  -- BKT_TOKENS_REBUILD (view)
  ⟨0x220, 2, 64, 32, 0xF4240, .refuse 17, [⟨.rw, 0, 32, 1, 4294967295⟩]⟩,  -- BKT_RATE_MGMT
  ⟨0x224, 2, 64, 32, 0x100000, .refuse 17, [⟨.rw, 0, 32, 65536, 4294967295⟩]⟩,  -- BKT_BURST_MGMT
  ⟨0x228, 2, 64, 32, 0x100000, .keepField, []⟩,  -- BKT_TOKENS_MGMT (view)
  ⟨0x230, 2, 64, 32, 0x186A0, .refuse 17, [⟨.rw, 0, 32, 1, 4294967295⟩]⟩,  -- BKT_RATE_PROXY
  ⟨0x234, 2, 64, 32, 0x10000, .refuse 17, [⟨.rw, 0, 32, 65536, 4294967295⟩]⟩,  -- BKT_BURST_PROXY
  ⟨0x238, 2, 64, 32, 0x10000, .keepField, []⟩,  -- BKT_TOKENS_PROXY (view)
  ⟨0x280, 1, 4, 32, 0x0, .refuse 17, [⟨.rw, 0, 7, 0, 127⟩]⟩,  -- Q_SEL
  ⟨0x284, 1, 4, 32, 0x0, .keepField, []⟩,  -- Q_DEPTH (view)
  ⟨0x288, 1, 4, 32, 0x0, .refuse 17, [⟨.rw, 0, 17, 0, 131071⟩]⟩,  -- Q_HWM (view of selected queue)
  ⟨0x28C, 1, 4, 32, 0x0, .refuse 17, [⟨.rw, 0, 32, 0, 4294967295⟩]⟩,  -- Q_DELAY_HWM (view of selected queue)
  ⟨0x290, 1, 4, 32, 0x0, .keepField, []⟩,  -- Q_CREDIT (view)
  ⟨0x294, 1, 4, 32, 0x0, .keepField, []⟩ ]  -- Q_HEAD_AGE (view)

/-- The block-specific registers of a CXP page (R385 of 14_memory_tiers_pool.md). -/
def cxpRegs : List RegDesc := [
  ⟨0x100, 1, 4, 32, 0x0, .keepField, []⟩,  -- LINK
  ⟨0x104, 1, 4, 32, 0x0, .keepField, []⟩,  -- LDS
  ⟨0x108, 1, 4, 32, 0x0, .keepFieldErr 19, [⟨.rwl, 0, 9, 0, 256⟩]⟩,  -- POOL_SIZE
  ⟨0x10C, 1, 4, 32, 0x0, .keepField, []⟩,  -- POOL_USED (view)
  ⟨0x110, 1, 4, 32, 0xEA60, .refuse 19, [⟨.rw, 0, 16, 1, 60000⟩]⟩,  -- TERM_MAX
  ⟨0x114, 1, 4, 32, 0x0, .keepField, []⟩,  -- REGIONS (view)
  ⟨0x118, 1, 8, 64, 0x0, .keepField, []⟩,  -- UNLEASED_LAST
  ⟨0x120, 1, 4, 32, 0x0, .keepField, []⟩,  -- LOST
  ⟨0x124, 1, 4, 32, 0x0, .keepField, []⟩,  -- UNMIRRORED
  ⟨0x128, 1, 4, 32, 0x0, .keepField, []⟩,  -- DIRTY (view)
  ⟨0x12C, 1, 4, 32, 0x0, .keepField, [⟨.rw, 0, 12, 0, 4095⟩]⟩,  -- SEL
  ⟨0x130, 1, 4, 32, 0x0, .keepField, []⟩,  -- VIEW_LEASE (view)
  ⟨0x134, 1, 4, 32, 0x0, .keepField, []⟩,  -- VIEW_ID (view)
  ⟨0x138, 1, 4, 32, 0x0, .keepField, []⟩,  -- VIEW_WC (view)
  ⟨0x13C, 1, 4, 32, 0x0, .keepField, []⟩ ]  -- VIEW_LEFT (view)

/-- The block-specific registers of a MEM page (R179 of 06_near_bank_scan.md). -/
def memRegs : List RegDesc := [
  ⟨0x100, 1, 4, 32, 0x40088008, .keepField, []⟩,  -- GEOMETRY
  ⟨0x104, 1, 4, 32, 0xF0, .keepField, []⟩,  -- ROLE (MEM 8 resets to 0xF1)
  ⟨0x108, 1, 4, 32, 0x0, .keepField, []⟩,  -- IDX_ROWS
  ⟨0x10C, 1, 4, 32, 0x0, .keepField, []⟩,  -- REFRESH
  ⟨0x110, 1, 8, 64, 0x0, .keepField, []⟩,  -- ECC_LAST
  ⟨0x118, 1, 8, 64, 0x0, .keepField, []⟩,  -- IDX_WRITE_LAST
  ⟨0x120, 1, 4, 32, 0x18, .keepFieldErr 19, [⟨.rw, 0, 8, 1, 168⟩]⟩ ]  -- SCRUB_CFG

/-- The block-specific registers of a PIM page (R180 of 06_near_bank_scan.md). -/
def pimRegs : List RegDesc := [
  ⟨0x100, 1, 4, 32, 0x400, .keepField, []⟩,  -- UNITS
  ⟨0x104, 1, 4, 32, 0x200, .keepFieldErr 19, [⟨.rw, 0, 10, 256, 512⟩]⟩,  -- QUOTA
  ⟨0x108, 1, 4, 32, 0x200, .keepField, []⟩,  -- QUOTA_EFF (view)
  ⟨0x10C, 1, 4, 32, 0x0, .keepField, []⟩,  -- ACTIVE
  ⟨0x110, 1, 4, 32, 0x0, .keepField, [⟨.rw, 0, 11, 0, 2047⟩]⟩,  -- ACTIVE_HIGH
  ⟨0x114, 1, 4, 32, 0x0, .keepField, []⟩,  -- QUEUED (view)
  ⟨0x118, 1, 4, 32, 0x0, .keepField, []⟩,  -- FENCED (view)
  ⟨0x120, 32, 4, 32, 0x0, .keepField, []⟩ ]  -- FENCE_MAP

/-- The block-specific registers of a FLC page (R202 of 07_channel_engines.md). -/
def flcRegs : List RegDesc := [
  ⟨0x100, 1, 4, 32, 0x0, .keepField, []⟩,  -- CHANNEL (per page: c, c div 4, c mod 4)
  ⟨0x104, 1, 4, 32, 0x802800, .keepField, []⟩,  -- CAPS
  ⟨0x108, 1, 4, 32, 0x0, .keepField, []⟩,  -- CH_STATUS
  ⟨0x10C, 1, 4, 32, 0x4208410, .keepField, [⟨.rw, 0, 30, 0, 1073741823⟩]⟩,  -- SHARE
  ⟨0x110, 1, 4, 32, 0x7D0, .refuse 20, [⟨.rw, 0, 16, 100, 10000⟩]⟩,  -- READ_LIMIT
  ⟨0x114, 1, 4, 32, 0x107, .keepField, [⟨.rw, 0, 4, 0, 15⟩, ⟨.rw, 8, 1, 0, 1⟩]⟩,  -- MEDIA_CFG
  ⟨0x118, 1, 4, 32, 0x406060, .keepField, []⟩,  -- CREDITS
  ⟨0x11C, 1, 4, 32, 0x0, .keepField, []⟩,  -- QUEUED
  ⟨0x120, 1, 4, 32, 0x0, .keepField, [⟨.rw, 0, 9, 0, 511⟩]⟩,  -- QUEUED_HIGH
  ⟨0x128, 1, 8, 64, 0x0, .keepField, []⟩ ]  -- UNCORR_LAST

/-- The block-specific registers of a FTL page (R414 of 15_flash_media.md). -/
def ftlRegs : List RegDesc := [
  ⟨0x100, 1, 4, 32, 0x20E0410, .keepField, []⟩,  -- GEOMETRY
  ⟨0x104, 1, 4, 32, 0xE000, .keepField, []⟩,  -- ZONE_TILES
  ⟨0x108, 1, 4, 32, 0x0, .keepField, []⟩,  -- ZONES
  ⟨0x10C, 1, 4, 32, 0x0, .keepField, []⟩,  -- ZONES_FREE
  ⟨0x110, 1, 8, 64, 0x0, .refuse 20, [⟨.rwl, 6, 58, 0, 288230376151711743⟩]⟩,  -- ZLOG_BASE
  ⟨0x118, 1, 4, 32, 0x1000, .refuse 20, [⟨.rwl, 0, 17, 64, 65536⟩]⟩,  -- ZLOG_ENTRIES
  ⟨0x11C, 1, 4, 32, 0x0, .keepField, []⟩,  -- ZLOG_WR
  ⟨0x120, 1, 4, 32, 0x0, .keepField, [⟨.rw, 0, 32, 0, 4294967295⟩]⟩,  -- ZLOG_RD
  ⟨0x124, 1, 4, 32, 0xC8, .refuse 20, [⟨.rw, 0, 16, 10, 1000⟩]⟩,  -- REFRESH_CFG
  ⟨0x128, 1, 4, 32, 0x50, .refuse 20, [⟨.rw, 0, 8, 16, 120⟩]⟩,  -- REWRITE_CFG
  ⟨0x12C, 1, 4, 32, 0x10258, .refuse 20, [⟨.rw, 0, 16, 0, 3600⟩, ⟨.rw, 16, 1, 0, 1⟩]⟩,  -- REBUILD_CFG
  ⟨0x130, 1, 4, 32, 0x0, .keepField, []⟩,  -- SPARE
  ⟨0x134, 1, 4, 32, 0x0, .keepField, []⟩,  -- DEGRADED
  ⟨0x138, 1, 4, 32, 0xFF, .keepField, []⟩,  -- REBUILD
  ⟨0x140, 1, 8, 64, 0x0, .keepField, []⟩ ]  -- LOG_PAGES

/-- The block-specific registers of a BAY page (R416 of 15_flash_media.md). -/
def bayRegs : List RegDesc := [
  ⟨0x100, 1, 4, 32, 0x0, .keepField, []⟩,  -- BAY_STATUS
  ⟨0x108, 1, 8, 64, 0x0, .keepField, []⟩,  -- SERIAL
  ⟨0x110, 1, 4, 32, 0x0, .keepField, []⟩,  -- CART_INFO
  ⟨0x114, 1, 4, 32, 0x0, .keepField, []⟩,  -- WEAR
  ⟨0x118, 1, 4, 32, 0x0, .keepField, [⟨.wo, 0, 3, 0, 7⟩]⟩,  -- BAY_CMD
  ⟨0x11C, 1, 4, 32, 0x0, .keepField, []⟩ ]  -- ABSENT_FOR (view)

/-- The block-specific registers of a SCL page (R275 of 10_scan_cores.md). -/
def sclRegs : List RegDesc := [
  ⟨0x100, 1, 4, 32, 0x2300240, .keepField, []⟩,  -- CAPS
  ⟨0x104, 1, 4, 32, 0x20000040, .keepField, []⟩,  -- STORES
  ⟨0x108, 1, 4, 32, 0xFFFF, .keepField, []⟩,  -- BINDING
  ⟨0x10C, 1, 4, 32, 0x0, .keepField, []⟩,  -- THREADS
  ⟨0x110, 1, 4, 32, 0x0, .keepField, [⟨.rw, 0, 12, 0, 4095⟩]⟩,  -- THREADS_HIGH
  ⟨0x114, 1, 4, 32, 0x0, .keepField, []⟩,  -- FENCED
  ⟨0x118, 1, 8, 64, 0x0, .keepField, []⟩,  -- SYNC_LAST
  ⟨0x120, 1, 4, 32, 0x0, .keepField, [⟨.rw, 0, 10, 0, 575⟩, ⟨.rw, 10, 6, 0, 47⟩]⟩,  -- CNT_SEL
  ⟨0x124, 1, 4, 32, 0x0, .keepField, []⟩,  -- CNT_VIEW (view)
  ⟨0x140, 18, 4, 32, 0x0, .keepField, []⟩,  -- FENCE_MAP
  ⟨0x800, 64, 32, 32, 0x0, .keepField, []⟩,  -- JOB_STATE (SCL 0 only)
  ⟨0x804, 64, 32, 32, 0x0, .keepField, []⟩,  -- JOB_RES (SCL 0 only)
  ⟨0x808, 64, 32, 32, 0x0, .keepField, []⟩,  -- JOB_RUNS (SCL 0 only)
  ⟨0x80C, 64, 32, 32, 0x0, .keepField, []⟩,  -- JOB_INV (SCL 0 only)
  ⟨0x810, 64, 32, 64, 0x0, .keepField, []⟩ ]  -- JOB_CHECK (SCL 0 only)

/-- The block-specific registers of a MXC page (R308 of 11_matrix_cores.md). -/
def mxcRegs : List RegDesc := [
  ⟨0x100, 1, 4, 32, 0x200404, .keepField, []⟩,  -- CAPS
  ⟨0x104, 1, 4, 32, 0x1FFFF, .keepField, []⟩,  -- BINDING
  ⟨0x108, 1, 4, 32, 0x0, .keepField, []⟩,  -- WSRAM
  ⟨0x10C, 1, 4, 32, 0x0, .keepField, []⟩,  -- STEPS
  ⟨0x110, 1, 4, 32, 0x0, .keepField, [⟨.rw, 0, 5, 0, 31⟩]⟩,  -- STEPS_HIGH
  ⟨0x114, 1, 4, 32, 0x0, .keepField, []⟩,  -- STREAM
  ⟨0x118, 1, 8, 64, 0x0, .keepField, []⟩,  -- SYNC_LAST
  ⟨0x120, 1, 4, 32, 0x0, .keepField, [⟨.rw, 0, 6, 0, 63⟩]⟩,  -- CNT_SEL
  ⟨0x124, 1, 4, 32, 0x0, .keepField, []⟩,  -- CNT_VIEW (view)
  ⟨0x128, 1, 4, 32, 0x0, .keepField, []⟩ ]  -- TILE_LAST

/-- The block-specific registers of a SLU page (R222 of 08_selection_units.md). -/
def sluRegs : List RegDesc := [
  ⟨0x100, 1, 4, 32, 0x4080400, .keepField, []⟩,  -- CAPS
  ⟨0x104, 1, 4, 32, 0x0, .keepField, []⟩,  -- SLOTS_USED
  ⟨0x108, 1, 4, 32, 0x0, .keepField, [⟨.rw, 0, 3, 0, 7⟩]⟩ ]  -- SLOTS_HIGH

/-- The block-specific registers of a QPL page (R155 of 05_query_pipeline.md). -/
def qplRegs : List RegDesc := [
  ⟨0x100, 1, 4, 32, 0x20000, .keepField, []⟩,  -- CONTEXTS
  ⟨0x104, 1, 4, 32, 0x3E8, .refuse 16, [⟨.rw, 0, 16, 250, 64000⟩]⟩,  -- PITCH
  ⟨0x108, 1, 4, 32, 0x32, .refuse 16, [⟨.rw, 0, 16, 0, 10000⟩]⟩,  -- HOP_ALLOW
  ⟨0x10C, 1, 4, 32, 0x18000, .keepField, [⟨.rw, 0, 18, 0, 262143⟩]⟩,  -- CTX_WARN
  ⟨0x110, 1, 8, 64, 0x0, .keepField, []⟩,  -- ORIGIN
  ⟨0x118, 1, 8, 64, 0x0, .keepField, []⟩,  -- CUR_PITCH (view)
  ⟨0x120, 1, 4, 32, 0x0, .keepField, []⟩,  -- CTX_USED
  ⟨0x124, 1, 4, 32, 0x0, .keepField, [⟨.rw, 0, 18, 0, 262143⟩]⟩,  -- CTX_HIGH
  ⟨0x128, 1, 4, 32, 0x0, .keepField, []⟩,  -- WAITING
  ⟨0x140, 8, 4, 32, 0x0, .keepField, []⟩ ]  -- LANE

/-- The block-specific registers of a IDX page (R121 of 04_index_format.md). -/
def idxRegs : List RegDesc := [
  ⟨0x100, 1, 4, 32, 0x410, .keepField, []⟩,  -- CAPS
  ⟨0x104, 1, 4, 32, 0xA, .keepField, [⟨.rw, 0, 16, 1, 1000⟩]⟩,  -- VC_PERIOD
  ⟨0x108, 1, 4, 32, 0x0, .keepField, []⟩,  -- PARTS_USED
  ⟨0x110, 1, 8, 64, 0x0, .keepField, []⟩,  -- VECS_USED
  ⟨0x118, 1, 8, 64, 0x0, .keepField, []⟩,  -- HOT_VECS
  ⟨0x400, 16, 64, 32, 0x0, .keepField, []⟩,  -- IX_STATUS (view of the index state)
  ⟨0x404, 16, 64, 32, 0x0, .keepField, []⟩,  -- CUR_VERSION (view of the index state)
  ⟨0x408, 16, 64, 64, 0x0, .keepField, []⟩,  -- LOCAL_VC (view of the index state)
  ⟨0x410, 16, 64, 64, 0x0, .keepField, []⟩,  -- ASSIGNED (view of the index state)
  ⟨0x418, 16, 64, 32, 0x0, .keepField, []⟩,  -- KEEPER_PLACE (view of the index state)
  ⟨0x41C, 16, 64, 32, 0x0, .keepField, []⟩,  -- SIDE_COUNT (view of the index state)
  ⟨0x420, 16, 64, 32, 0x0, .keepField, []⟩,  -- TOMB_COUNT (view of the index state)
  ⟨0x424, 16, 64, 32, 0x0, .keepField, []⟩,  -- HIGH_VERSION (view of the index state)
  ⟨0x428, 16, 64, 64, 0x0, .keepField, []⟩,  -- MIN_FLOOR (view of the index state)
  ⟨0x430, 16, 64, 32, 0x0, .keepField, []⟩,  -- VOIDED (view of the index state)
  ⟨0x800, 64, 16, 32, 0x0, .keepField, []⟩,  -- V_VERSION (view of the index state)
  ⟨0x804, 64, 16, 32, 0x0, .keepField, []⟩,  -- V_STATE (view of the index state)
  ⟨0x808, 64, 16, 64, 0x0, .keepField, []⟩ ]  -- V_FLOOR (view of the index state)

/-- The block-specific registers of a TBL page (R355 of 13_tables_placement.md). -/
def tblRegs : List RegDesc := [
  ⟨0x100, 1, 4, 32, 0x40400, .keepField, []⟩,  -- CAPS
  ⟨0x104, 1, 4, 32, 0x2710, .keepFieldErr 18, [⟨.rw, 0, 16, 100, 65535⟩]⟩,  -- PF_HOLD
  ⟨0x108, 1, 4, 32, 0x0, .keepField, []⟩,  -- TABLES (view)
  ⟨0x110, 1, 8, 64, 0x0, .keepField, []⟩,  -- ROWS_HELD (view)
  ⟨0x118, 1, 8, 64, 0x0, .keepField, []⟩,  -- PEND_HELD (view)
  ⟨0x120, 1, 4, 32, 0x0, .keepField, [⟨.rw, 0, 10, 0, 1023⟩]⟩,  -- SEL
  ⟨0x124, 1, 4, 32, 0x0, .keepField, []⟩,  -- VIEW_STATE (view)
  ⟨0x128, 1, 4, 32, 0x0, .keepField, []⟩,  -- VIEW_CURRENT (view)
  ⟨0x12C, 1, 4, 32, 0x0, .keepField, []⟩,  -- VIEW_OPEN (view)
  ⟨0x130, 1, 4, 32, 0x0, .keepField, []⟩,  -- VIEW_OLDEST (view)
  ⟨0x134, 1, 4, 32, 0x0, .keepField, []⟩,  -- VIEW_ROWS (view)
  ⟨0x138, 1, 4, 32, 0x0, .keepField, []⟩,  -- VIEW_GEOM (view)
  ⟨0x13C, 1, 4, 32, 0x0, .keepField, []⟩ ]  -- VIEW_PEND (view)

/-- The block-specific registers of a PLC page (R357 of 13_tables_placement.md). -/
def plcRegs : List RegDesc := [
  ⟨0x100, 1, 4, 32, 0x1, .keepField, []⟩,  -- PHASE
  ⟨0x104, 1, 4, 32, 0xA2005, .refuse 16, [⟨.rw, 0, 3, 0, 7⟩, ⟨.rw, 8, 8, 17, 255⟩, ⟨.rw, 16, 8, 0, 50⟩]⟩,  -- POLICY
  ⟨0x108, 1, 4, 32, 0x64, .refuse 16, [⟨.rw, 0, 16, 10, 10000⟩]⟩,  -- LOAD_WINDOW
  ⟨0x10C, 1, 4, 32, 0x7D0, .refuse 16, [⟨.rw, 0, 16, 100, 65535⟩]⟩,  -- MIGRATE_RATE
  ⟨0x110, 1, 4, 32, 0x55555555, .keepField, [⟨.rw, 0, 32, 0, 4294967295⟩]⟩,  -- PRIO_IDX
  ⟨0x114, 1, 4, 32, 0x0, .keepField, []⟩,  -- MAP_VERSION
  ⟨0x118, 1, 4, 32, 0x0, .keepField, []⟩,  -- ACTIVITY
  ⟨0x120, 1, 4, 32, 0x0, .keepField, [⟨.rw, 0, 2, 0, 3⟩, ⟨.rw, 16, 16, 0, 65535⟩]⟩,  -- Q_CTRL
  ⟨0x128, 1, 8, 64, 0x0, .keepField, [⟨.rw, 0, 64, 0, 18446744073709551615⟩]⟩,  -- Q_KEY
  ⟨0x130, 1, 4, 32, 0x0, .keepField, []⟩,  -- Q_RESULT
  ⟨0x134, 1, 4, 32, 0x0, .keepField, []⟩ ]  -- Q_LOAD

/-- The block-specific registers of a ROP page (R515 of 19_startup_health.md). -/
def ropRegs : List RegDesc := [
  ⟨0x100, 1, 4, 32, 0x0, .keepField, []⟩,  -- ROP_STATE
  ⟨0x104, 1, 4, 32, 0x0, .refuse 17, [⟨.rw, 0, 6, 0, 63⟩, ⟨.rw, 6, 1, 0, 1⟩, ⟨.rw, 7, 12, 0, 4095⟩]⟩,  -- JOIN_CFG
  ⟨0x108, 1, 4, 32, 0x0, .refuse 17, [⟨.w1s, 0, 3, 0, 7⟩, ⟨.rw, 16, 12, 0, 4095⟩]⟩,  -- JOIN_CTRL
  ⟨0x10C, 1, 4, 32, 0x0, .refuse 17, [⟨.rw, 0, 7, 16, 64⟩]⟩,  -- MEMBERS_N
  ⟨0x110, 1, 4, 32, 0x2710, .refuse 17, [⟨.rw, 0, 16, 100, 60000⟩]⟩,  -- FORM_WAIT
  ⟨0x114, 1, 4, 32, 0x0, .keepField, []⟩,  -- JOIN_LAST
  ⟨0x118, 1, 8, 64, 0x0, .keepField, []⟩,  -- HEARD
  ⟨0x120, 8, 4, 32, 0x0, .keepField, [⟨.key, 0, 32, 0, 4294967295⟩]⟩,  -- ROPE_KEY
  ⟨0x800, 64, 8, 64, 0x0, .refuse 17, [⟨.rw, 0, 20, 0, 1048575⟩]⟩ ]  -- MEMBER

/-- The block-specific registers of a HLT page (R516 of 19_startup_health.md). -/
def hltRegs : List RegDesc := [
  ⟨0x100, 1, 4, 32, 0x3C, .refuse 16, [⟨.rw, 0, 16, 8, 3600⟩]⟩,  -- WINDOW
  ⟨0x104, 1, 4, 32, 0x1F4003E8, .refuse 16, [⟨.rw, 0, 32, 0, 4294967295⟩]⟩,  -- THRESH
  ⟨0x108, 1, 4, 32, 0xF, .refuse 16, [⟨.rw, 0, 5, 0, 31⟩]⟩,  -- ACTION_EN
  ⟨0x10C, 1, 4, 32, 0x0, .keepField, []⟩,  -- MODULE
  ⟨0x110, 1, 4, 32, 0x0, .keepField, []⟩,  -- BANDS (view)
  ⟨0x118, 1, 8, 64, 0x0, .keepField, []⟩,  -- FATAL (strap; kept by the standby controller)
  ⟨0x120, 1, 4, 32, 0x0, .keepField, [⟨.wo, 0, 2, 0, 3⟩, ⟨.wo, 16, 14, 0, 16383⟩]⟩,  -- CLEAR
  ⟨0x200, 23, 4, 32, 0x400400, .refuse 16, [⟨.rw, 0, 5, 0, 31⟩, ⟨.rw, 8, 8, 0, 255⟩, ⟨.rw, 16, 8, 0, 255⟩]⟩ ]  -- TW (TW4 resets to 0x0040_0418)

/-- The block-specific registers of a DBG page (R492 of 18_security_debug.md). -/
def dbgRegs : List RegDesc := [
  ⟨0x100, 1, 4, 32, 0x0, .keepField, []⟩,  -- DBG_STATUS (strap FIELD_LOCK)
  ⟨0x104, 1, 4, 32, 0x0, .keepField, []⟩,  -- PERMS
  ⟨0x108, 1, 4, 32, 0x0, .keepField, [⟨.w1s, 0, 2, 0, 3⟩]⟩,  -- AUTH_CTRL
  ⟨0x10C, 1, 4, 32, 0x0, .keepField, [⟨.wo, 0, 1, 0, 1⟩, ⟨.wo, 16, 16, 0, 65535⟩]⟩,  -- FREEZE
  ⟨0x110, 1, 4, 32, 0x0, .keepField, [⟨.wo, 0, 1, 0, 1⟩, ⟨.wo, 16, 16, 0, 65535⟩]⟩,  -- FUSE_CTRL
  ⟨0x114, 1, 4, 32, 0x0, .keepField, []⟩,  -- FUSE_STATUS (strap BLOWN)
  ⟨0x140, 16, 4, 32, 0x0, .keepField, []⟩,  -- CHALLENGE (drawn)
  ⟨0x800, 512, 4, 32, 0x0, .keepField, [⟨.key, 0, 32, 0, 4294967295⟩]⟩ ]  -- TOKEN

/-- The block-specific registers of a page type. -/
def PageType.regs : PageType → List RegDesc
  | .glb => glbRegs
  | .hlk => hlkRegs
  | .sec => secRegs
  | .pwr => pwrRegs
  | .kwf => kwfRegs
  | .kwt => kwtRegs
  | .trf => trfRegs
  | .cxp => cxpRegs
  | .mem => memRegs
  | .pim => pimRegs
  | .flc => flcRegs
  | .ftl => ftlRegs
  | .bay => bayRegs
  | .scl => sclRegs
  | .mxc => mxcRegs
  | .slu => sluRegs
  | .qpl => qplRegs
  | .idx => idxRegs
  | .tbl => tblRegs
  | .plc => plcRegs
  | .rop => ropRegs
  | .hlt => hltRegs
  | .dbg => dbgRegs

/-- The page type codes of R26. -/
def PageType.code : PageType → Nat
  | .glb => 0 | .hlk => 1 | .sec => 2 | .pwr => 3 | .kwf => 4 | .kwt => 5 | .trf => 6 | .cxp => 7
  | .mem => 8 | .pim => 9 | .flc => 10 | .ftl => 11 | .bay => 12 | .scl => 13 | .mxc => 14 | .slu => 15
  | .qpl => 16 | .idx => 17 | .tbl => 18 | .plc => 19 | .rop => 20 | .hlt => 21 | .dbg => 22

/-- The number of instances of each page type (R26). -/
def PageType.instances : PageType → Nat
  | .kwf => 8 | .cxp => 2 | .mem => 9 | .pim => 9 | .flc => 64 | .bay => 16 | .scl => 512 | .mxc => 64 | .slu => 64
  | .qpl => 2 | _ => 1

/-- How many error bits of its own a page type has, counted from bit 16 of ERR_STATUS (the error tables of the chapters). -/
def PageType.ownErrs : PageType → Nat
  | .glb => 0 | .hlk => 2 | .sec => 5 | .pwr => 2 | .kwf => 5 | .kwt => 6 | .trf => 4 | .cxp => 4
  | .mem => 4 | .pim => 4 | .flc => 5 | .ftl => 6 | .bay => 4 | .scl => 4 | .mxc => 5 | .slu => 3
  | .qpl => 2 | .idx => 4 | .tbl => 3 | .plc => 2 | .rop => 2 | .hlt => 1 | .dbg => 2

/-- How many interrupt causes of its own a page has, counted from bit 16 of INT_STATUS; JOB_END is a cause of SCL 0 alone
(the interrupt tables of the chapters). -/
def PageRef.ownInts (p : PageRef) : Nat :=
  match p.type with
  | .glb | .slu | .dbg => 0
  | .hlk | .kwf => 1
  | .kwt | .trf | .cxp | .mem | .pim | .flc | .bay | .mxc | .qpl | .tbl | .plc | .rop | .hlt => 2
  | .sec | .idx => 3
  | .pwr | .ftl => 4
  | .scl => if p.inst = 0 then 3 else 2

/-- The bits of a page's ERR_STATUS that are not reserved: the common errors, of which ACCESS and LOCKED_WRITE are GLB's
alone, and the page's own (R37). -/
def PageRef.errBits (p : PageRef) : BitVec 64 :=
  BitVec.ofNat 64 ((if p.type = .glb then 0x7F else 0x1F) + (2 ^ p.type.ownErrs - 1) * 2 ^ 16)

/-- The bits of a page's INT_STATUS that are not reserved (R40). -/
def PageRef.intBits (p : PageRef) : BitVec 64 := BitVec.ofNat 64 (0xF + (2 ^ p.ownInts - 1) * 2 ^ 16)

/-- Every page type in code order. -/
def PageType.all : List PageType :=
  [.glb, .hlk, .sec, .pwr, .kwf, .kwt, .trf, .cxp, .mem, .pim, .flc, .ftl, .bay, .scl, .mxc, .slu, .qpl, .idx,
   .tbl, .plc, .rop, .hlt, .dbg]

/-- The page type of a code, none for 0x17 to 0x1F. -/
def PageType.ofCode (c : Nat) : Option PageType := PageType.all[c]?

/-- The page exists (R26). -/
def PageRef.implemented (p : PageRef) : Bool := decide (p.inst < p.type.instances)

/-- The window offset of a page's first byte (R26). -/
def PageRef.base (p : PageRef) : Nat := p.type.code * 0x200000 + p.inst * 0x1000

/-- The window offset of a register of a page. -/
def PageRef.at (p : PageRef) (off : Nat) : Nat := p.base + off

/-- The page a window offset lies in. -/
def pageOf (a : Nat) : Option PageRef :=
  match PageType.ofCode (a / 0x200000) with
  | none => none
  | some t =>
    let p : PageRef := ⟨t, a % 0x200000 / 0x1000⟩
    if p.implemented then some p else none

/-- A row covers the page offset of one of its registers. -/
def RegDesc.covers (d : RegDesc) (off : Nat) : Bool :=
  decide (d.off ≤ off) && decide ((off - d.off) % d.stride = 0) && decide ((off - d.off) / d.stride < d.count)

/-- The rows of one page; the job table of R275 lies in SCL 0 alone. -/
def PageRef.rows (p : PageRef) : List RegDesc :=
  let l := p.type.regs
  if p.type = .scl ∧ p.inst ≠ 0 then l.filter (fun d => decide (d.off < 0x800)) else l

/-- The register at a page offset. -/
def findReg (p : PageRef) (off : Nat) : Option RegDesc :=
  (if off < 0x100 then commonRegs else p.rows).find? (fun d => d.covers off)

/-- The die a stack is attached to: S0 to S3 to C0, S4 to S7 to C1, S8 to the IO die (R12). -/
def stackDie (n : Nat) : Nat := min (n / 4) 2

/-- SITE of PAGE_REV: 0 C0, 1 C1, 2 the IO die, 3 to 11 the stack base dies (R31). A MEM page lies on the die that its
stack is attached to, which holds its controllers; a PIM page on the base die (R14). -/
def PageRef.site (p : PageRef) : Nat :=
  match p.type with
  | .mem => stackDie p.inst
  | .pim => 3 + p.inst
  | .scl => p.inst / 256
  | .mxc | .slu => p.inst / 32
  | .qpl => p.inst
  | _ => 2

/-- The reset value of the register at a window offset (R10); 0 where no register lies. -/
def resetValue (a : Nat) : BitVec 64 :=
  match pageOf a with
  | none => 0
  | some p =>
    let off := a % 0x1000
    let r : Nat :=
      if off = 0 then p.type.code + p.inst * 0x100 + 0x01000000
      else if off = 4 then p.site * 0x10000
      else if p.type = .flc ∧ off = 0x100 then p.inst + p.inst / 4 * 64 + p.inst % 4 * 1024
      else if p.type = .mem ∧ off = 0x104 ∧ p.inst = 8 then 0xF1
      else if p.type = .hlt ∧ off = 0x210 then 0x00400418
      else match findReg p off with
        | none => 0
        | some d => d.reset
    BitVec.ofNat 64 r

/-- The bits [lo + w - 1 : lo] of a register value, as a number. -/
def bits (v : BitVec 64) (lo w : Nat) : Nat := v.toNat / 2 ^ lo % 2 ^ w

/-- A register value with the bits [lo + w - 1 : lo] replaced. -/
def setBits (v : BitVec 64) (lo w n : Nat) : BitVec 64 :=
  BitVec.ofNat 64 (v.toNat % 2 ^ lo + n % 2 ^ w * 2 ^ lo + v.toNat / 2 ^ (lo + w) * 2 ^ (lo + w))

/-- Bit `i` of a register value. -/
def bit (v : BitVec 64) (i : Nat) : Bool := v.getLsbD i

/-- A register value with bit `i` made `x`. -/
def setBit (v : BitVec 64) (i : Nat) (x : Bool) : BitVec 64 := setBits v i 1 (if x then 1 else 0)

/-- The value a field takes from a write (R9), or `none` where its written value is outside its range. -/
def Field.apply (locked : Bool) (f : Field) (w old : BitVec 64) : Option (BitVec 64) :=
  let x := bits w f.lo f.width
  match f.acc with
  | .rw | .rws | .key => if f.min ≤ x ∧ x ≤ f.max then some (setBits old f.lo f.width x) else none
  | .rwl => if locked then some old else if f.min ≤ x ∧ x ≤ f.max then some (setBits old f.lo f.width x) else none
  | .w1c => some (old &&& ~~~ (setBits 0 f.lo f.width x))
  | .w1s => some (old ||| setBits 0 f.lo f.width x)
  | .wo => some old

/-- What a write leaves in a register: its new value and the error bit it sets, if any. -/
def applyFields (locked : Bool) (pol : Policy) (fs : List Field) (w old : BitVec 64) : BitVec 64 × Option Nat :=
  let bad := fs.any (fun f => (f.apply locked w old).isNone)
  let kept := fs.foldl (fun v f => (f.apply locked w v).getD v) old
  match pol with
  | .keepField => (kept, none)
  | .keepFieldErr n => (kept, if bad then some n else none)
  | .refuse n => if bad then (old, some n) else (kept, none)

/-- The write names an RWL field while the configuration lock is set (R44): some RWL field of the row is written. -/
def RegDesc.hasRwl (d : RegDesc) : Bool := d.fields.any (fun f => decide (f.acc = .rwl))

/-- The bits a read never returns: WO fields (R9). -/
def RegDesc.hidden (d : RegDesc) (v : BitVec 64) : BitVec 64 :=
  d.fields.foldl (fun v f => if f.acc = .wo ∨ f.acc = .key then setBits v f.lo f.width 0 else v) v

end Sys2Proof
end

