-- ==== Sys2Proof/Machine/Sparse.lean ====
section
/-! DEFINITION. Arrays as sparse lists of (key, value) pairs in one canonical form: keys strictly rising, and no entry
equal to what an unlisted key reads as. Memories, register files and numbered units are all held this way, so equal
contents are equal data. -/

namespace Sys2Proof.Machine

/-- A sparse array: an unlisted key reads as the array's default. -/
abbrev Sparse (α : Type) := List (Nat × α)

/-- The value at a key, `d` where the key is not listed. -/
def sget {α : Type} (d : α) : Sparse α → Nat → α
  | [], _ => d
  | (k, v) :: l, i => if i = k then v else sget d l i

/-- One entry put in key order, replacing the entry of the same key. -/
def sinsert {α : Type} (i : Nat) (x : α) : Sparse α → Sparse α
  | [] => [(i, x)]
  | (k, v) :: l =>
    if i < k then (i, x) :: (k, v) :: l
    else if i = k then (i, x) :: l
    else (k, v) :: sinsert i x l

/-- One key's entry removed. -/
def serase {α : Type} (i : Nat) : Sparse α → Sparse α
  | [] => []
  | (k, v) :: l => if i = k then l else (k, v) :: serase i l

/-- The array with `x` at key `i`; writing the default removes the entry. -/
def sset {α : Type} [DecidableEq α] (d : α) (l : Sparse α) (i : Nat) (x : α) : Sparse α :=
  if x = d then serase i l else sinsert i x l

/-- Every listed value changed; those that become the default are dropped. -/
def smap {α : Type} [DecidableEq α] (d : α) (f : α → α) (l : Sparse α) : Sparse α :=
  (l.map (fun e => (e.1, f e.2))).filter (fun e => decide (e.2 ≠ d))

/-- The same for a change that depends on the key. -/
def smapKey {α : Type} [DecidableEq α] (d : α) (f : Nat → α → α) (l : Sparse α) : Sparse α :=
  (l.map (fun e => (e.1, f e.1 e.2))).filter (fun e => decide (e.2 ≠ d))

/-- Every listed key is above `n`. -/
def sabove {α : Type} (n : Nat) (l : Sparse α) : Bool := l.all (fun e => decide (n < e.1))

/-- The canonical form. -/
def swf {α : Type} [DecidableEq α] (d : α) : Sparse α → Bool
  | [] => true
  | (k, v) :: l => decide (v ≠ d) && sabove k l && swf d l

/-- The canonical form of an array whose default depends on the key (the register file). -/
def swfBy {α : Type} [DecidableEq α] (d : Nat → α) : Sparse α → Bool
  | [] => true
  | (k, v) :: l => decide (v ≠ d k) && sabove k l && swfBy d l

/-- Byte memory: an unlisted address reads as 0 (DESIGN CHOICE, log 2). -/
abbrev Memory := Sparse (BitVec 8)

/-- The canonical form of a byte memory. -/
def Memory.wf (m : Memory) : Bool := swf 0 m

/-- One byte of a memory. -/
def Memory.byte (m : Memory) (a : Nat) : BitVec 8 := sget 0 m a

/-- One byte written. -/
def Memory.setByte (m : Memory) (a : Nat) (x : BitVec 8) : Memory := sset 0 m a x

/-- `n` bytes from address `a` upward. -/
def Memory.read (m : Memory) (a : Nat) : Nat → Bytes
  | 0 => []
  | n + 1 => m.byte a :: Memory.read m (a + 1) n

/-- Bytes written from address `a` upward. -/
def Memory.write (m : Memory) (a : Nat) : Bytes → Memory
  | [] => m
  | x :: xs => Memory.write (m.setByte a x) (a + 1) xs

end Sys2Proof.Machine
end

