-- ==== Sys2Proof/Machine/StateBase.lean ====
section
/-! DEFINITION. State of the parts every command passes: start-up and the sled, the pace governor, the command ports,
the commands in flight, and the traffic manager. -/

namespace Sys2Proof.Machine

/-- The start-up stages of R493, in order. -/
inductive Stage where
  | rails | boot | dieLinks | memory | blocks | media | restore | done
deriving DecidableEq, Repr

/-- What the reset in progress, or the last one, was (R42, R499). -/
inductive ResetKind where
  | power | warm | cold | button
deriving DecidableEq, Repr

/-- Package power as the sled's standby controller holds it (R504, R526). -/
inductive Power where
  | on
  | off                      -- removed on an SMBus request; waits for power-on
  | tripped (cause : Nat)    -- removed by the standby controller with a TRIP_LAST cause
deriving DecidableEq, Repr

/-- The sled: what survives every reset of the package. Straps and fuses have no value in the spec; log 3 names 0. -/
structure Sled where
  moduleId    : Nat := 0             -- sled identity memory (R42, R525)
  serial      : BitVec 64 := 0
  silicon     : BitVec 32 := 0
  impl        : Nat := 0             -- PAGE_REV IMPL (R31)
  macs        : Sparse Nat := []     -- MAC address per KWF port (R447)
  tripLast    : Nat := 0             -- R84
  fatal       : BitVec 64 := 0       -- HLT.FATAL record (R516)
  power       : Power := .on
  fuses       : Nat := 0             -- blown fuses (R490)
  locate      : Bool := false        -- R528
  lowFlow     : Bool := false        -- R533
  leak        : Bool := false        -- R533
  svcPresent  : Bool := false        -- R527
  mateOpen    : Bool := false        -- R518
  refusedFw   : Option Nat := none   -- the image whose verification stopped stage BOOT (R495)
  poweringOff : Bool := false        -- an SMBus power-off writes dirty items back (R526)
  alert       : Bool := false        -- SMBALERT_n is asserted (R524)
deriving DecidableEq, Repr

/-- One pace domain of R70. -/
structure Domain where
  asserted  : List Nat := []          -- asserted sag sensors, 0 to 3 (R76)
  sag       : Nat := 0
  holdStart : Option Nat := none      -- start of the running SAG_HOLD (R77)
  therm     : Nat := 0                -- R78
  failed    : Bool := false           -- R79
deriving DecidableEq, Repr

/-- The pace governor's own state (R80). -/
structure Governor where
  domains  : Sparse Domain := []
  cap      : Nat := 0
  runStart : Option Nat := none       -- starting evaluation of the running run
  capLast  : Nat := 0                 -- reading of the last evaluation
  samples  : List (Nat × Nat × Nat) := []   -- reading, package and module power in W of evaluations within TEL_WIN (R481)
deriving DecidableEq, Repr

/-- Where a command came from. -/
inductive Source where
  | port (p : Nat)
  | session (n msgId : Nat)
deriving DecidableEq, Repr

/-- How far a command has come: queued in TRF, waiting outside its store, handed to its block, waiting in the query
pipeline, at work. -/
inductive Phase where
  | queued | outside | handed | waiting | working
deriving DecidableEq, Repr

/-- A command in flight: its descriptor as it arrived (R54), the payload that followed it in its message, and its
readings. -/
structure Cmd where
  id       : Nat
  src      : Source
  raw      : Bytes
  body     : Bytes
  accepted : Nat
  deadline : Option Nat
  pitch    : Option Nat
  phase    : Phase
  die      : Nat
  cairn    : Nat
  wrote    : Bool := false             -- result bytes were written
  area     : Memory := []              -- the result area of a SPACE 2 reference
  areaLen  : Nat := 0
  admitted : Bool := false             -- passed every check of R58; in a session, its SEQ is delivered
  dupOf    : Option Nat := none        -- a held duplicate: the command whose end it waits for (R236)
deriving DecidableEq, Repr

/-- One hidden record per command port (R48, R53); PORT_STATUS is a view of it. -/
structure Port where
  posts    : Nat := 0
  records  : Nat := 0
  violated : Bool := false
deriving DecidableEq, Repr

/-- A proxied access in progress (R63, R64). -/
structure ProxyRun where
  start  : Nat
  target : Nat
deriving DecidableEq, Repr

/-- A two-rate meter of R455; token counts in multiples of 1/100,000 unit. -/
structure FlowMeter where
  en : Bool := false
  unitBytes : Bool := false
  cir : Nat := 0
  pir : Nat := 0
  cbs : Nat := 0
  pbs : Nat := 0
  tc : Nat := 0
  tp : Nat := 0
  last : Nat := 0
  green : Nat := 0
  yellow : Nat := 0
  red : Nat := 0
  ydrop : Nat := 0
deriving DecidableEq, Repr

/-- What a TRF entry is: a client command, a rope message, an OPEN message, or an outgoing message. -/
inductive EntryKind where
  | command (id : Nat)
  | rope (session : Nat) (kind : Nat) (msg : Nat) (data : Bytes)
  | openMsg (session : Nat) (source : Nat) (msg : Nat) (data : Bytes)
  | outgoing (msg : Nat)
deriving DecidableEq, Repr

/-- One entry of a TRF queue (R453). -/
structure TrfEntry where
  kind    : EntryKind
  queue   : Nat
  yellow  : Bool
  size    : Nat
  arrived : Nat
  pitch   : Option Nat
  deadline : Option Nat
deriving DecidableEq, Repr

/-- A credit shaper or a token bucket: its signed count and the reading it was last brought up to. -/
structure Shaper where
  count : Int := 0
  last  : Nat := 0
deriving DecidableEq, Repr

/-- The traffic manager's hidden state (R451 to R465). Queues are one list in arrival order. -/
structure Trf where
  flows     : Sparse FlowMeter := []
  entries   : List TrfEntry := []
  outside   : List TrfEntry := []        -- rope and OPEN messages waiting outside the store (R457)
  shapers   : Sparse Shaper := []      -- groups IG0.. at n, EG0.. at 8 + n
  buckets   : Sparse Shaper := []      -- 4d + i (R468)
  hwm       : Sparse Nat := []
  delayHwm  : Sparse Nat := []
  congested : List Nat := []           -- ingress groups congested now (R456)
  round     : Nat := 0                 -- next sampling round (R465)
  roundBase : Nat := 0                 -- reading of round 0
  handed    : List EntryKind := []     -- rope and OPEN messages handed to their blocks
deriving DecidableEq, Repr

/-- The state of a transport session (R480). -/
inductive SessState where
  | closed | opening | opened | closing
deriving DecidableEq, Repr

/-- A transport session (R427 to R432, R476 to R480). -/
structure Session where
  state    : SessState := .closed
  rope     : Bool := false
  endpoint : Nat := 0                  -- peer endpoint
  rights   : Nat := 0
  slot     : Nat := 0
  since    : Nat := 0                  -- reading at which it entered its state
  credits  : Nat := 0                  -- CREDITS (R432)
  high     : Nat := 0                  -- HIGH (R431)
  done     : List (Nat × Nat × Nat) := []   -- delivered mutating SEQs that ended: SEQ, status, cairn (R236)
  nonceC   : Bytes := []                -- the opening's nonces (R477)
  nonceM   : Bytes := []
  keyIn    : Bytes := []                -- session keys, peer to module and module to peer (R479)
  keyOut   : Bytes := []
  closing  : Option Nat := none         -- the SESSION_CLOSE command
deriving DecidableEq, Repr

end Sys2Proof.Machine
end

