-- ==== Sys2Proof/Machine/StateSearch.lean ====
section
/-! DEFINITION. State of the search subsystem: indexes and versions (chapter 04), the query pipeline (05), near-bank
scan units (06), channel engines (07), selection units (08) and updates (09). -/

namespace Sys2Proof.Machine

/-- The fields of a version root that later work reads (R89). Tile contents are held parsed, in `Version`. -/
structure Root where
  index : Nat
  version : Nat
  floor : Nat
  dim : Nat
  fmt : Nat
  metric : Nat
  m : Nat
  code8 : Bool
  degree : Nat
  attrBytes : Nat
  partitions : Nat
  vectors : Nat
  cb4 : Nat
  cb8 : Nat
  dir : Nat
  graph : Nat
  idTile : Nat
  vecTile : Nat
  attrTile : Nat
  tiles : Nat
  entry : List Nat       -- the ENTRIES entry nodes in their order
  schema : List Nat      -- sixteen SCHEMA words (R101)
deriving DecidableEq, Repr

/-- One vector of a partition: its ID, code digits (R93), full vector and attribute row, in slot order (R91). -/
structure Slot where
  vid  : Nat
  code : List Nat
  vec  : Bytes
  attr : Bytes
deriving DecidableEq, Repr

/-- One partition: its directory entry (R95) and its slots. -/
structure Part where
  number : Nat
  code8  : Bool
  first  : Nat
  tile   : Nat := 0          -- CODE_TILE
  offset : Nat := 0          -- byte offset of slot 0 from the start of CODE_TILE's payload (R96)
  slots  : List Slot
deriving DecidableEq, Repr

/-- One graph node record (R98); its number is its position in the version's node list. -/
structure Node where
  part  : Nat
  repId : Nat
  nbrs  : List Nat
  rep   : Bytes
deriving DecidableEq, Repr

/-- A version's state at this place (R113); an ABSENT version is not listed. -/
inductive VState where
  | mounting | mounted | current | retiring
deriving DecidableEq, Repr

/-- A run of tiles of a manifest (R114). -/
structure Extent where
  first  : Nat
  count  : Nat
  source : Nat
  addr   : Nat
deriving DecidableEq, Repr

/-- One version of an index at this place. `parts` and `nodes` are its tiles' contents, filled when the tiles are
placed; `dels` is the deletion map of R104, (ordinal, lowest cairn). -/
structure Version where
  root    : Root
  state   : VState
  tiles   : List (Nat × Bytes) := []  -- tiles held, by number (header and payload)
  parts   : List Part := []
  nodes   : List Node := []
  dels    : List (Nat × Nat) := []
  extents : List Extent := []
  shards  : List Nat := []            -- every shard of the version, rope-wide (R129)
  cmd     : Option Nat := none        -- the mount or consolidation that is bringing it in, when it was admitted here
  fromPlace : Nat := 0                -- the place that asked for it, and its number for the command
  tag     : Nat := 0
  waiting : List Nat := []            -- places that have not reported ready
  built   : Bool := false             -- made by CONSOLIDATE
  busy    : Bool := false             -- its mount or consolidation has not ended, as far as this place knows
  base    : Nat := 0                  -- the version it consolidates (R240)
deriving DecidableEq, Repr

/-- A side-list entry of this place (R102). Its cairn is absent until the change is recorded (R229); `tag` names the
change it belongs to, as (coordinator place, tag). -/
structure SideEntry where
  number : Nat
  vid   : Nat
  cairn : Option Nat
  code  : List Nat
  vec   : Bytes
  attr  : Bytes
  page  : Nat                 -- log page that holds it
  tag   : Nat × Nat
deriving DecidableEq, Repr

/-- A tombstone of this place (R103). -/
structure Tombstone where
  vid   : Nat
  cairn : Option Nat
  page  : Nat
  tag   : Nat × Nat
deriving DecidableEq, Repr

/-- A cairn the keeper assigned and has not yet seen confirmed or void (R106). -/
structure OpenCairn where
  cairn : Nat
  place : Nat
  tag   : Nat
deriving DecidableEq, Repr

/-- A log page being gathered (R230): when its first record arrived, and the bytes it holds. -/
structure LogPage where
  number : Nat
  since  : Nat
  bytes  : Nat
  programmed : Bool := false
  held   : List Nat := []      -- peers that replied that they hold it whole
deriving DecidableEq, Repr

/-- A change whose records an owner holds and has not yet reported durable (R229 step 2). -/
structure OwnerGroup where
  fromPlace : Nat
  tag       : Nat
  page      : Nat
  count     : Nat
deriving DecidableEq, Repr

/-- A switch or retirement at the keeper (R116, R118): waiting, or begun and awaiting the places that have not said whether
they can apply it (`checking`), or have not applied it. `expect` and `first` are the EXPECT and FIRST of R116. -/
structure SwitchRun where
  cmd : Option Nat             -- the command, when it was admitted here
  fromPlace : Nat              -- the place that asks, and its number for the command
  tag : Nat
  index : Nat
  version : Nat
  retire : Bool
  expect : Nat := 0
  first : Bool := false
  deadline : Option Nat := none
  checking : Bool := false
  waiting : List Nat := []
  cairn : Nat := 0
deriving DecidableEq, Repr

/-- One of the sixteen indexes (R119), at this module. -/
structure Index where
  versions  : List Version := []
  high      : Nat := 0
  codebook4 : Bytes := []
  codebook8 : Bytes := []
  keeper    : Nat := 0
  owners    : List Nat := []          -- the places among which vector IDs have their owners, from the first mount (R228)
  assigned  : Nat := 0                -- as keeper
  opened    : List OpenCairn := []    -- as keeper
  voids     : List Nat := []          -- void cairns above the visible cairn or still to be told (R107, R233)
  untold    : List Nat := []          -- voided since the last visible-cairn message
  visible   : Nat := 0                -- as keeper
  localVc   : Nat := 0
  voided    : Nat := 0                -- VOIDED
  lastSend  : Option Nat := none      -- reading of the last visible-cairn message
  side      : List SideEntry := []
  nextEntry : Nat := 0                -- number of the next side-list entry
  tombs     : List Tombstone := []
  deletes   : List (Nat × Nat) := []  -- deletes recorded at this place, of IDs owned anywhere: vector ID and cairn (R104, R229)
  logPages  : List LogPage := []
  nextPage  : Nat := 0
  groups    : List OwnerGroup := []
  sentVc    : Nat := 0                -- the visible cairn of the last message
  owed      : List Nat := []          -- cairns that this place's updates left void and the keeper is still to be told (R233)
  asks      : List SwitchRun := []    -- switches and retirements waiting at the keeper, oldest first (R116, R118)
deriving DecidableEq, Repr

/-- The step an update command has reached (R229). -/
inductive UpdStep where
  | durable     -- owners making records durable (steps 1 and 2)
  | cairn       -- keeper asked for a cairn (step 3)
  | record      -- touched places recording (steps 4 and 5)
  | confirm     -- keeper recording the confirmation (step 6)
deriving DecidableEq, Repr

/-- An update command at its coordinator (R229). -/
structure Update where
  cmd     : Nat
  index   : Nat
  kind    : UpdKind
  records : Nat
  ids     : List Nat
  step    : UpdStep
  waiting : List Nat
  owners  : List Nat
  cairn   : Nat
  asked   : Bool := false       -- a keeper elsewhere has been sent the cairn request, and may have granted it
  lost    : Bool := false       -- a place that it touches has no module: it ends PEER_LOST once its owners have answered (R227)
deriving DecidableEq, Repr

/-- A shard's walk and waves in a context (R140, R144). -/
structure ShardRun where
  shard   : Nat
  ranked  : Option (List Nat) := none      -- ranked partition list once the walk has ended
  wave    : Nat := 0
  awaiting : List Nat := []                -- partitions of the wave not yet returned
  returns : List (List Entry) := []
  pool    : List Entry := []
  merged  : Bool := false                  -- the wave's returns have been merged
  full    : Bool := false                  -- the pool held C entries before the wave
  added   : Bool := false                  -- the wave added an entry to the pool
  ended   : Bool := false
deriving DecidableEq, Repr

/-- What a context serves: a query of a search admitted here, or a shard request. -/
inductive CtxWork where
  | admitted (cmd query : Nat)
  | shard (req : ShardReq)
deriving DecidableEq, Repr

/-- A query context (R130, R131). -/
structure Ctx where
  id       : Nat
  die      : Nat
  work     : CtxWork
  index    : Nat
  version  : Nat
  cairn    : Nat
  deadline : Option Nat
  pitch    : Option Nat
  shards   : List ShardRun := []
  sideDone : Bool := true
  side     : List Entry := []
deriving DecidableEq, Repr

/-- One query of a search at the admitting module. -/
structure QueryRun where
  vector   : List (BitVec 16)
  lists    : List (List Entry) := []       -- shard pools and side pools returned so far
  pool     : Option (List Entry) := none   -- after the pool merge
  filtered : Bool := false                 -- step 3 of R146 removed an entry
  refined  : List (List Refined) := []     -- local refinement returns
  places   : List Nat := []                -- places whose side pools are outstanding (R239)
  shards   : List Nat := []                -- shards whose pools are outstanding (R131)
  asked    : Bool := false                 -- refinement requests sent
  result   : Option (Nat × List (Nat × Nat × Nat) × Bool × Bool) := none  -- status, rows, TIE_CUT, FILTER_SHORT
deriving DecidableEq, Repr

/-- A search command at the admitting module (R131 to R147). -/
structure Search where
  cmd     : Nat
  index   : Nat
  version : Nat
  cairn   : Nat
  dim     : Nat := 0                       -- DIM of the query header (R123)
  k       : Nat
  width   : Nat
  waves   : Nat
  refine  : Nat
  encode  : Bool
  encJob  : Nat
  noSkip  : Bool
  terms   : List Term
  postings : Option (List Nat)             -- IDs that appear in every named list (R125)
  queries : List QueryRun
  ctxs    : List Nat := []                 -- one context per query, once bound
  table   : Nat := 0                       -- posting table, version and rows (R125)
  tversion : Nat := 0
  rows    : List Nat := []
  asked   : List (Nat × Nat) := []         -- posting rows asked of other places: row and place
  fetched : List (Nat × Bytes) := []       -- posting rows that have come from other places
  input   : Nat × Nat := (0, 0)            -- the encoder input's place in the payload
  bound   : Bool := false
  parked  : Bool := true                   -- not yet bound, it waits for a cairn or for posting rows, not for a context (R130)
  requested : Bool := false                -- shard requests sent
deriving DecidableEq, Repr

/-- The query pipeline: what both QPL pages share and the contexts of both dies. -/
structure Qpl where
  running  : Bool := false                 -- pitches exist (R134)
  closed   : Nat := 0                      -- pitches closed since ORIGIN: the next to close
  ctxs     : List Ctx := []
  searches : List Search := []
  nextCtx  : Nat := 0
  purging  : List Nat := []                -- lanes PURGING (R138)
  requests : List (ShardReq × Nat) := []   -- shard requests waiting for a context or a lane, with their arrival
deriving DecidableEq, Repr

/-- Where a partition's code tiles lie in DRAM: one segment (chapter 06). -/
structure Segment where
  stack : Nat
  unit  : Nat
  bank  : Nat           -- bank within the die
  row   : Nat
  byte  : Nat           -- byte of the first code in that row
  size  : Nat           -- bytes of a code, C
  slot  : Nat           -- first slot
  count : Nat
deriving DecidableEq, Repr

/-- A partition held in DRAM. -/
structure DramPart where
  index : Nat
  version : Nat
  part : Nat
  segments : List Segment
  withdrawn : Bool := false
deriving DecidableEq, Repr

/-- A code tile of an index version that lies in the DRAM tier: its two consecutive rows of one bank (R157, R170). -/
structure DramTile where
  index   : Nat
  version : Nat
  tile    : Nat
  stack   : Nat
  unit    : Nat
  bank    : Nat
  row     : Nat
deriving DecidableEq, Repr

/-- The states of a sweep in a unit (R169); `queued` waits in the stack's queue. -/
inductive SweepState where
  | queued | loaded | stepping | yielded | returning
deriving DecidableEq, Repr

/-- A sweep (R160 to R169). -/
structure Sweep where
  id      : Nat
  stack   : Nat
  unit    : Nat
  seg     : Segment
  ctx     : Nat
  part    : Nat
  keep    : Nat
  table   : List Nat
  deadline : Option Nat
  state   : SweepState
  step    : Nat := 0               -- steps done, at the last column-group boundary it stopped at
  waited  : Bool := false          -- waited for a token
  serve   : Nat := 0               -- requests to serve in the running yield (R172)
  closed  : Bool := false          -- a refresh or scrub closed the sweep row (R174)
  yieldAt : Option Nat := none     -- the step before which it is to yield to a request that waits at its pair (R172, R173)
deriving DecidableEq, Repr

/-- A row of a stack that holds DRAM contents this model keeps byte by byte: (die, bank, row) and its 8 KiB. -/
structure DramRow where
  die : Nat
  bank : Nat
  row : Nat
  data : Memory
deriving DecidableEq, Repr

/-- One stack: its controller and its units. -/
structure Stack where
  sweeps  : List Sweep := []
  rows    : List DramRow := []
  fenced  : List Nat := []                     -- units (R176)
  waiting : List DramReq := []                 -- requests waiting at swept pairs (R172)
  scrubbed : Nat := 0                          -- rows that the running patrol scrub pass has visited (R174)
  scrubFrom : Nat := 0                         -- reading at which that pass may begin
deriving DecidableEq, Repr

/-- What a channel work item does. -/
inductive ItemWork where
  | refine (item : RefineItem)
  | cold (item : ColdItem)
deriving DecidableEq, Repr

/-- How far an item has come. -/
inductive ItemState where
  | waiting | reading | returning
deriving DecidableEq, Repr

/-- A work item in an engine's item store (R185). -/
structure Item where
  id       : Nat
  work     : ItemWork
  channel  : Nat               -- the channel it is addressed to
  deadline : Option Nat
  state    : ItemState
  issued   : Nat := 0          -- reading at which its read was issued (R196)
  limit    : Nat := 0          -- READ_LIMIT in µs as it stood then (R203)
  refined  : List Refined := []
  entries  : List Entry := []
deriving DecidableEq, Repr

/-- A page of flash: its home channel, and its stripe row and the bay it was written on (R183, R390). -/
structure FlashPage where
  channel : Nat
  zone    : Nat
  row     : Nat
  bay     : Nat
deriving DecidableEq, Repr

/-- What an item of class 2 or 4 does (R185): reads a tile into the DRAM tier (there a code tile that it stages: index, version,
tile), moves a block under refresh or rewrite, erases one (for SECURE_DISCARD where `secure`), or takes its engine's part in a
rebuild. -/
inductive SlowWork where
  | tile (page : FlashPage) (stages : Option (Nat × Nat × Nat))
  | move (block : BlockRef)
  | erase (block : BlockRef) (secure : Bool)
  | rebuild
deriving DecidableEq, Repr

/-- An item of class 2 or 4; `served` once it has been given channel time and while what it began goes on. -/
structure SlowItem where
  work   : SlowWork
  served : Bool := false
deriving DecidableEq, Repr

/-- Whose part of the query pipeline consumes a result: the merge of a shard with a partition of a context, or the final selection
of a query (R188). -/
inductive Consumer where
  | merge (ctx part : Nat)
  | final (cmd query : Nat)
deriving DecidableEq, Repr

/-- A result that an engine has sent: the QPL page whose return credits it took, how many, and who consumes it (R188). -/
structure Lent where
  qpl     : Nat
  credits : Nat
  reader  : Consumer
deriving DecidableEq, Repr

/-- One channel engine (R182 to R188). -/
structure Engine where
  items   : List Item := []
  held    : List Item := []            -- items kept at senders that hold no credit (R187)
  credits : Nat × Nat := (96, 96)
  lent    : List Lent := []            -- results sent and, as far as they are not yet consumed, their return credits (R188)
  adrift  : List Item := []            -- dropped items whose reads in flight have yet to complete (R198)
  slow    : List SlowItem := []        -- items of classes 2 and 4 in the store, in order of arrival (R185, R186)
  kept    : List SlowItem := []        -- those kept at their senders, which hold no credit (R187)
  used    : Sparse Nat := []           -- channel time used in the window, per class
  window  : Nat := 0                   -- window number
  shares  : BitVec 64 := 0x04208410#64 -- SHARE in force in this window (R203)
deriving DecidableEq, Repr

/-- A selection operation (R204). -/
inductive OpWork where
  | topkRow (cmd row : Nat)
  | poolMerge (cmd query : Nat)
  | shardMerge (ctx : Nat) (shard : Option Nat)
  | final (cmd query : Nat)
  | route (job : Nat) (thread : ThreadRef) (block : Bytes) (ctr : Nat)
deriving DecidableEq, Repr

/-- An operation waiting for a slot or in one (R205). -/
structure SluOp where
  id : Nat
  work : OpWork
  die : Nat
  deadline : Option Nat
  unit : Option Nat            -- the SLU page whose slot holds it
deriving DecidableEq, Repr

/-- A TOPK command at work: its rows, the next row to start, rows done, TIE_CUT so far. -/
structure Topk where
  cmd  : Nat
  rows : Nat
  next : Nat := 0
  done : Nat := 0
  tie  : Bool := false
deriving DecidableEq, Repr

end Sys2Proof.Machine
end

