-- ==== Sys2Proof/Machine/StateStore.lean ====
section
/-! DEFINITION. State of the storage side: flash and cartridges (chapter 15), the tiers, context state and the shared
pool (14), tables and placement (13). -/

namespace Sys2Proof.Machine

/-! ## Flash -/

/-- What a flash page to be programmed holds. -/
inductive WriteWhat where
  | logPage (index number : Nat)                    -- side-list and tombstone logs (R230)
  | scatter (table page : Nat)                      -- tentative scatter records (R334)
  | home (zone tile : Nat)                          -- a home copy in a zone (R398)
  | stateTile (object layer cmd tile : Nat)         -- R366: written through for a STATE_PUSH
  | stateBack (object layer gen tile : Nat)         -- written back (R360)
  | poolPage (region version page : Nat)            -- R377: for a publish with DURABLE
  | poolBack (region version page : Nat)            -- written back; the version that published it (R360)
  | fold (table version : Nat) (rows : List Nat)    -- a row tile of a folded version, and the rows owned here in it (R322, R333)
  | copy (place page : Nat)                         -- a rope-level log copy held whole (R441)
deriving DecidableEq, Repr

/-- A page that waits to be programmed. -/
structure FlashWrite where
  what : WriteWhat
  data : Bytes
deriving DecidableEq, Repr

/-- A program in progress on a LUN; `failed` waits for its block to be retired (R404). -/
structure Program where
  lun    : LunRef
  page   : Nat
  zone   : Nat
  write  : FlashWrite
  failed : Bool := false
  sent   : Bool := false           -- the engine has given it channel time (R186)
deriving DecidableEq, Repr

/-- One member of a stripe row: the bay it was written on, the bay that holds it now, what it is (none: parity), its bytes as
programmed, and the bay of its journal copy until the row's P and Q are programmed (R392). -/
structure Member where
  bay  : Nat
  now  : Nat
  what : Option WriteWhat
  data : Bytes
  lost : Bool := false             -- its bay's cartridge was formatted
  journal : Option Nat := none
deriving DecidableEq, Repr

/-- A stripe row (R390): row `row` of a zone. -/
structure StripeRow where
  zone    : Nat
  row     : Nat
  absent  : List Nat               -- bays absent when it was opened
  members : List Member
  parity  : Bool := false          -- P and Q are programmed
deriving DecidableEq, Repr

/-- The states of a zone; a FREE zone is not listed (R397). -/
inductive ZoneState where
  | opened | sealed
deriving DecidableEq, Repr

/-- Whose tiles a zone holds. -/
inductive ZoneOwner where
  | index | table | job
deriving DecidableEq, Repr

/-- A zone (R397), or a log zone (R401). -/
structure Zone where
  number  : Nat
  owner   : ZoneOwner := .index
  log     : Bool := false
  st      : ZoneState := .opened
  kind    : Nat := 0
  object  : Nat := 0
  version : Nat := 0
  first   : Nat := 0
  cap     : Nat := 57344
  tiles   : List Bytes := []
  durable : Nat := 0                -- tiles programmed
  filled  : Bool := false           -- the write that fills it has given it all its tiles
  place   : Option BlockRef := none -- its block on the first channel programmed
deriving DecidableEq, Repr

/-- A bay and its cartridge (R409, R410). -/
structure Bay where
  st       : Nat := 0               -- BSTATE of R416
  present  : Bool := false
  rail     : Bool := false
  attn     : Bool := false
  serial   : Nat := 0
  capacity : Nat := 0
  targets  : Nat := 0
  luns     : Nat := 0
  suspend  : Bool := false
  peRated  : Nat := 0
  bound    : Nat := 0
  gen      : Nat := 0
  emptyAt  : Option Nat := none     -- reading at which it became EMPTY while holding members
  format   : Bool := false          -- formatting after ADMIT or AUTO_FORMAT
  fresh    : Bool := false          -- newly formatted, with members to be moved back to it (R396)
  refused  : Option Nat := none     -- reading at which a drain was last refused (R529)
deriving DecidableEq, Repr

/-- The flash translation layer. -/
structure Ftl where
  zones    : List Zone := []
  rows     : List StripeRow := []
  writes   : List FlashWrite := []
  programs : List Program := []
  reads    : List (BlockRef × Nat) := []
  rewrites : List BlockRef := []
  bad      : List (BlockRef × Nat × Nat) := []   -- codewords that stayed uncorrectable: block, page in it, codeword (R195)
  remap    : List (BlockRef × BlockRef) := []    -- blocks of zones that lie elsewhere since they were moved (R199, R402)
  retired  : List BlockRef := []
  erases   : List (BlockRef × Nat) := []    -- erases of a block since its cartridge was formatted
  bayTable : Sparse (Nat × Nat) := []       -- per bay + 1: SERIAL and GEN (R409); (0, 0) where no entry
  entries  : List Nat := []                 -- bays that have an entry
  gen      : Nat := 0                       -- highest GEN written
  nextZone : Nat := 0
  held     : List Bytes := []               -- zone records held while ZLOG_BASE is 0 (R413)
  rebuild  : Option (Nat × Bool) := none    -- bay being rebuilt; true: MOVING under R396
  stopped  : Bool := false                  -- writing has stopped (R391)
  gone     : List LostPage := []            -- pages of a place that its stand-in could not decode (R445)
deriving DecidableEq, Repr

/-! ## Tiers, context state and the pool -/

/-- Where an item of the DRAM tier lies: its stack, its mirror, dirty or clean, lost (R360, R371). -/
structure Tier where
  stack  : Nat
  mirror : Option Nat := none
  dirty  : Bool := true
  lost   : Bool := false
deriving DecidableEq, Repr

/-- A tile that the DRAM tier may hold a clean copy of (R359, R361): of an index version, of a table, as the version that wrote it, of
a generation of a state layer, and of an entry of a job's weight tiles. -/
inductive CacheKey where
  | index (index version tile : Nat)
  | row (table version tile : Nat)
  | state (object layer gen tile : Nat)
  | weight (job entry tile : Nat)
deriving DecidableEq, Repr

/-- A clean copy in the DRAM tier, and the reading at which it was last used (R361). -/
structure Cached where
  key  : CacheKey
  used : Nat
deriving DecidableEq, Repr

/-- A pool page: its number in the region, its 16 KiB, and the version that published it. -/
structure PoolPage where
  page : Nat
  data : Memory
  tier : Tier
  version : Nat := 0
deriving DecidableEq, Repr

/-- A lease (R375): its ID, its holder (none: the driver), its writer LD, when it ends. -/
structure Lease where
  id     : Nat
  holder : Option Nat
  writer : Option Nat
  ends   : Nat
  lostWc : Bool := false            -- WC_LOST
deriving DecidableEq, Repr

/-- A region of the shared pool (R374). -/
structure Region where
  number  : Nat
  pages   : Nat
  current : Nat := 1
  durable : Nat := 1
  map     : List PoolPage := []      -- pages of CURRENT; a page not listed is all zero
  wc      : List PoolPage := []      -- the working copy
  lease   : Option Lease := none
  saved   : List PoolPage := []      -- pages of the version DURABLE names, on flash
deriving DecidableEq, Repr

/-- A POOL_PUBLISH with DURABLE that waits for its pages (R377). -/
structure PublishRun where
  cmd : Nat
  region : Nat
  release : Bool
  left : List Nat                   -- pages not yet programmed
deriving DecidableEq, Repr

/-- A state tile of a pushed layer. -/
structure StateTile where
  data : Bytes
  tier : Tier
deriving DecidableEq, Repr

/-- A pushed layer of a state object (R365, R366). -/
structure Layer where
  object : Nat
  layer  : Nat
  gen    : Nat
  prio   : Nat
  tiles  : List StateTile
  saved  : Option (Nat × Nat × List Bytes) := none   -- last written-back generation that this one replaced: gen, prio, tiles
  push   : Option Nat := none                        -- the STATE_PUSH that wrote its tiles through to flash
deriving DecidableEq, Repr

/-- A STATE_PUSH that waits for its tiles to be programmed. -/
structure PushRun where
  cmd : Nat
  layer : Layer
  left : List Nat
  through : Bool := false           -- the DRAM tier is short, and the tiles are on flash alone (R362)
deriving DecidableEq, Repr

/-- A SECURE_DISCARD at work: it ends with its erases (R407). -/
structure DiscardRun where
  cmd : Nat
  count : Nat
  blocks : List BlockRef := []      -- the blocks that it erases
deriving DecidableEq, Repr

/-- The stack roles of R370 and the failed stack that S8 stands in for; roles 0 ACTIVE, 1 SPARE, 2 REBUILDING,
3 FAILED. -/
structure Roles where
  failed : List Nat := []
  spare  : Nat := 1
  standFor : Option Nat := none
deriving DecidableEq, Repr

/-! ## Tables -/

/-- One version of a table at this place: its rows that are not all zero. -/
structure TblVersion where
  version : Nat
  rows    : List (Nat × Bytes) := []
deriving DecidableEq, Repr

/-- A scatter record held at this place (R332, R334). -/
structure PendRec where
  step : Nat
  item : ScatterRec
  fromPlace : Nat
  tag  : Nat
  committed : Bool := false
  durable : Bool := false
deriving DecidableEq, Repr

/-- Tentative records of one scatter at this place that are not yet durable (R334 step 2): the log pages that hold them
and are not programmed, and those that a parity place does not yet hold. -/
structure TentGroup where
  step       : Nat
  fromPlace  : Nat
  tag        : Nat
  blocks     : List Nat
  pages      : List Nat
  await      : List (Nat × Nat)      -- page, parity place
deriving DecidableEq, Repr

/-- A table (R321, R324). -/
structure Table where
  number   : Nat
  efmt     : Nat
  prio     : Nat
  retain   : Nat
  rows     : Nat
  rowBytes : Nat
  keeper   : Nat
  current  : Nat := 1
  sealing  : Bool := false          -- CURRENT + 1 is SEALED
  dropping : Bool := false
  versions : List TblVersion := []
  pending  : List PendRec := []
  groups   : List TentGroup := []
  folded   : Option Nat := none     -- records folded for the SEALED version, once folded here
  sealFor  : Option (Nat × Nat) := none     -- keeper place and number to answer when folded
  dropFor  : Option (Nat × Nat) := none     -- the same, when freed
  defineFor : Option (Nat × Nat) := none    -- the same, when its home copies are sealed
  held     : List (Nat × Nat × Nat) := []   -- prefetched rows: row, version, reading (R330)
  owners   : List Nat := []                 -- the rope's places when it was defined: its row blocks lie there first (R342)
  extents  : List Extent := []              -- extents of its definition (R322)
  unbound  : List (Nat × Nat) := []         -- versions beyond RETAIN and places at which no command is bound to them (R325)
  passed   : List (Nat × Nat × Nat) := []   -- scatters whose records were forwarded from here: origin, its number, place (R345)
deriving DecidableEq, Repr

/-- A gather or prefetch at its admitting module (R326 to R330). -/
structure Gather where
  cmd      : Nat
  table    : Nat
  version  : Nat
  prefetch : Bool
  rows     : List Nat
  stride   : Nat
  left     : List Nat                -- row numbers whose bytes have not come
  staged   : Nat := 0
  failed   : Nat := 0                -- the first status of R329 that some row has given; 0: none
deriving DecidableEq, Repr

/-- A scatter at its origin (R331 to R334). -/
structure Scatter where
  cmd     : Nat
  table   : Nat
  step    : Nat
  records : Nat
  owners  : List Nat                 -- places that hold its records or have been sent them
  left    : List Nat                 -- row blocks whose owner has not replied
  moved   : List (Nat × Nat) := []   -- forwarded row blocks and their owners (R337)
  movedMap : Nat := 0                -- MAP_VERSION at the place that forwarded
  failed   : Nat := 0                -- the first status of R336 that some owner has given; 0: none
deriving DecidableEq, Repr

/-- The three actions of TBL_SWITCH. -/
inductive TblAction where
  | publish | define | drop
deriving DecidableEq, Repr

/-- A TBL_SWITCH at its keeper, or a DEFINE at its admitting module (R338 to R341). -/
structure TblSwitch where
  id        : Nat
  cmd       : Option Nat             -- the command, when it was admitted here
  fromPlace : Nat                    -- the place that asks, and its number for the command
  tag       : Nat
  table     : Nat
  action    : TblAction
  expect    : Nat
  deadline  : Option Nat := none
  begun     : Bool := false
  left      : List Nat := []         -- places that have not replied to the present step
  folded    : Nat := 0
  data      : Bytes := []            -- DEFINE: the payload and its tiles
  swap      : Bool := false          -- PUBLISH: every place has folded and the swap has been sent
  lost      : Bool := false          -- PUBLISH: a place has left the rope before it swapped (R340)
deriving DecidableEq, Repr

/-! ## Placement -/

/-- The phases of a migration (R344). -/
inductive MigPhase where
  | copy | catchUp | cutover | retire
deriving DecidableEq, Repr

/-- A migration in which this place is source or destination (R344). -/
structure Migration where
  item   : ItemRef
  source : Nat
  dest   : Nat
  phase  : MigPhase := .copy
  held   : List (ForwardReq × Nat) := []   -- requests held in CUTOVER, with their arrival
deriving DecidableEq, Repr

/-- A placement query's answer (R358). -/
structure Query where
  result : Nat := 0
  load   : Nat := 0
deriving DecidableEq, Repr

/-- The placement engine at this module. -/
structure Plc where
  blockMap   : List ((Nat × Nat) × Nat) := []   -- (table, row block) to place, where it differs from the first placement
  moves      : List Migration := []
  counts     : List (ItemRef × Nat) := []       -- work counted in the running window (R343)
  last       : List (ItemRef × Nat) := []       -- work of the last complete window
  windowAt   : Option Nat := none               -- start of the running window
  replicas   : List (Nat × Nat) := []           -- row blocks replicated here: table, block
  copies     : List ((Nat × Nat) × Nat) := []   -- replicas of row blocks owned here: table, block, place
  startOver  : Bool := false                    -- every place had reported ready when the running window began (R349)
  started    : Bool := false                    -- START has ended
  far        : List (Nat × ItemRef × Nat × Nat) := []   -- what other places told: place, item, its work in the last window, replicas
  phase      : Nat := 1                         -- PLC.PHASE as last shown
deriving DecidableEq, Repr

end Sys2Proof.Machine
end

