-- ==== Sys2Proof/Machine/StateMsg.lean ====
section
/-! DEFINITION. Messages the module sends, as the rest of the model records them, and the block's outputs. -/

namespace Sys2Proof.Machine

/-- Where a message goes: a place of the rope, a session's peer, an endpoint that
sent an OPEN message for a session, a module by its ID, or every member. -/
inductive Dest where
  | place (p : Nat)
  | session (n : Nat)
  | peer (n endpoint : Nat)
  | module (m : Nat)
  | all
deriving DecidableEq, Repr

/-- What a message is. -/
inductive MsgKind where
  | reply            -- a command's completion record and results (R430)
  | shardRequest | shardReply | refineRequest
  | ownerRecords | ownerReply | cairnRequest | cairnGrant | cairnRecord | cairnRecorded | confirm | confirmed
  | voidCairn | visibleCairn | logCopy | logCopyHeld
  | mountStart | mountReady | mountEnd | sideReport | switchCheck | switchApply | switchApplied | retireApply | switchAsk
  | tableRows | tableRequest | tentative | tentativeHeld | commit | committed | tableSwitch | tableSwitched | replicaRows
  | migrateCopy | mapUpdate | forwarded
  | stateTiles | parity
  | challenge | opened | refused | proveReply | close | ack | dup
  | beat | membership | fenceNotice | joinRequest | joinReply | leaveNotice | retireAsk | declare
  | proxy | proxyReply | telemetry | standin
  | refineReply | mapAck | commitTentative | discardTentative | noticeAsk
  | tableUnbound | placement
deriving DecidableEq, Repr

/-- What a message carries beside its numbers and bytes. -/
inductive MsgBody where
  | none
  | shard (req : ShardReq)
  | answer (reply : ShardReply)
  | cands (l : List Entry)
  | owner (m : OwnerMsg)
  | cairn (m : CairnMsg)
  | members (m : Membership)
  | refined (l : List Refined)
  | records (l : List ScatterRec)
  | item (i : ItemRef)
  | forward (r : ForwardReq)
  | copy (c : ItemCopy)
deriving DecidableEq, Repr

/-- A message the module sends: destination, traffic class, kind, numbers, bytes. -/
structure OutMsg where
  toward   : Dest
  cls  : Nat
  kind : MsgKind
  args : List Nat := []
  data : Bytes := []
  body : MsgBody := .none
  deadline : Option Nat := none    -- of the request that it serves (R434, R435)
deriving DecidableEq, Repr

/-- An entry of an egress queue (R453, queues 64 to 73), with the bytes of its message's body. -/
structure EgressEntry where
  queue   : Nat
  bytes   : Bytes
  arrived : Nat
  msg     : OutMsg
deriving DecidableEq, Repr

/-- The block's outputs: the last register value read, UCIe interrupt messages sent, messages handed to the transport
(oldest first), messages to a role of this same module, and the bits or bytes the service interfaces returned. -/
structure Outputs where
  readData   : BitVec 64 := 0
  interrupts : Nat := 0
  sent       : List OutMsg := []
  self       : List OutMsg := []
  smbus      : Option Bytes := none
  tdo        : Bits := []
  notices    : List Bytes := []
  cxl        : Option Bytes := none
  dram       : Bytes := []            -- the bytes of the last controller read
deriving DecidableEq, Repr

end Sys2Proof.Machine
end

