-- ==== Sys2Proof/Machine/StateRope.lean ====
section
/-! DEFINITION. State of the fabric side: the link layer and the transport (chapter 16), the rope (16 and 19), health
(19). -/

namespace Sys2Proof.Machine

/-! ## The rope -/

/-- An entry of the member table (R515). -/
structure RopeMember where
  id     : Nat
  place  : Nat
  spare  : Bool
  joined : Bool := false
  lost   : Bool := false
deriving DecidableEq, Repr

/-- What this module has heard of another (R437): the reading of its latest beat and the HEARD map that it carried; the
spare is kept under place 63. -/
structure Heard where
  place : Nat
  at_   : Nat
  map   : Nat
deriving DecidableEq, Repr

/-- A rope stripe's parity pages held here (R441). -/
structure RopeParity where
  stripe : Nat
  p      : Bytes
  q      : Bytes
deriving DecidableEq, Repr

/-- The rope as this module knows it (R436 to R445, R505 to R508). -/
structure Rope where
  jstate    : Nat := 0                     -- JSTATE of R515
  members   : List RopeMember := []        -- the member table in force
  epoch     : Nat := 0
  leadId    : Nat := 0
  ropeId    : Nat := 0
  heard     : List Heard := []
  notReady  : List Nat := []               -- places whose stand-in has not reported ready, or that have no module
  departed  : List Nat := []               -- places whose module left while some place had none that serves it (R108)
  standin   : Nat := 0                     -- STANDIN of R515
  claimed   : Nat := 0
  declaredAt : Option Nat := none          -- reading of the declaration the stand-in answers
  stored    : Option (Nat × Nat) := none   -- stored rope ID and place; place 63 for the spare
  key       : Bytes := []                  -- the rope key, in the key store (R505)
  formAt    : Option Nat := none           -- reading of the JOIN that started a formation
  leadBeat  : Option (Nat × Nat) := none   -- the lead's BEAT_PERIOD and BEAT_MISS, at a member
  lastBeat  : Option Nat := none           -- reading of the last beat sent
  parity    : List RopeParity := []
  retireAsked : Bool := false              -- HLT.MODULE.RETIRE_SENT
deriving DecidableEq, Repr

/-! ## The link layer (R417 to R424) -/

/-- A piece of a segment on its way to be a DATA flit: its VC, whether it is the segment's first or last, its payload and
the message whose segment it carries (session and MSG_ID). -/
structure FlitPart where
  vc      : Nat
  som     : Bool
  eom     : Bool
  payload : Bytes
  msg     : Nat × Nat
deriving DecidableEq, Repr

/-- A DATA flit held for replay: its FSEQ, what it carries, and the reading at which it was first sent. -/
structure HeldFlit where
  fseq  : Nat
  part  : FlitPart
  first : Nat
deriving DecidableEq, Repr

/-- One optical port. Sequence numbers count modulo 65,536. -/
structure LinkPort where
  signal   : Nat := 0
  pcs      : Bool := false
  hello    : Bool := false                 -- hellos exchanged
  up       : Bool := false
  lastDown : Nat := 0
  lockAt   : Option Nat := none            -- reading of the hello sent, for the hello limit
  downAt   : Option Nat := none            -- reading of a LAST_DOWN 4, for the retry
  nextSeq  : Nat := 0                      -- FSEQ of the next new flit
  waiting  : List FlitPart := []           -- held for sending, until a credit of their VC
  replay   : List HeldFlit := []           -- unacknowledged flits, oldest first
  progress : Nat := 0                      -- reading of the last acknowledgement progress or replay
  replayed : Bool := false                 -- the oldest flit has been replayed and not acknowledged
  fails    : Nat := 0                      -- failed replays of the oldest flit
  expect   : Nat := 0                      -- FSEQ expected next from the partner
  nakAt    : Option Nat := none            -- reading of the NAK outstanding
  unacked  : Nat := 0                      -- flits received since the last acknowledgement sent
  ackAt    : Option Nat := none            -- reading since which unacknowledged flits are held
  credits  : Sparse Nat := []              -- credits held per VC
  inUse    : Sparse Nat := []              -- receive buffers in use per VC
  assembly : Sparse Bytes := []            -- payload of the segment being received per VC
  sent     : List Bytes := []              -- flits and frames put on the wire, oldest first
deriving DecidableEq, Repr

/-! ## The transport (R426 to R435) -/

/-- A message sent and not yet acknowledged (R430, R435): its destination endpoint, its KIND, its body, its port, and the
segments put on the wire at its last send. -/
structure SentMsg where
  session  : Nat
  msgId    : Nat
  endpoint : Nat
  kind     : Nat
  msg      : OutMsg
  body     : Bytes
  lastSent : Nat
  resends  : Nat := 0
  segs     : Nat := 0
deriving DecidableEq, Repr

/-- A segment that waits in frame mode for FRAME_WIN (R432). -/
structure WaitFrame where
  port     : Nat
  endpoint : Nat
  cls      : Nat
  msg      : Nat × Nat
  counted  : Bool                          -- its message is acknowledged, so it counts in FRAME_WIN
  data     : Bytes
deriving DecidableEq, Repr

/-- A message being reassembled (R427). -/
structure Reasm where
  src     : Nat
  session : Nat
  msgId   : Nat
  kind    : Nat
  cls     : Nat
  len     : Nat
  last    : Option Nat := none             -- number of the segment with LAST
  parts   : List (Nat × Bytes) := []
  at_     : Nat := 0                       -- reading of the last segment's arrival
deriving DecidableEq, Repr

/-- What the module keeps of one session's segments and messages (R429, R430). -/
structure RxSession where
  highest   : Nat := 0                     -- highest NONCE_CTR accepted
  accepted  : List Nat := []               -- those accepted less than 4,096 below it
  discards  : Nat := 0
  delivered : List Nat := []               -- MSG_IDs delivered
  nextMsg   : Nat := 1                     -- MSG_ID of the next message sent
  nextNonce : Nat := 1
deriving DecidableEq, Repr

/-- The transport. -/
structure Transport where
  sent   : List SentMsg := []
  reasm  : List Reasm := []
  rx     : Sparse RxSession := []
  macs   : Sparse Nat := []                -- neighbour table: endpoint to MAC with VALID in bit 48
  frames : List WaitFrame := []
  cut    : List OutMsg := []               -- messages not sent for want of a neighbour entry (R433)
deriving DecidableEq, Repr

/-! ## Health (R511 to R513) -/

/-- The health counts of a page at an evaluation. -/
structure HealthSample where
  page    : Nat                            -- page base
  corr    : Nat
  retry   : Nat
  retrain : Nat
deriving DecidableEq, Repr

/-- What HLT keeps of a page beside its HLT_SCORE: consecutive evaluations below the threshold of its band; whether the
band is forced; whether the action its FAILING band prompts is taken. -/
structure Band where
  below  : Nat := 0
  forced : Bool := false
  taken  : Bool := false
deriving DecidableEq, Repr

/-- The health page's own state: the samples of the last eight evaluations, newest first, and its record of each page. -/
structure Health where
  samples : List (List HealthSample) := []
  bands   : Sparse Band := []
  lastAt  : Nat := 0                       -- reading of the last evaluation
deriving DecidableEq, Repr

end Sys2Proof.Machine
end

