-- ==== Sys2Proof/Machine/StateCore.lean ====
section
/-! DEFINITION. State of the programmable cores: jobs, threads, counters (chapter 10) and matrix cores (chapter 11). -/

namespace Sys2Proof.Machine

/-- A synchronisation counter that differs from its INIT (R261). -/
structure Ctr where
  value    : Nat
  misalign : Bool := false
deriving DecidableEq, Repr

/-- What a thread waits for: a WAIT, an INVGET, or an issue to a full step queue (R257, R292). -/
inductive Waiting where
  | ctr (c n : Nat)
  | inv
  | issue (mxc : Nat) (desc : Bytes) (ctr : Nat)
deriving DecidableEq, Repr

/-- What a thread of a search context does (R237, R259): the control of an admitted query, the walk of a shard, a slice of the
side list, or the collection of the slices' lists. -/
inductive SearchRole where
  | control (query : Nat)
  | walk (shard : Nat)
  | slice (n : Nat)
  | collect (slices : Nat)
deriving DecidableEq, Repr

/-- A thread of a search context that waits for a core (R256, R259). -/
structure SearchStart where
  ctx  : Nat
  die  : Nat
  role : SearchRole
deriving DecidableEq, Repr

/-- A resident thread (R247, R256, R258): of a job, once its state has left its start state, or of a search context. A thread
of a RUNNING job that is neither listed nor ended is in its start state. `job` is the number of the job, 0 to 63, or 64 more
than that of the context (R259); a context's thread has its part in the search, its frame's bytes, and BOUND and INIT of its
core's counters. -/
structure Thread where
  ref     : ThreadRef
  job     : Nat
  role    : Option SearchRole := none
  room    : Nat := 0
  ctrs    : List (Nat × Nat) := []
  pc      : Nat := 0
  s       : List (BitVec 32)
  v       : List (BitVec 128)
  frame   : Memory
  cond    : Nat := 0                -- the condition of the last TAKE, WAIT or INVEND
  parked  : Bool := false
  waiting : Option Waiting := none
  order   : Nat := 0                -- number of the issue it waits in
deriving DecidableEq, Repr

/-- A signal on its way to a counter (R263); `job` as in a thread. -/
structure Signal where
  id     : Nat
  sender : Option ThreadRef
  target : CounterRef
  n      : Nat
  job    : Nat
deriving DecidableEq, Repr

/-- A block move in flight (R249, R253, R271). Once its thread has ended, `after` holds the frame's bytes that it moves. One whose
counter is gone, since its search thread or its job's run has ended, is `quiet`: it signals nothing. -/
structure MoveRun where
  id      : Nat
  thread  : ThreadRef
  job     : Nat
  toFrame : Bool
  addr    : Nat
  place   : MovePlace
  len     : Nat
  ctr     : Nat
  killed  : Bool := false
  after   : Option Bytes := none
  quiet   : Bool := false
deriving DecidableEq, Repr

/-- A tier request in flight (R364). -/
structure TileReq where
  id      : Nat
  thread  : ThreadRef
  job     : Nat
  key     : Bytes
  staging : Nat
  ctr     : Nat
  killed  : Bool := false
  quiet   : Bool := false
deriving DecidableEq, Repr

/-- An invocation of a service job, queued or held (R270). -/
structure Invocation where
  number   : Nat
  cmd      : Option Nat             -- the JOB_RUN, or none for an encoder's
  search   : Option Nat := none     -- the search that encodes
  input    : Bytes
  deadline : Option Nat
  slot     : Option Nat := none     -- its buffer slot while held
  taken    : Bool := false          -- an INVGET has taken it
  ended    : Bool := false          -- its command has ended before its INVEND
deriving DecidableEq, Repr

/-- The states of a job (R273); an ABSENT job is not listed. -/
inductive JobState where
  | loading | loaded | running | stopping
deriving DecidableEq, Repr

/-- An entry of a weight-tile schedule, or a resident extent (R299). -/
structure SchedEntry where
  layer   : Nat
  mxc     : Nat
  granule : Nat
  tiles   : Nat
  source  : Nat
  addr    : Nat
  waitCtr : Nat
  waitEn  : Bool
  waitN   : Nat
  sigCtr  : Nat
  sigEn   : Bool
deriving DecidableEq, Repr

/-- What the 64 KiB code store of a cluster holds (R254, R255): nothing, the search firmware of the firmware image that start-up
verifies, or the code section of a job. -/
inductive CodeStore where
  | empty
  | firmware
  | job (code : Bytes)
deriving DecidableEq, Repr

/-- A job (R267, R273). -/
structure Job where
  st       : JobState
  service  : Bool
  rope     : Bool
  determ   : Bool
  threads  : Nat
  realign  : Nat
  frame    : Nat
  invMax   : Nat
  invIn    : Nat
  invOut   : Nat
  codeLen  : Nat
  code     : Bytes := []               -- the code section
  check    : Nat
  counters : List (Nat × Nat)          -- BOUND and INIT of counters 0 to 47
  clusters : List Nat                  -- bound clusters, in the job's order
  mxcs     : List Nat                  -- bound matrix cores, by index
  ahead    : Nat := 1
  mxRealign : Nat := 0
  mxCounters : List (Nat × Nat) := []
  resident : List SchedEntry := []
  sched    : List SchedEntry := []
  loadCmd  : Option Nat := none
  runCmd   : Option Nat := none
  stopCmd  : Option Nat := none
  unload   : Bool := false
  runs     : Nat := 0
  lastEnd  : Nat := 0
  ended    : List ThreadRef := []      -- threads that have executed END in this run
  payload  : Bytes := []               -- bytes 0x00 to 0x1F of each frame at the start of the run
  queue    : List Invocation := []     -- oldest first, those held first
  nextInv  : Nat := 0
  left     : Bool := false             -- LOADED by the loss of a rope member while a service job ran
deriving DecidableEq, Repr

/-- A step waiting at a matrix core (R289). -/
structure Step where
  thread : ThreadRef
  job    : Nat
  desc   : Bytes
  ctr    : Nat
deriving DecidableEq, Repr

/-- One matrix core (R276): counters that differ from INIT, tiles by their first granule (header and payload), its queue, the
next schedule entry and the schedule entries that the DRAM tier holds for it (R302); the accumulators that its last MATMUL left, and
what the two weight registers of its PEs hold. -/
structure Mxc where
  counters : Sparse Ctr := []
  tiles    : Sparse Bytes := []
  steps    : List Step := []
  next     : Nat := 0                  -- position in the schedule of the core's next entry
  copies   : List Nat := []            -- positions of the entries held in the DRAM tier
  acc      : List (BitVec 32) := []    -- the accumulator store, at most 65,536 binary32 values
  inUse    : List (BitVec 32) := []    -- the weight registers in use, at most one per PE
  spare    : List (BitVec 32) := []    -- the weight registers being loaded
deriving DecidableEq, Repr

/-- A span of staging SRAM that work has written, and the work: a job's number, or 64 more than a context's (R363). -/
structure StagingSpan where
  owner : Nat
  die   : Nat
  addr  : Nat
  len   : Nat
deriving DecidableEq, Repr

/-- The cores of the module. -/
structure Cores where
  jobs     : Sparse (Option Job) := []
  threads  : List Thread := []
  ctrs     : List ((Nat × Nat × Nat) × Ctr) := []    -- (cluster, core, counter), where it differs from INIT
  signals  : List Signal := []
  moves    : List MoveRun := []
  tiles    : List TileReq := []
  mxcs     : Sparse Mxc := []
  staging  : Sparse Memory := []                     -- per compute die
  spans    : List StagingSpan := []                  -- staging SRAM in use, and by what (R363)
  fenced   : Sparse (List Nat) := []                 -- fenced cores per cluster
  stores   : Sparse CodeStore := []                  -- code store per cluster
  starts   : List SearchStart := []                  -- threads of search contexts that wait for a core, oldest first
  last     : List ((Nat × Nat) × Nat) := []          -- the thread that issued last on a (cluster, core)
  order    : Nat := 0                                -- numbers waits
deriving DecidableEq, Repr

end Sys2Proof.Machine
end

