-- ==== Sys2Proof/Machine/StateSec.lean ====
section
/-! DEFINITION. State of tenancy, keys, firmware, attestation, debug and the test access port (chapter 18). -/

namespace Sys2Proof.Machine

/-- A key slot (R475): 0 EMPTY, 1 ARMED, 2 ROPE. -/
structure KeySlot where
  st     : Nat := 0
  key    : Bytes := []
  peer   : Nat := 0
  rights : Nat := 0
  fails  : Nat := 0
deriving DecidableEq, Repr

/-- The firmware of a target: the running image, its pending one, and the fused floor (R483, R484). -/
structure Firmware where
  image   : Bytes := []
  pending : Option Bytes := none
  floor   : Nat := 0
deriving DecidableEq, Repr

/-- Keys, tenancy and debug. -/
structure Sec where
  tenantKey : Bytes := []             -- tenant flash key (R470)
  slots     : Sparse KeySlot := []
  firmware  : Sparse Firmware := []   -- targets 0 to 2
  verifying : Option Bytes := none    -- the image being verified; [] when it could not be read
  challenge : Bytes := []             -- DBG.CHALLENGE
  scrubbing : Bool := false           -- the scrub of R472 (R473)
  view      : List (List Nat) := []   -- tenant view: CNT sums per type of R481
  viewMarks : List (Nat × Nat) := []  -- Q_HWM and Q_DELAY_HWM of queues 0 to 35
  power     : Nat × Nat := (0, 0)     -- package and module power of the view, in W
  lastTel   : Nat := 0                -- reading of the last telemetry notices
deriving DecidableEq, Repr

/-- The test access port (R489). -/
structure Tap where
  ir       : Nat := 0xFF
  bypass   : Bool := false
  boundary : Bits := []
  drives   : Bool := false            -- EXTEST drives the pins
  chain    : Nat := 0
  reset    : Bool := true             -- TRST_n, pulled low, holds the controller
  chains   : List (Nat × Bits) := []  -- contents written by CHAIN_WRITE
deriving DecidableEq, Repr

/-- The durable state that stage RESTORE brings back (R498), as a reset found it. -/
structure Kept where
  tenant    : Nat := 0
  tstate    : Nat := 0
  tenantKey : Bytes := []
  indexes   : Sparse Index := []
  shardMap  : List ((Nat × Nat) × Nat) := []
  tables    : List Table := []
  seqs      : List ((Nat × Nat) × Nat) := []
  regions   : List Region := []
  layers    : List Layer := []
  blockMap  : List ((Nat × Nat) × Nat) := []
  dram      : List DramPart := []          -- partitions in DRAM, after a warm reset
  codeTiles : List DramTile := []          -- code tiles in DRAM, after a warm reset
deriving DecidableEq, Repr

end Sys2Proof.Machine
end

