-- ==== Sys2Proof/Machine/State.lean ====
section
/-! DEFINITION. The state of the block: plain data, holding every register, memory, queue, buffer and mode the spec
gives the module, and the queue of commands waiting. -/

namespace Sys2Proof.Machine

/-- Everything but the command queue. -/
structure Block where
  -- time and start-up
  meter      : Nat := 0
  stage      : Stage := .rails
  resetKind  : ResetKind := .power
  bivouac    : Bool := false
  fatal      : Bool := false              -- a module-fatal error is in force (R510)
  stuck      : Bool := false              -- the module stays in its start-up stage (R494, R495)
  kept       : Option Kept := none        -- durable state not yet restored
  sled       : Sled := {}
  -- registers
  regs       : Sparse (BitVec 64) := []   -- window offset to value, where it is not the reset value
  latches    : Sparse (Option (BitVec 32)) := []   -- upper-half latches (R28)
  injected   : Sparse (BitVec 32) := []   -- armed ERR_INJECT bits per page base (R39)
  resetting  : List PageRef := []         -- pages whose SOFT_RESET has not ended (R35)
  -- host side
  hostMem    : Memory := []
  ports      : Sparse Port := []
  proxies    : Sparse (Option ProxyRun) := []
  cmds       : List Cmd := []
  nextCmd    : Nat := 0
  governor   : Governor := {}
  trf        : Trf := {}
  egress     : List EgressEntry := []
  sessions   : Sparse Session := []
  -- search
  indexes    : Sparse Index := []
  shardMap   : List ((Nat × Nat) × Nat) := []   -- (index, shard) to place, where it differs from the first placement (R342)
  switching  : List SwitchRun := []
  updates    : List Update := []
  qpl        : Qpl := {}
  dramParts  : List DramPart := []
  dramTiles  : List DramTile := []
  stackSet     : Sparse Stack := []
  engines    : Sparse Engine := []
  ops        : List SluOp := []
  topks      : List Topk := []
  -- storage
  ftl        : Ftl := {}
  bays       : Sparse Bay := []
  regions    : List Region := []
  nextLease  : Nat := 1
  publishes  : List PublishRun := []
  layers     : List Layer := []
  cache      : List Cached := []          -- clean copies of flash tiles in the DRAM tier, but for code tiles (R361)
  pushes     : List PushRun := []
  discards   : List DiscardRun := []
  roles      : Roles := {}
  tables     : List Table := []
  gathers    : List Gather := []
  scatters   : List Scatter := []
  tblSwitches : List TblSwitch := []
  seqs       : List ((Nat × Nat) × Nat) := []   -- origin sequences per table and step (R332)
  plc        : Plc := {}
  -- fabric
  rope       : Rope := {}
  links      : Sparse LinkPort := []
  transport  : Transport := {}
  health     : Health := {}
  -- cores, tenancy and debug
  cores      : Cores := {}
  sec        : Sec := {}
  tap        : Tap := {}
  nextId     : Nat := 0                   -- numbers for sweeps, items and operations
  free       : Nat := 0                   -- free values drawn so far (the model's own field, log 4)
  out        : Outputs := {}
deriving DecidableEq, Repr

/-- The machine: the commands waiting, first in, first out, and the block. -/
structure State where
  pending : List Instr := []
  block   : Block := {}
deriving DecidableEq, Repr

/-- Why a command stops the machine. The spec gives every command of the table an effect, so no meaning faults and the
type is empty. -/
inductive Fault where
deriving DecidableEq, Repr

/-- Why a command has no meaning. -/
inductive Refusal where
  /-- Raised by an arm of exec whose command has no meaning yet; safe: the machine stops. -/
  | notModelled (mnemonic : String)
deriving DecidableEq, Repr

/-- The block when a power-up begins: stage RAILS, every page OFF, every register at its reset value, nothing in any
memory, queue or buffer. -/
def State.reset : State := {}

/-- The outcome of a command. -/
abbrev Result := Host.Outcome State Fault Refusal

/-- The state with the block changed, whatever the package does: what a meaning at the sled does. No meaning touches the
queue. -/
def State.onSled (s : State) (f : Block → Block) : State := { s with block := f s.block }

/-- The same for a meaning that needs package power: without it nothing happens (R504, R526). -/
def State.onPowered (s : State) (f : Block → Block) : State := if s.block.sled.power = .on then s.onSled f else s

/-- The same for every other meaning: in bivouac no latch, buffer or memory changes (R488). -/
def State.on (s : State) (f : Block → Block) : State := if s.block.bivouac then s else s.onPowered f

end Sys2Proof.Machine
end

