-- ==== Sys2Proof/Machine/Ops.lean ====
section
/-! DEFINITION. Named operations over the block: registers and their fields, errors, interrupts and counters, page
states, pace levels, time, host memory. -/

namespace Sys2Proof.Machine

/-! ## Bytes -/

/-- The little-endian number held in a byte string (R7). -/
def leNat : Bytes → Nat
  | [] => 0
  | x :: xs => x.toNat + 256 * leNat xs

/-- `n` bytes from offset `off` of a byte string, zeros past its end. -/
def slice (bs : Bytes) (off n : Nat) : Bytes := (bs.drop off).take n

/-- The little-endian number of `n` bytes at offset `off`. -/
def le (bs : Bytes) (off n : Nat) : Nat := leNat (slice bs off n)

/-- Bits [lo + w - 1 : lo] of a number. -/
def nbits (v lo w : Nat) : Nat := v / 2 ^ lo % 2 ^ w

/-- A number as `n` little-endian bytes. -/
def toLe (v : Nat) : Nat → Bytes
  | 0 => []
  | n + 1 => BitVec.ofNat 8 v :: toLe (v / 256) n

/-- Round up to a multiple. -/
def roundUp (x m : Nat) : Nat := (x + m - 1) / m * m

/-- Bytes padded with zeros to a length. -/
def padTo (bs : Bytes) (n : Nat) : Bytes := bs ++ List.replicate (n - bs.length) 0

/-! ## Lists -/

/-- One entry put at the end of a list. -/
abbrev snoc {α : Type} (l : List α) (x : α) : List α := l ++ [x]

/-- Insertion into a list sorted by a strict order; equal keys keep arrival order. -/
def insertBy {α : Type} (lt : α → α → Bool) (x : α) : List α → List α
  | [] => [x]
  | y :: ys => if lt x y then x :: y :: ys else y :: insertBy lt x ys

/-- A stable sort by a strict order. -/
def sortBy {α : Type} (lt : α → α → Bool) : List α → List α
  | [] => []
  | x :: xs => insertBy' lt x (sortBy lt xs)
where
  /-- Insertion before the first entry that is not below `x`. -/
  insertBy' (lt : α → α → Bool) (x : α) : List α → List α
    | [] => [x]
    | y :: ys => if lt y x then y :: insertBy' lt x ys else x :: y :: ys

/-- The first entry with a property and the list without it. -/
def takeFirst {α : Type} (p : α → Bool) : List α → Option (α × List α)
  | [] => none
  | x :: xs => if p x then some (x, xs) else (takeFirst p xs).map (fun r => (r.1, x :: r.2))

/-- Change every entry with a property. -/
def mapIf {α : Type} (p : α → Bool) (f : α → α) (l : List α) : List α := l.map (fun x => if p x then f x else x)

/-- A list strictly ascending under a strict order. -/
def ascending {α : Type} (lt : α → α → Bool) : List α → Bool
  | [] => true
  | [_] => true
  | x :: y :: ys => lt x y && ascending lt (y :: ys)

/-- The least entry under a strict order. -/
def leastBy {α : Type} (lt : α → α → Bool) : List α → Option α
  | [] => none
  | x :: xs => match leastBy lt xs with
    | none => some x
    | some y => if lt y x then some y else some x

/-- A list without repeats, first occurrences kept. -/
def nub {α : Type} [DecidableEq α] : List α → List α
  | [] => []
  | x :: xs => x :: (nub xs).filter (fun y => decide (y ≠ x))

/-- The numbers lo, lo + 1, … of a span of n. -/
def span (lo : Nat) : Nat → List Nat
  | 0 => []
  | n + 1 => lo :: span (lo + 1) n

/-! ## Pages -/

abbrev pGlb : PageRef := ⟨.glb, 0⟩
abbrev pHlk : PageRef := ⟨.hlk, 0⟩
abbrev pSec : PageRef := ⟨.sec, 0⟩
abbrev pPwr : PageRef := ⟨.pwr, 0⟩
abbrev pKwf (n : Nat) : PageRef := ⟨.kwf, n⟩
abbrev pKwt : PageRef := ⟨.kwt, 0⟩
abbrev pTrf : PageRef := ⟨.trf, 0⟩
abbrev pCxp (n : Nat) : PageRef := ⟨.cxp, n⟩
abbrev pMem (n : Nat) : PageRef := ⟨.mem, n⟩
abbrev pPim (n : Nat) : PageRef := ⟨.pim, n⟩
abbrev pFlc (n : Nat) : PageRef := ⟨.flc, n⟩
abbrev pFtl : PageRef := ⟨.ftl, 0⟩
abbrev pBay (n : Nat) : PageRef := ⟨.bay, n⟩
abbrev pScl (n : Nat) : PageRef := ⟨.scl, n⟩
abbrev pMxc (n : Nat) : PageRef := ⟨.mxc, n⟩
abbrev pSlu (n : Nat) : PageRef := ⟨.slu, n⟩
abbrev pQpl (n : Nat) : PageRef := ⟨.qpl, n⟩
abbrev pIdx : PageRef := ⟨.idx, 0⟩
abbrev pTbl : PageRef := ⟨.tbl, 0⟩
abbrev pPlc : PageRef := ⟨.plc, 0⟩
abbrev pRop : PageRef := ⟨.rop, 0⟩
abbrev pHlt : PageRef := ⟨.hlt, 0⟩
abbrev pDbg : PageRef := ⟨.dbg, 0⟩

/-- Every implemented page. -/
def allPages : List PageRef :=
  PageType.all.flatMap (fun t => (List.range t.instances).map (fun i => ⟨t, i⟩))

/-! ## Registers -/

/-- The stored value of the register at a window offset. -/
def Block.reg (b : Block) (a : Nat) : BitVec 64 := sget (resetValue a) b.regs a

/-- The register at a window offset given a value. -/
def Block.setReg (b : Block) (a : Nat) (v : BitVec 64) : Block := { b with regs := sset (resetValue a) b.regs a v }

/-- A field of a page's register. -/
def Block.fld (b : Block) (p : PageRef) (off lo w : Nat) : Nat := bits (b.reg (p.at off)) lo w

/-- A field of a page's register given a value. -/
def Block.setFld (b : Block) (p : PageRef) (off lo w n : Nat) : Block :=
  b.setReg (p.at off) (setBits (b.reg (p.at off)) lo w n)

/-- A whole register of a page given a number. -/
def Block.put (b : Block) (p : PageRef) (off n : Nat) : Block := b.setReg (p.at off) (BitVec.ofNat 64 n)

/-- A whole register of a page, as a number. -/
def Block.get (b : Block) (p : PageRef) (off : Nat) : Nat := (b.reg (p.at off)).toNat

/-- A high-water mark raised to a level (the registers whose write sets the value written). -/
def Block.raiseMark (b : Block) (p : PageRef) (off w level : Nat) : Block :=
  if b.fld p off 0 w < level then b.setFld p off 0 w level else b

/-- Counter n of a page advanced, wrapping at 2^64 (R41). -/
def Block.bump (b : Block) (p : PageRef) (n : Nat) (k : Nat := 1) : Block :=
  b.setReg (p.at (0x40 + 8 * n)) (b.reg (p.at (0x40 + 8 * n)) + BitVec.ofNat 64 k)

/-- A 32-bit counting register advanced, wrapping at 2^32. -/
def Block.bump32 (b : Block) (p : PageRef) (off : Nat) (k : Nat := 1) : Block :=
  b.put p off ((b.get p off + k) % 2 ^ 32)

/-- HLT_CORR, HLT_RETRY or HLT_RETRAIN of a page advanced (R31). -/
def Block.bumpHealth (b : Block) (p : PageRef) (off : Nat) (k : Nat := 1) : Block :=
  b.setReg (p.at off) (b.reg (p.at off) + BitVec.ofNat 64 k)

/-! ## Interrupts and errors -/

/-- INT_STATUS.ERR: some ERR_STATUS bit is set and not masked (R37). -/
def Block.errLive (b : Block) (p : PageRef) : Bool :=
  decide (b.reg (p.at 0x10) &&& ~~~ b.reg (p.at 0x14) ≠ 0)

/-- INT_STATUS as read: the stored causes, ERR, and in HLK the CPL bit (R40, R45). -/
def Block.intStatus (b : Block) (p : PageRef) : BitVec 64 :=
  let v := setBit (b.reg (p.at 0x20)) 0 (b.errLive p)
  if p = pHlk then setBit v 16 (decide (b.reg (p.at 0x120) &&& b.reg (p.at 0x128) ≠ 0)) else v

/-- The page asserts its interrupt (R40). -/
def Block.asserts (b : Block) (p : PageRef) : Bool := decide (b.intStatus p &&& b.reg (p.at 0x24) ≠ 0)

/-- The pages that have an interrupt enabled: those whose INT_ENABLE is not 0. -/
def Block.enabledPages (b : Block) : List PageRef :=
  b.regs.filterMap (fun e => if e.1 % 0x1000 = 0x24 then pageOf e.1 else none)

/-- GLB.INT_SUMMARY: one bit per page type with an asserting instance (R40). -/
def Block.intSummary (b : Block) : BitVec 64 :=
  (b.enabledPages.filter b.asserts).foldl (fun v p => setBit v p.type.code true) 0

/-- While EN and ARMED are 1 and INT_SUMMARY is not 0, one message is sent and ARMED clears (R40). -/
def Block.notify (b : Block) : Block :=
  if b.fld pGlb 0x124 0 2 = 3 ∧ b.intSummary ≠ 0 then
    { b.setFld pGlb 0x124 1 1 0 with out := { b.out with interrupts := b.out.interrupts + 1 } }
  else b

/-- An interrupt cause set. -/
def Block.raiseInt (b : Block) (p : PageRef) (n : Nat) : Block := (b.setFld p 0x20 n 1 1).notify

/-- An error recorded: ERR_STATUS set; ERR_FIRST written when the error is unmasked and VALID is 0 (R37, R38). -/
def Block.raiseErr (b : Block) (p : PageRef) (n : Nat) (opcode : Nat := 0) : Block :=
  let b := b.setFld p 0x10 n 1 1
  let b := if b.fld p 0x14 n 1 = 0 ∧ b.fld p 0x1C 7 1 = 0 then b.put p 0x1C (n % 64 + 0x80 + opcode % 256 * 256) else b
  b.notify

/-! ## Page states -/

/-- The STATE field of a page: 0 OFF, 1 ENABLING, 2 RUNNING, 3 DRAINING, 4 FAULT, 5 FROZEN (R31, R32). -/
def Block.pageState (b : Block) (p : PageRef) : Nat := if b.bivouac then 5 else b.fld p 0x0C 0 3

/-- HLT_SCORE.BAND of a page: 0 GOOD, 1 SUSPECT, 2 FAILING. -/
def Block.bandOf (b : Block) (p : PageRef) : Nat := b.fld p 0x98 16 2

/-- A page's band set (R40 bit 2, HEALTH). -/
def Block.setBand (b : Block) (p : PageRef) (n : Nat) : Block :=
  if b.bandOf p = n then b else (b.setFld p 0x98 16 2 n).raiseInt p 2

/-- The module band (R512): data is lost or two of S0 to S7 failed; some page is FAILING or redundancy is gone. -/
def Block.moduleBand (b : Block) : Nat :=
  let failing := b.regs.any (fun e => decide (e.1 % 0x1000 = 0x98 ∧ bits e.2 16 2 = 2))
  if b.fld pFtl 0x10 16 1 = 1 ∨ 2 ≤ ((List.range 8).filter (fun n => decide (b.fld (pMem n) 0x104 0 3 = 3))).length then 2
  else if failing ∨ b.fld pFtl 0x10 17 1 = 1 then 1 else 0

/-- The module band noted in HLT.MODULE. -/
def Block.settleModule (b : Block) : Block :=
  if b.fld pHlt 0x10C 0 2 = b.moduleBand then b else (b.setFld pHlt 0x10C 0 2 b.moduleBand).raiseInt pHlt 16

/-- The health record of a page. -/
def Block.bandRec (b : Block) (p : PageRef) : Band := sget {} b.health.bands p.base
def Block.setBandRec (b : Block) (p : PageRef) (x : Band) : Block :=
  { b with health := { b.health with bands := sset {} b.health.bands p.base x } }

/-- A cause that forces FAILING sets in (R512). -/
def Block.forceBand (b : Block) (p : PageRef) : Block :=
  if (b.bandRec p).forced then b
  else (((b.setBandRec p { b.bandRec p with forced := true, below := 0 }).setBand p 2).bump pHlt 3).settleModule

/-- A page put in a state. FAULT forces its band (R512). -/
def Block.setState (b : Block) (p : PageRef) (n : Nat) : Block :=
  let was := b.fld p 0x0C 0 3
  let b := b.setFld p 0x0C 0 3 n
  if n = 4 ∧ was ≠ 4 then b.forceBand p else b

/-- No page accepts work: a module-fatal error is in force, or a power-off has begun (R510, R526). -/
def Block.halted (b : Block) : Bool := b.fatal || b.sled.poweringOff

/-- The page accepts work: RUNNING, and the module not halted (R33). -/
def Block.running (b : Block) (p : PageRef) : Bool := decide (b.pageState p = 2) && !b.halted

/-- A unit page that takes new work: RUNNING, and not FAILING while ACTION_EN.UNIT is 1 (R513). -/
def Block.unitRuns (b : Block) (p : PageRef) : Bool := b.running p && !(decide (b.bandOf p = 2) && decide (b.fld pHlt 0x108 3 1 = 1))

/-- DRAIN_ABORT applies: the page is DRAINING with DRAIN_ABORT 1 (R34). -/
def Block.aborting (b : Block) (p : PageRef) : Bool := decide (b.pageState p = 3) && decide (b.fld p 8 1 1 = 1)

/-- The configuration lock (R44). -/
def Block.locked (b : Block) : Bool := decide (b.fld pGlb 0x118 0 1 = 1)

/-- A write to an RWL field refused by the configuration lock (R44). -/
def Block.lockedWrite (b : Block) : Block := b.raiseErr pGlb 6

/-- The register window answers: the H to IO link is trained, as it stays in a warm reset, and the module is not in
bivouac (R30, R500). -/
def Block.reachable (b : Block) : Bool :=
  !b.bivouac && decide (b.sled.power = .on) &&
    (match b.stage with | .rails | .dieLinks => false | .boot => decide (b.resetKind = .warm) | _ => true)

/-- An access to an offset that no register occupies, or of a width the register does not take (R27): the first one since
ACCESS was cleared sets it and records the offset. -/
def Block.badAccess (b : Block) (off : Nat) : Block :=
  if b.fld pGlb 0x10 5 1 = 1 then b else (b.put pGlb 0x128 (off % 2 ^ 26)).raiseErr pGlb 5

/-- The state with the block changed by a register write of the host die, counted in HLK.CNT3; it has no effect while the
window does not answer (R30, R45). -/
def State.onWrite (s : State) (f : Block → Block) : State :=
  s.on (fun b => if b.reachable then f (b.bump pHlk 3) else b)

/-- The same for a register read, counted in HLK.CNT2. -/
def State.onRead (s : State) (f : Block → Block) : State :=
  s.on (fun b => if b.reachable then f (b.bump pHlk 2) else b)

/-- The duration meter counts (R73). -/
def Block.clockRuns (b : Block) : Bool := !b.bivouac && decide (b.sled.power = .on) && decide (b.stage ≠ .rails)

/-! ## Pace levels -/

/-- One pace domain. -/
def Block.domain (b : Block) (d : Nat) : Domain := sget {} b.governor.domains d

/-- One pace domain changed. -/
def Block.setDomain (b : Block) (d : Nat) (x : Domain) : Block :=
  { b with governor := { b.governor with domains := sset {} b.governor.domains d x } }

/-- A domain's effective level (R71). -/
def Block.effLevel (b : Block) (d : Nat) : Nat :=
  let x := b.domain d
  max (max x.sag x.therm) (max (max b.governor.cap (b.fld pPwr 0x108 0 3)) (if x.failed then 4 else 0))

/-- Admission on a compute die is closed (R82). -/
def Block.admitClosed (b : Block) (die : Nat) : Bool :=
  decide (b.fld pPwr 0x108 8 3 ≠ 0) && decide (b.fld pPwr 0x108 8 3 ≤ b.effLevel die)

/-- A stack uses the 25 % quota (R72). -/
def Block.quotaForced (b : Block) (stack : Nat) : Bool := decide (4 ≤ b.effLevel (3 + stack))

/-- PIM.QUOTA_EFF: the tokens of a stack (R166). -/
def Block.quota (b : Block) (stack : Nat) : Nat :=
  if b.quotaForced stack then 256 else b.fld (pPim stack) 0x104 0 10

/-- The interrupts that a change of pace levels raises: admission closed on a die, a stack's quota forced. -/
def Block.levelEvents (old b : Block) : Block :=
  let b := if (b.admitClosed 0 && !old.admitClosed 0) || (b.admitClosed 1 && !old.admitClosed 1)
    then b.raiseInt pPwr 19 else b
  (List.range 9).foldl (fun b n => if b.quotaForced n && !old.quotaForced n then b.raiseInt (pPim n) 16 else b) b

/-! ## Host memory -/

/-- Bytes written into host memory. -/
def Block.hostWrite (b : Block) (a : Nat) (bs : Bytes) : Block := { b with hostMem := Memory.write b.hostMem a bs }

/-- Bytes read from host memory. -/
def Block.hostRead (b : Block) (a n : Nat) : Bytes := Memory.read b.hostMem a n

/-! ## The module's identity in its rope -/

/-- IDENT.JOINED (R42). -/
def Block.joined (b : Block) : Bool := decide (b.fld pGlb 0x110 26 1 = 1)

/-- The place this module fills; 0 while it is no member of a rope (log 5). -/
def Block.place (b : Block) : Nat := b.fld pGlb 0x110 18 6

/-- The places of the rope, in ascending order: those the member table fills, or this one alone while it is no member
(log 5). -/
def Block.places (b : Block) : List Nat :=
  if b.joined then sortBy (fun x y => decide (x < y)) ((b.rope.members.filter (fun m => !m.spare)).map (·.place)) else [b.place]

/-- The other places of the rope. -/
def Block.others (b : Block) : List Nat := b.places.filter (fun p => decide (p ≠ b.place))

/-- A stand-in rebuilds a place: it fills the place and is still a spare (R442). -/
def Block.rebuilt (b : Block) (p : Nat) : Bool := b.rope.members.any (fun m => m.spare && !m.lost && decide (m.place = p ∧ p ≠ 63))

/-- A place has a module that serves it: it is not lost, nor being rebuilt by a stand-in that has not reported ready
(R442, R444). -/
def Block.placeReady (b : Block) (p : Nat) : Bool := !decide (p ∈ b.rope.notReady)

/-- A place of the rope picked by a number. -/
def Block.pickPlace (b : Block) (n : Nat) : Nat := b.places.getD (n % max 1 b.places.length) b.place

/-- This module is its rope's lead. -/
def Block.lead (b : Block) : Bool := decide (b.fld pGlb 0x110 24 1 = 1)

/-! ## The sled -/

/-- The sled changed: SMBALERT_n is asserted when TRIP_LAST or FATAL takes a new value, or LEAK or FLOW_LOW rises (R524). -/
def Block.setSled (b : Block) (x : Sled) : Block :=
  let o := b.sled
  let rises := decide (x.tripLast ≠ o.tripLast ∨ x.fatal ≠ o.fatal) || (x.leak && !o.leak) || (x.lowFlow && !o.lowFlow)
  { b with sled := { x with alert := x.alert || rises } }

/-! ## Numbered units -/

def Block.port (b : Block) (p : Nat) : Port := sget {} b.ports p
def Block.setPort (b : Block) (p : Nat) (x : Port) : Block := { b with ports := sset {} b.ports p x }
def Block.index (b : Block) (i : Nat) : Index := sget {} b.indexes i
def Block.setIndex (b : Block) (i : Nat) (x : Index) : Block := { b with indexes := sset {} b.indexes i x }
def Block.stack (b : Block) (n : Nat) : Stack := sget {} b.stackSet n
def Block.setStack (b : Block) (n : Nat) (x : Stack) : Block := { b with stackSet := sset {} b.stackSet n x }
def Block.engine (b : Block) (n : Nat) : Engine := sget {} b.engines n
def Block.setEngine (b : Block) (n : Nat) (x : Engine) : Block := { b with engines := sset {} b.engines n x }

/-! ## Versions of an index -/

/-- The side-list partition number. -/
abbrev noPart : Nat := 0xFFFFFFFF

/-- A version of an index at this module. -/
def Index.version (x : Index) (v : Nat) : Option Version := x.versions.find? (fun y => decide (y.root.version = v))

/-- A partition of a version held here. -/
def Version.part (v : Version) (n : Nat) : Option Part := v.parts.find? (fun p => decide (p.number = n))

/-! ## Proxied accesses (R63 to R65) -/

/-- The window offset of proxy slot `i` in its page. -/
def pxyOff (i : Nat) : Nat := 0x180 + 0x20 * i

/-- The access of a proxy slot ends: BUSY clears and STATUS is written. -/
def Block.endProxy (b : Block) (i st : Nat) : Block :=
  { b.put pHlk (pxyOff i + 0x14) (st * 2 ^ 8) with proxies := sset none b.proxies i none }

/-- Accesses whose target has left the rope end PEER_LOST. -/
def Block.proxiesLost (b : Block) : Block :=
  b.proxies.foldl (fun b e => match e.2 with
    | some r => if b.rope.members.any (fun m => decide (m.id = r.target) && !m.lost) then b else b.endProxy e.1 0x0E
    | none => b) b

/-! ## Error injection -/

/-- An armed injection of a page's error bit, taken: whether it was armed, and the block with it disarmed (R39). -/
def Block.takeInjected (b : Block) (p : PageRef) (n : Nat) : Bool × Block :=
  let v := sget 0 b.injected p.base
  if v.getLsbD n then (true, { b with injected := sset 0 b.injected p.base (v &&& ~~~ (1#32 <<< n)) }) else (false, b)

end Sys2Proof.Machine
end

