-- ==== Sys2Proof/Machine/Numeric.lean ====
section
/-! DEFINITION. Number formats and their arithmetic (chapter 12, R189 to R191), ordering keys (R145, R209), and the
cyclic redundancy codes of R87 and R177. -/

namespace Sys2Proof.Machine

/-- A binary32 value's bits. -/
abbrev F32 := BitVec 32

/-- A number of a binary format, exactly: NaN, an infinity, or a signed magnitude in units of 2^(-scale). -/
inductive Real where
  | nan
  | inf (neg : Bool)
  | fin (neg : Bool) (mag : Nat)
deriving DecidableEq, Repr

/-- The canonical binary32 NaN (R212). -/
def nan32 : F32 := 0x7FC00000#32

/-- A binary32 value as a multiple of 2^-149. -/
def f32Real (v : F32) : Real :=
  let n := v.toNat
  let neg := decide (2 ^ 31 ≤ n)
  let e := n / 2 ^ 23 % 256
  let f := n % 2 ^ 23
  if e = 255 then (if f = 0 then .inf neg else .nan)
  else if e = 0 then .fin neg f
  else .fin neg ((f + 2 ^ 23) * 2 ^ (e - 1))

/-- n / 2^k rounded to an integer, to nearest, ties to even. -/
def rneShift (n k : Nat) : Nat :=
  let q := n / 2 ^ k
  let r := 2 * (n % 2 ^ k)
  if r < 2 ^ k then q else if 2 ^ k < r then q + 1 else q + q % 2

/-- n / d rounded to an integer, to nearest, ties to even. -/
def rneDiv (n d : Nat) : Nat :=
  let q := n / d
  let r := 2 * (n % d)
  if r < d then q else if d < r then q + 1 else q + q % 2

/-- The magnitude n / 2^s rounded to a format whose least step is 2^-u and whose significand has p bits, as the
magnitude's bits below the sign: exponent field above fraction. `s` must be at least `u`. -/
def roundMag (p u n s : Nat) : Nat :=
  if n = 0 then 0
  else
    let sh := s - u
    let lsb := max (Nat.log2 n + 1 - p) sh
    let r := rneShift n lsb
    (lsb - sh) * 2 ^ (p - 1) + r

/-- A signed magnitude in units of 2^-s rounded to binary32 (R189). -/
def round32 (neg : Bool) (n s : Nat) : F32 :=
  let m := if s < 149 then roundMag 24 149 (n * 2 ^ (149 - s)) 149 else roundMag 24 149 n s
  BitVec.ofNat 32 ((if neg then 2 ^ 31 else 0) + min m 0x7F800000)

/-- A binary32 infinity. -/
def inf32 (neg : Bool) : F32 := if neg then 0xFF800000#32 else 0x7F800000#32

/-- An exact integer sum's sign and magnitude; an exact zero is negative only where `zneg`. -/
def ofInt (zneg : Bool) (z : Int) : Real := if z = 0 then .fin zneg 0 else .fin (decide (z < 0)) z.natAbs

/-- A signed magnitude as an integer. -/
def signedMag (neg : Bool) (n : Nat) : Int := if neg then -(n : Int) else n

/-- The sign changed. -/
def neg32 (x : F32) : F32 := x ^^^ 0x80000000#32

/-- binary32 addition, to nearest, ties to even (R189, R191). -/
def add32 (x y : F32) : F32 :=
  match f32Real x, f32Real y with
  | .nan, _ => nan32
  | _, .nan => nan32
  | .inf a, .inf b => if a = b then inf32 a else nan32
  | .inf a, _ => inf32 a
  | _, .inf b => inf32 b
  | .fin a m, .fin b n =>
    match ofInt (a && b) (signedMag a m + signedMag b n) with
    | .fin c k => round32 c k 149
    | _ => nan32

/-- binary32 subtraction. -/
def sub32 (x y : F32) : F32 := add32 x (neg32 y)

/-- binary32 multiplication. -/
def mul32 (x y : F32) : F32 :=
  match f32Real x, f32Real y with
  | .nan, _ => nan32
  | _, .nan => nan32
  | .inf a, .inf b => inf32 (a ^^ b)
  | .inf a, .fin b n => if n = 0 then nan32 else inf32 (a ^^ b)
  | .fin a m, .inf b => if m = 0 then nan32 else inf32 (a ^^ b)
  | .fin a m, .fin b n => round32 (a ^^ b) (m * n) 298

/-- binary32 quotient of two positive finite values (R319). -/
def div32 (x y : F32) : F32 :=
  match f32Real x, f32Real y with
  | .fin a m, .fin b n =>
    if n = 0 then nan32
    else
      let q := m * 2 ^ 450 / n
      let sticky := if m * 2 ^ 450 % n = 0 then 0 else 1
      round32 (a ^^ b) (2 * q + sticky) 451
  | _, _ => nan32

/-- The comparison x < y of numbers; false where either is NaN. -/
def lt32 (x y : F32) : Bool :=
  match f32Real x, f32Real y with
  | .nan, _ => false
  | _, .nan => false
  | .inf a, .inf b => a && !b
  | .inf a, .fin _ _ => a
  | .fin _ _, .inf b => !b
  | .fin a m, .fin b n => decide (signedMag a m < signedMag b n)

/-- The comparison x = y of numbers. -/
def eq32 (x y : F32) : Bool :=
  match f32Real x, f32Real y with
  | .nan, _ => false
  | _, .nan => false
  | .inf a, .inf b => a == b
  | .fin a m, .fin b n => decide (signedMag a m = signedMag b n)
  | _, _ => false

/-- A binary format's element converted exactly to binary32 (R311): exponent bits, fraction bits, bias. -/
def widen (eb fb bias : Nat) (v : Nat) : F32 :=
  let neg := decide (2 ^ (eb + fb) ≤ v % 2 ^ (eb + fb + 1))
  let e := v / 2 ^ fb % 2 ^ eb
  let f := v % 2 ^ fb
  if e = 2 ^ eb - 1 then (if f = 0 then inf32 neg else nan32)
  else
    let m := if e = 0 then f else f + 2 ^ fb
    round32 neg (m * 2 ^ ((if e = 0 then 1 else e) - 1)) (bias + fb - 1)

/-- BF16 to binary32. -/
def bf16 (v : BitVec 16) : F32 := BitVec.ofNat 32 (v.toNat * 65536)

/-- FP16 to binary32. -/
def fp16 (v : Nat) : F32 := widen 5 10 15 v

/-- FP8 E5M2 to binary32. -/
def e5m2 (v : Nat) : F32 := widen 5 2 15 v

/-- FP8 E4M3 to binary32: no infinity, one NaN magnitude (R309). -/
def e4m3 (v : Nat) : F32 :=
  let neg := decide (128 ≤ v % 256)
  let e := v / 8 % 16
  let f := v % 8
  if e = 15 ∧ f = 7 then nan32
  else round32 neg ((if e = 0 then f else f + 8) * 2 ^ ((if e = 0 then 1 else e) - 1)) 9

/-- An integer of up to 32 bits converted to binary32. -/
def int32f (z : Int) : F32 := round32 (decide (z < 0)) z.natAbs 0

/-- Two's complement value of the low w bits. -/
def signed (w v : Nat) : Int := let x := v % 2 ^ w; if x < 2 ^ (w - 1) then x else (x : Int) - 2 ^ w

/-- An element of a stored format converted exactly to binary32 (R311). -/
def numTo32 (f : NumFmt) (v : Nat) : F32 :=
  match f with
  | .int4 => int32f (signed 4 v)
  | .int8 => int32f (signed 8 v)
  | .e4m3 => e4m3 (v % 256)
  | .e5m2 => e5m2 (v % 256)
  | .bf16 => bf16 (BitVec.ofNat 16 v)
  | .fp16 => fp16 (v % 65536)

/-- VEC_FMT codes of R89. -/
def vecFmt : Nat → NumFmt
  | 0 => .int8 | 1 => .e4m3 | 2 => .e5m2 | 3 => .fp16 | _ => .bf16

/-- Element size in bytes of a vector format (R88). -/
def numSize : NumFmt → Nat
  | .int4 => 1 | .int8 => 1 | .e4m3 => 1 | .e5m2 => 1 | .bf16 => 2 | .fp16 => 2

/-- The elements of a full vector as binary32 (R93, R189). -/
def vec32 (fmt : Nat) (dim : Nat) (bs : Bytes) : List F32 :=
  let f := vecFmt fmt
  (List.range dim).map (fun i => numTo32 f (le bs (i * numSize f) (numSize f)))

/-- A finite binary32 magnitude converted to a narrower binary format, saturating (R312). -/
def narrow (eb fb bias maxMag : Nat) (x : F32) (infBits nanBits : Nat) : Nat :=
  let sgn (n : Bool) := if n then 2 ^ (eb + fb) else 0
  match f32Real x with
  | .nan => nanBits
  | .inf n => if infBits = nanBits then nanBits else sgn n + infBits
  | .fin n m => sgn n + min (roundMag (fb + 1) (bias + fb - 1) m 149) maxMag

/-- binary32 to BF16 (R312). -/
def toBf16 (x : F32) : Nat :=
  match f32Real x with
  | .nan => 0x7FC0
  | .inf n => if n then 0xFF80 else 0x7F80
  | .fin n m => (if n then 0x8000 else 0) + min (roundMag 8 133 m 149) 0x7F7F
/-- binary32 to FP16 (R312). -/
def toFp16 (x : F32) : Nat := narrow 5 10 15 0x7BFF x 0x7C00 0x7E00
/-- binary32 to FP8 E5M2 (R312). -/
def toE5m2 (x : F32) : Nat := narrow 5 2 15 0x7B x 0x7C 0x7E
/-- binary32 to FP8 E4M3 (R312). -/
def toE4m3 (x : F32) : Nat := narrow 4 3 7 0x7E x 0x7F 0x7F

/-- A finite value rounded to an integer, ties to even. -/
def rneInt (neg : Bool) (m : Nat) : Int := signedMag neg (rneShift m 149)

/-- binary32 to INT8 (R312). -/
def toInt8 (x : F32) : Nat :=
  let enc (z : Int) : Nat := ((z + 256) % 256).toNat
  match f32Real x with
  | .nan => 0
  | .inf n => enc (if n then -128 else 127)
  | .fin n m => enc (max (-128) (min 127 (rneInt n m)))

/-! ## Ordering keys -/

/-- The ordering key k(v) of R145. -/
def orderKey (v : F32) : BitVec 32 :=
  if f32Real v = .nan then 0xFFFFFFFF#32
  else
    let v := if v = 0x80000000#32 then 0 else v
    if v.msb then ~~~ v else v ||| 0x80000000#32

/-- The 32-bit TOPK key of an element of a FORMAT of R207 (R209). -/
def topkKey (format : Nat) (descend : Bool) (v : Nat) : BitVec 32 :=
  let float (x : F32) := if f32Real x = .nan then 0xFFFFFFFF#32 else if descend then ~~~ orderKey x else orderKey x
  let int (z : BitVec 32) := if descend then ~~~ (z ^^^ 0x80000000#32) else z ^^^ 0x80000000#32
  match format with
  | 0 => float (BitVec.ofNat 32 v)
  | 1 => float (numTo32 .bf16 v)
  | 2 => float (fp16 v)
  | 3 => float (e4m3 v)
  | 4 => float (e5m2 v)
  | 5 => int (BitVec.ofNat 32 v)
  | 6 => if descend then ~~~ (BitVec.ofNat 32 v) else BitVec.ofNat 32 v
  | _ => int (BitVec.ofInt 32 (signed 8 v))

/-! ## Exact distances -/

/-- p_i of R189. -/
def distTerm (metric : Nat) (x y : F32) : F32 :=
  if metric = 0 then let t := sub32 x y; mul32 t t else mul32 x y

/-- The sixteen lane sums of R190, elements taken in ascending order. -/
def laneSums (metric : Nat) : List F32 → List F32 → List F32 → List F32
  | s :: ss, x :: xs, y :: ys => laneSums metric (ss ++ [add32 s (distTerm metric x y)]) xs ys
  | s, _, _ => s

/-- One step of the reduction tree: lane l gains lane l + w. -/
def treeStep (w : Nat) (s : List F32) : List F32 := List.zipWith add32 (s.take w) (s.drop w)

/-- The exact distance of R190 for D a multiple of 16. -/
def distance (metric : Nat) (x y : List F32) : F32 :=
  let s := laneSums metric (List.replicate 16 0) x y
  let r := (treeStep 1 (treeStep 2 (treeStep 4 (treeStep 8 s)))).headD 0
  if metric = 0 then r else neg32 r

/-- A distance as a result row writes it (R127). -/
def distanceBits (v : F32) : F32 := if f32Real v = .nan then nan32 else if v = 0x80000000#32 then 0 else v

/-! ## Distance tables -/

/-- One entry of a TABLE step: sub-vector x against centroid μ (R294). -/
def tableEntry (metric : Nat) (x mu : List F32) : F32 :=
  let s := (x.zip mu).foldl (fun s p => add32 s (distTerm metric p.1 p.2)) 0
  if metric = 0 then s else neg32 s

/-- The finite numbers of a list. -/
def finites (l : List F32) : List F32 := l.filter (fun v => match f32Real v with | .fin _ _ => true | _ => false)

/-- The offset lo and multiplier inv of a table set (R319). -/
def tableScale (l : List F32) : F32 × F32 :=
  match finites l with
  | [] => (0, 0)
  | x :: xs =>
    let lo := xs.foldl (fun a v => if lt32 v a then v else a) x
    let hi := xs.foldl (fun a v => if lt32 a v then v else a) x
    let w := sub32 hi lo
    match f32Real w with
    | .fin _ 0 => (lo, 0)
    | .fin _ _ => (lo, div32 0x437F0000#32 w)
    | _ => (lo, 0)

/-- One entry quantised (R319). -/
def quantise (lo inv t : F32) : Nat :=
  match f32Real t with
  | .nan => 255
  | .inf n => if n then 0 else 255
  | .fin _ _ =>
    let e := sub32 t lo
    if eq32 e 0 || eq32 inv 0 then 0
    else
      match f32Real (mul32 e inv) with
      | .fin n m => if 255 * 2 ^ 149 ≤ m then 255 else (rneInt n m).toNat
      | _ => 255

/-! ## Check codes -/

/-- One bit of a reflected CRC. -/
def crcBit (w : Nat) (poly : BitVec w) (c : BitVec w) : BitVec w :=
  if c.getLsbD 0 then (c >>> 1) ^^^ poly else c >>> 1

/-- One byte of a reflected CRC. -/
def crcByte (w : Nat) (poly : BitVec w) (c : BitVec w) (x : Byte) : BitVec w :=
  (List.range 8).foldl (fun c _ => crcBit w poly c) (c ^^^ x.setWidth w)

/-- CRC-64/XZ of R87: ECMA-182 polynomial, reflected, all-ones initial value and final XOR. -/
def crc64 (bs : Bytes) : BitVec 64 := ~~~ (bs.foldl (crcByte 64 0xC96C5795D7870F42#64) 0xFFFFFFFFFFFFFFFF#64)

/-- The IEEE 802.3 CRC-32 of R177. -/
def crc32 (bs : Bytes) : BitVec 32 := ~~~ (bs.foldl (crcByte 32 0xEDB88320#32) 0xFFFFFFFF#32)

end Sys2Proof.Machine
end

