-- ==== Sys2Proof/Machine/Wire.lean ====
section
/-! DEFINITION. Messages on their way out (chapter 16): segments (R426 to R429), flits and frames on a port (R421 to
R423, R433), the choice of a port, and a message handed to the transport, through its egress queue. -/

namespace Sys2Proof.Machine

/-! ## Ports -/

/-- One optical port. -/
def Block.link (b : Block) (n : Nat) : LinkPort := sget {} b.links n

/-- One optical port changed. -/
def Block.setLink (b : Block) (n : Nat) (x : LinkPort) : Block := { b with links := sset {} b.links n x }

/-- The port is in link mode (R419). -/
def Block.linkMode (b : Block) (n : Nat) : Bool := decide (b.fld (pKwf n) 0x100 0 1 = 0)

/-- A flit or frame put on the wire (KWF CNT7). -/
def Block.wire (b : Block) (n : Nat) (bs : Bytes) : Block :=
  let x := b.link n
  (b.setLink n { x with sent := snoc x.sent bs }).bump (pKwf n) 7 bs.length

/-- What a flit's header says (R421). -/
structure FlitHead where
  type     : Nat
  vc       : Nat := 0
  som      : Bool := false
  eom      : Bool := false
  nak      : Bool := false
  hello    : Bool := false
  len      : Nat := 0
  fseq     : Nat := 0
  ack      : Option Nat := none
  crVc     : Nat := 0
  crCount  : Nat := 0
deriving DecidableEq, Repr

/-- A truth value as a number. -/
def flag (q : Bool) : Nat := if q then 1 else 0

/-- The 256 bytes of a flit (R421). -/
def flitBytes (h : FlitHead) (payload : Bytes) : Bytes :=
  let head := toLe (h.type + 16 * h.vc + 128 * flag h.som) 1 ++
    toLe (flag h.eom + 2 * flag h.nak + 4 * flag h.hello) 1 ++ toLe h.len 1 ++ toLe 0 1 ++ toLe h.fseq 2 ++
    toLe (h.ack.getD 0) 2 ++ toLe (h.crVc + 8 * flag h.ack.isSome + 16 * h.crCount) 2 ++ toLe 0 2
  let body := head ++ padTo payload 240
  body ++ toLe (crc32 body).toNat 4

/-- The bytes of a held DATA flit. -/
def HeldFlit.bytes (f : HeldFlit) : Bytes :=
  flitBytes { type := 1, vc := f.part.vc, som := f.part.som, eom := f.part.eom, len := f.part.payload.length,
              fseq := f.fseq } f.part.payload

/-- A control flit of the link layer, or an IDLE flit that carries acknowledgement and credits. -/
def Block.control (b : Block) (n : Nat) (h : FlitHead) (payload : Bytes := []) : Block := b.wire n (flitBytes h payload)

/-- The FSEQ of the last DATA flit received in order. -/
def LinkPort.lastIn (x : LinkPort) : Nat := (x.expect + 65535) % 65536

/-- The flits that wait sent in order, each VC while it holds credits and the replay buffer has room (R423). -/
def Block.pump (b : Block) (n : Nat) : Block :=
  let x := b.link n
  if !x.up then b
  else
    let go (acc : Block × List FlitPart × List Nat) (p : FlitPart) : Block × List FlitPart × List Nat :=
      let (b, kept, blocked) := acc
      let x := b.link n
      if p.vc ∈ blocked ∨ sget 0 x.credits p.vc = 0 ∨ 8192 ≤ x.replay.length then (b, snoc kept p, snoc blocked p.vc)
      else
        let f : HeldFlit := ⟨x.nextSeq, p, b.meter⟩
        let x : LinkPort := { x with
          nextSeq := (x.nextSeq + 1) % 65536
          replay := snoc x.replay f
          progress := if x.replay = [] then b.meter else x.progress
          credits := sset 0 x.credits p.vc (sget 0 x.credits p.vc - 1) }
        (((b.setLink n x).wire n f.bytes).bump (pKwf n) 0, kept, blocked)
    let start := b.setLink n { x with waiting := [] }
    let (b, kept, _) := x.waiting.foldl go (start, [], [])
    b.setLink n { b.link n with waiting := kept }

/-! ## Frames -/

/-- A number as `n` big-endian bytes. -/
def toBe (v n : Nat) : Bytes := (toLe v n).reverse

/-- The Ethernet frame of a segment (R433). -/
def frameBytes (dst src cls tag vid : Nat) (seg : Bytes) : Bytes :=
  let q := if tag = 1 then toBe 0x8100 2 ++ toBe (cls * 8192 + vid) 2 else []
  let f := toBe dst 6 ++ toBe src 6 ++ q ++ toBe 0x8A5E 2 ++ seg
  f ++ toLe (crc32 f).toNat 4

/-- Segments toward a destination that are on the wire and unacknowledged (R432). -/
def Block.unackedTo (b : Block) (endpoint : Nat) : Nat :=
  (b.transport.sent.filter (fun (m : SentMsg) => decide (m.endpoint = endpoint))).foldl (fun n m => n + m.segs) 0

/-- The neighbour table's entry of an endpoint, when it is valid (R433). -/
def Block.neighbour (b : Block) (endpoint : Nat) : Option Nat :=
  let v := sget 0 b.transport.macs endpoint
  if nbits v 48 1 = 1 then some (nbits v 0 48) else none

/-- One waiting segment sent as a frame, where its port is UP and FRAME_WIN allows it; else it goes on waiting. -/
def Block.frameOut (b : Block) (w : WaitFrame) : Block :=
  match b.neighbour w.endpoint with
  | none => b
  | some mac =>
    if !(b.link w.port).up ∨ (w.counted ∧ b.fld pKwt 0x110 0 9 ≤ b.unackedTo w.endpoint) then
      { b with transport := { b.transport with frames := snoc b.transport.frames w } }
    else
      let f := frameBytes mac (nbits (b.get (pKwf w.port) 0x108) 0 48) w.cls (b.fld pKwt 0x110 16 1)
        (b.fld pKwt 0x110 17 12) w.data
      let more (m : SentMsg) : SentMsg := { m with segs := m.segs + 1 }
      let sent : List SentMsg := mapIf (fun m => decide ((m.session, m.msgId) = w.msg)) more b.transport.sent
      (({ b with transport := { b.transport with sent := sent } }).wire w.port f).bump (pKwf w.port) 0

/-- The segments that wait for FRAME_WIN tried in order. -/
def Block.pumpFrames (b : Block) : Block :=
  b.transport.frames.foldl Block.frameOut { b with transport := { b.transport with frames := [] } }

/-! ## Segments -/

/-- The kinds of R426: 0 REQUEST, 1 REPLY, 2 ACK, 3 NOTICE, 4 PROXY, 5 PROXY_REPLY, 6 OPEN. -/
def MsgKind.segKind : MsgKind → Nat
  | .shardRequest | .refineRequest | .ownerRecords | .cairnRequest | .cairnRecord | .confirm | .logCopy
  | .mountStart | .mountEnd | .switchCheck | .switchApply | .retireApply | .switchAsk | .tableRequest | .tentative | .commit
  | .tableSwitch | .replicaRows | .migrateCopy | .mapUpdate | .forwarded | .stateTiles | .parity | .joinRequest
  | .standin | .commitTentative | .discardTentative | .noticeAsk | .tableUnbound => 0
  | .reply | .shardReply | .ownerReply | .cairnGrant | .cairnRecorded | .confirmed | .logCopyHeld | .mountReady | .sideReport
  | .switchApplied | .tableRows | .tentativeHeld | .committed | .tableSwitched | .joinReply | .refineReply | .mapAck
  | .dup => 1
  | .ack => 2
  | .voidCairn | .visibleCairn | .beat | .membership | .fenceNotice | .leaveNotice | .retireAsk | .declare
  | .telemetry | .placement => 3
  | .proxy => 4
  | .proxyReply => 5
  | .challenge | .opened | .refused | .proveReply | .close => 6

/-- The spec gives the body's bytes, which the message carries as data; any other body is a free value. -/
def MsgKind.laidOut (k : MsgKind) : Bool :=
  decide (k ∈ [.reply, .ack, .proxy, .proxyReply, .telemetry, .challenge, .opened, .refused, .proveReply, .close])

/-- Bytes cut into pieces of `m`, the last one shorter. -/
def pieces (m : Nat) (bs : Bytes) : List Bytes :=
  (List.range ((bs.length + m - 1) / m)).map (fun i => slice bs (m * i) m)

/-- The 48-byte header of a segment (R426). -/
structure SegHead where
  kind    : Nat
  cls     : Nat
  last    : Bool
  number  : Nat
  dst     : Nat
  src     : Nat
  session : Nat
  len     : Nat
  msgId   : Nat
  nonce   : Nat
  msgLen  : Nat
  epoch   : Nat
  budget  : Nat
deriving DecidableEq, Repr

def SegHead.bytes (h : SegHead) : Bytes :=
  toLe 1 1 ++ toLe (h.kind + 8 * h.cls + 64 * flag h.last) 1 ++ toLe h.number 2 ++ toLe h.dst 2 ++ toLe h.src 2 ++
  toLe h.session 2 ++ toLe h.len 2 ++ toLe h.msgId 4 ++ toLe h.nonce 8 ++ toLe h.msgLen 4 ++ toLe h.epoch 4 ++
  toLe h.budget 3 ++ toLe 0 13

/-- The initialisation vector of a segment (R429): direction 0 from the module's peer, 1 from the module. -/
def ivOf (session direction nonce : Nat) : Bytes := toLe (session + 4096 * direction) 4 ++ toLe nonce 8

/-- A session. -/
def Block.session (b : Block) (n : Nat) : Session := sget {} b.sessions n

/-- A session changed. -/
def Block.setSession (b : Block) (n : Nat) (x : Session) : Block := { b with sessions := sset {} b.sessions n x }

/-- What the transport keeps of a session. -/
def Block.rx (b : Block) (n : Nat) : RxSession := sget {} b.transport.rx n

def Block.setRx (b : Block) (n : Nat) (x : RxSession) : Block :=
  { b with transport := { b.transport with rx := sset {} b.transport.rx n x } }

/-- The module's endpoint: its module ID. -/
def Block.endpoint (b : Block) : Nat := b.fld pGlb 0x110 0 12

/-- The budget left of a deadline, in 100 ns units (R137). -/
def Block.budgetTo (b : Block) (d : Nat) : Nat := (d - b.meter) / 10

/-- A budget less two hops and the oscillator margin (R137, R434). -/
def Block.afterHop (b : Block) (q : Nat) : Nat := q - 2 * b.fld (pQpl 0) 0x108 0 16 - (q + 16383) / 16384

/-- The budget a message carries at this moment: what is left of its deadline, reduced by a hop and cut to 24 bits; 0 is no
deadline (R17, R434). -/
def Block.budgetOut (b : Block) (m : OutMsg) : Nat :=
  match m.deadline with
  | some d => min (b.afterHop (b.budgetTo d)) (2 ^ 24 - 1)
  | none => 0

/-- A REQUEST whose reduced budget is 0 or less is not sent (R137, R434). -/
def Block.spent (b : Block) (kind : Nat) (m : OutMsg) : Bool :=
  decide (kind = 0) && m.deadline.isSome && decide (b.budgetOut m = 0)

/-- The bytes of a message as they go out: BUDGET of a REQUEST's descriptor is the one of this moment (R54, R434). -/
def Block.stamp (b : Block) (kind : Nat) (m : OutMsg) (body : Bytes) : Bytes :=
  if kind = 0 then slice body 0 4 ++ toLe (b.budgetOut m) 3 ++ body.drop 7 else body

/-- The ports that new messages may use: RUNNING and UP, SUSPECT ones only while no GOOD one is UP (R446, R513). -/
def Block.upPorts (b : Block) : List Nat :=
  let up := (List.range 8).filter (fun n => b.running (pKwf n) && (b.link n).up)
  match up.filter (fun n => decide (b.fld (pKwf n) 0x98 16 2 = 0)) with
  | [] => up
  | l => l

/-- The segments of a message with fresh nonces, sealed outside OPEN messages (R426, R429). -/
def Block.segments (b : Block) (kind cls endpoint session msgId budget : Nat) (body : Bytes) : List Bytes × Block :=
  let parts := pieces 8192 body
  let x := b.session session
  let epoch := if x.rope then b.rope.epoch else 0
  let nonce := (b.rx session).nextNonce
  let seg (i : Nat) : Bytes :=
    let p := parts.getD i []
    let h : SegHead := { kind := kind, cls := cls, last := decide (i + 1 = parts.length), number := i, dst := endpoint,
                         src := b.endpoint, session := session, len := p.length, msgId := msgId,
                         nonce := if kind = 6 then 0 else nonce + i, msgLen := body.length, epoch := epoch,
                         budget := budget }
    if kind = 6 then h.bytes ++ p
    else h.bytes ++ padTo ((Config.gcmSeal x.keyOut (ivOf session 1 (nonce + i)) h.bytes p).take (p.length + 16)) (p.length + 16)
  ((List.range parts.length).map seg,
    if kind = 6 then b else b.setRx session { b.rx session with nextNonce := nonce + parts.length })

/-- The pieces of a segment on a VC. -/
def flitParts (vc : Nat) (msg : Nat × Nat) (seg : Bytes) : List FlitPart :=
  let l := pieces 240 seg
  (List.range l.length).map (fun i => ⟨vc, decide (i = 0), decide (i + 1 = l.length), l.getD i [], msg⟩)

/-- All segments of a message put on one port, which the module chooses (R435): held until credits, or FRAME_WIN, let
them go. With no port UP nothing is sent. -/
def Block.launch (b : Block) (kind cls endpoint session msgId budget : Nat) (body : Bytes) (m : OutMsg) : Block :=
  match b.upPorts with
  | [] => b
  | l =>
    let n := l.getD (Config.portChoice b.free % l.length) 0
    let b := { b with free := b.free + 1 }
    if !b.linkMode n ∧ b.neighbour endpoint = none then
      { b with transport := { b.transport with cut := snoc b.transport.cut m } }
    else
      let (segs, b) := b.segments kind cls endpoint session msgId budget body
      let b := b.bump pKwt 7 (segs.foldl (fun n s => n + s.length) 0)
      if b.linkMode n then
        let parts := segs.flatMap (flitParts cls (session, msgId))
        (b.setLink n { b.link n with waiting := (b.link n).waiting ++ parts }).pump n
      else
        let counted := decide (kind = 0 ∨ kind = 1 ∨ kind = 4)
        let ws : List WaitFrame := segs.map (fun s => ⟨n, endpoint, cls, (session, msgId), counted, s⟩)
        ({ b with transport := { b.transport with frames := b.transport.frames ++ ws } }).pumpFrames

/-- The rope session with an endpoint, or one that a client of that endpoint holds. -/
def Block.sessionOf (b : Block) (endpoint : Nat) : Option Nat :=
  (b.sessions.find? (fun e => decide (e.2.endpoint = endpoint) && e.2.rope && decide (e.2.state ≠ .closed))).map (·.1)

/-- The sessions a message goes out on, with the endpoint at the other end. -/
def Block.routes (b : Block) (d : Dest) : List (Nat × Nat) :=
  let on (e : Nat) : List (Nat × Nat) := ((b.sessionOf e).map (fun n => (n, e))).toList
  match d with
  | .session n => [(n, (b.session n).endpoint)]
  | .peer n e => [(n, e)]
  | .module e => on e
  | .place p => match b.rope.members.find? (fun m => decide (m.place = p) && !m.lost) with
    | some m => on m.id
    | none => []
  | .all => (b.rope.members.filter (fun m => !m.lost)).flatMap (fun m => on m.id)

/-- The body of a message: its bytes where the spec lays them out, else a free value; a REQUEST holds a descriptor of 64
bytes (R54, R434). -/
def Block.bodyOf (b : Block) (m : OutMsg) : Bytes × Block :=
  if m.kind.laidOut then (m.data, b)
  else (padTo (Config.ropeBody b.free) (if m.kind.segKind = 0 then 64 else 1), { b with free := b.free + 1 })

/-- A cairn request that is not sent leaves its update without an answer to wait for (R234). -/
def Block.unasked (b : Block) (m : OutMsg) : Block :=
  if m.kind = .cairnRequest then
    { b with updates := mapIf (fun (u : Update) => decide (u.cmd = m.args.getD 1 0)) (fun u => { u with asked := false }) b.updates }
  else b

/-- A message sent on one session: numbered, remembered until it is acknowledged (REQUEST, REPLY and PROXY), cut into
segments and put on a port (R426 to R435). -/
def Block.sendOn (m : OutMsg) (body : Bytes) (b : Block) (r : Nat × Nat) : Block :=
  let (n, endpoint) := r
  let kind := m.kind.segKind
  if b.spent kind m then b.unasked m else
  let id := (b.rx n).nextMsg
  let b := (b.setRx n { b.rx n with nextMsg := (id + 1) % 2 ^ 32 }).bump pKwt 0
  let b := if kind = 0 ∨ kind = 1 ∨ kind = 4 then
      { b with transport := { b.transport with sent := snoc b.transport.sent ⟨n, id, endpoint, kind, m, body, b.meter, 0, 0⟩ } }
    else b
  let budget := if kind = 4 then b.budgetOut m else 0
  b.launch kind m.cls endpoint n id budget (b.stamp kind m body) m

/-- A message handed to the transport; it sends nothing while KWT is OFF or a module-fatal error is in force (R449,
R510). -/
def Block.transmitBytes (b : Block) (m : OutMsg) (body : Bytes) : Block :=
  let b := { b with out := { b.out with sent := snoc b.out.sent m } }
  if b.fatal ∨ (b.pageState pKwt ≠ 2 ∧ b.pageState pKwt ≠ 3) then b
  else (b.routes m.toward).foldl (Block.sendOn m body) b

/-- A message that passes no egress queue handed to the transport. -/
def Block.transmit (b : Block) (m : OutMsg) : Block :=
  let (body, b) := b.bodyOf m
  b.transmitBytes m body

/-! ## Messages out -/

/-- The egress queue of a message (R453). -/
def egressQueue (m : OutMsg) : Nat :=
  match m.cls with
  | 6 => 69
  | 5 => if m.kind = .standin then 71 else 70
  | 7 => if m.kind = .proxy ∨ m.kind = .proxyReply then 73 else 72
  | c => 64 + min c 4

/-- A queue's high-water mark raised to its depth (R464). -/
def markDepth (t : Trf) (q depth : Nat) : Trf :=
  if sget 0 t.hwm q < depth then { t with hwm := sset 0 t.hwm q depth } else t

/-- A message sent: to a role of this module itself, straight to the transport while TRF is OFF (R467), or into its
egress queue (R453). -/
def Block.send (b : Block) (m : OutMsg) : Block :=
  if m.toward = .place b.place then { b with out := { b.out with self := b.out.self ++ [m] } }
  else if b.pageState pTrf = 0 ∨ b.pageState pTrf = 1 then b.transmit m
  else
    let q := egressQueue m
    let (body, b) := b.bodyOf m
    let l : List EgressEntry := b.egress ++ [⟨q, body, b.meter, m⟩]
    { b with egress := l, trf := markDepth b.trf q (l.filter (fun e => decide (e.queue = q))).length }

end Sys2Proof.Machine
end

