-- ==== Sys2Proof/Machine/Media.lean ====
section
/-! DEFINITION. Shared operations of the flash side: bays, write stop, stripe rows and lost members (R390 to R396), zones
and the zone log (R397 to R400), pages waiting to be programmed, items of the DRAM tier (R360). -/

namespace Sys2Proof.Machine

/-! ## Bays -/

/-- The states of R416. -/
abbrev bsEmpty := 0
abbrev bsPowering := 1
abbrev bsIdentifying := 2
abbrev bsForeign := 3
abbrev bsRefused := 4
abbrev bsOnline := 5
abbrev bsDraining := 6
abbrev bsSafe := 7
abbrev bsFailed := 8

/-- One bay. -/
def Block.bay (b : Block) (n : Nat) : Bay := sget {} b.bays n

/-- One bay changed. -/
def Block.setBay (b : Block) (n : Nat) (x : Bay) : Block := { b with bays := sset {} b.bays n x }

/-- The bay is ONLINE (R184, R410). -/
def Block.bayOnline (b : Block) (n : Nat) : Bool := decide ((b.bay n).st = bsOnline)

/-- Bays that are not ONLINE. -/
def Block.offlineBays (b : Block) : List Nat := (List.range 16).filter (fun n => !b.bayOnline n)

/-- Writing to flash is stopped: three or more bays are not ONLINE (R391). -/
def Block.writeStopped (b : Block) : Bool := decide (3 ≤ b.offlineBays.length)

/-- Durable writes cannot start: writing is stopped, or the FTL takes no work (R391, R413). -/
def Block.noWrites (b : Block) : Bool := b.writeStopped || !b.running pFtl

/-- WRITE_STOP raised when writing stops (R391). -/
def Block.noteWriteStop (b : Block) : Block :=
  let now := b.writeStopped
  let b' : Block := { b with ftl := { b.ftl with stopped := now } }
  if now && !b.ftl.stopped then (b'.raiseErr pFtl 21).raiseInt pFtl 19 else b'

/-! ## Stripe rows -/

/-- The bay's members are readable: it is ONLINE or DRAINING. -/
def Block.bayReads (b : Block) (n : Nat) : Bool := decide ((b.bay n).st = bsOnline ∨ (b.bay n).st = bsDraining)

/-- Where the copy of a member lies that an engine reads: on its bay, read there by its home channel's engine (`own`), or by any once it
has been rebuilt elsewhere (R393); or else in the journal (R392). -/
def Block.copyBay (b : Block) (own : Bool) (m : Member) : Option Nat :=
  if !m.lost && b.bayReads m.now && (own || decide (m.now ≠ m.bay)) then some m.now
  else m.journal.filter b.bayReads

/-- A member that is missing: neither its bay, nor its journal copy can be read, so that it has to be assembled from others of its
row (R392, R394). -/
def Block.memberGone (b : Block) (m : Member) : Bool := (b.copyBay true m).isNone

/-- The lost members of a row: those that are missing, their present bay being unreadable or formatted (R394). -/
def Block.lostMembers (b : Block) (r : StripeRow) : List Member := r.members.filter b.memberGone

/-- FTL.DEGRADED: bit n is 1 while bay n has lost members. -/
def Block.degraded (b : Block) : Nat :=
  (List.range 16).foldl (fun v n =>
    if b.ftl.rows.any (fun r => (b.lostMembers r).any (fun m => decide (m.now = n))) then v + 2 ^ n else v) 0

/-- The errors that rows with lost members raise (R394). -/
def Block.noteLoss (b : Block) : Block :=
  let worst := b.ftl.rows.foldl (fun w r => max w (b.lostMembers r).length) 0
  let b := if b.ftl.rows.any (fun r => decide ((b.lostMembers r).length = 2)) then b.raiseErr pFtl 17 else b
  if 3 ≤ worst then (b.raiseErr pFtl 16).forceBand pFtl else b

/-- P of a row: the XOR of its data members (R390). -/
def parityP : List Bytes → Bytes
  | [] => []
  | [x] => x
  | x :: xs => List.zipWith (· ^^^ ·) x (parityP xs)

/-- Multiplication by g = 2 in GF(2⁸) with the polynomial 0x11D (R390). -/
def gfDouble (x : BitVec 8) : BitVec 8 := if x.msb then (x <<< 1) ^^^ 0x1D#8 else x <<< 1

/-- Q of a row: the sum of g^m × Dm, by Horner's rule from the last member (R390). -/
def parityQ : List Bytes → Bytes
  | [] => []
  | [x] => x
  | x :: xs => List.zipWith (· ^^^ ·) x ((parityQ xs).map gfDouble)

/-- The bays that hold P and Q in row s: s mod 16 and the next, of the bays that are not absent (R390; DESIGN CHOICE, log 44,
where one of them is absent). -/
def parityBays (s : Nat) (absent : List Nat) : List Nat :=
  (((List.range 16).map (fun i => (s + i) % 16)).filter (fun n => !decide (n ∈ absent))).take 2

/-- The bays that hold data members in row s, ascending (R390). -/
def dataBays (s : Nat) (absent : List Nat) : List Nat :=
  (List.range 16).filter (fun n => !decide (n ∈ absent) && !decide (n ∈ parityBays s absent))

/-! ## Rope-level copies (R441) -/

/-- The number that a log page of an index, or of a table (16 + table), has among this place's pages; other pages have
owner 1,024. -/
def pageKey (owner page : Nat) : Nat := page * 2048 + owner

/-- The two parity places of a page of this place. -/
def Block.parityPlaces (b : Block) (page : Nat) : List Nat :=
  let l := b.others
  let c := Config.ropeStripe b.place page
  match l with
  | [] => []
  | _ =>
    let i := c.2.2.1 % l.length
    let j := (i + 1 + c.2.2.2 % max 1 (l.length - 1)) % l.length
    nub [l.getD i 0, l.getD j 0]

/-- The page's durable data is part of a rope stripe other than by its log copy: home copies, folded rows, written-back
state and pool pages. -/
def WriteWhat.striped : WriteWhat → Bool
  | .logPage _ _ | .scatter _ _ | .copy _ _ => false
  | .home _ _ | .stateTile _ _ _ _ | .stateBack _ _ _ _ | .poolPage _ _ _ | .poolBack _ _ _ | .fold _ _ _ => true

/-- A new or freed page told to its two parity places, which fold it into P and Q, or out of them again. -/
def Block.tellParity (b : Block) (zone row : Nat) (m : Member) : Block :=
  match m.what with
  | some w =>
    if w.striped ∧ b.joined then
      let key := pageKey 1024 (zone * 65536 + row * 16 + m.bay)
      (b.parityPlaces key).foldl (fun b p =>
        b.send { toward := .place p, cls := 5, kind := .parity, args := [key], data := m.data.take 16384 }) b
    else b
  | none => b

/-! ## Writes -/

/-- A page queued for programming. -/
def Block.queueWrite (b : Block) (what : WriteWhat) (data : Bytes) : Block :=
  { b with ftl := { b.ftl with writes := snoc b.ftl.writes ⟨what, data⟩ } }

/-! ## Channel engines and their slow classes (R184 to R187) -/

/-- The engine of a channel takes items: its page is RUNNING and its bay ONLINE (R184). -/
def Block.engineUp (b : Block) (c : Nat) : Bool := b.running (pFlc c) && b.bayOnline (c / 4)

/-- The engine that serves a channel: its own, or its substitute, the first of c + 4, c + 8, … that is up. -/
def Block.engineFor (b : Block) (c : Nat) : Option Nat :=
  ((List.range 16).map (fun i => (c + 4 * i) % 64)).find? b.engineUp

/-- CH_STATUS.SUBSTITUTED. -/
def Block.substituted (b : Block) (c : Nat) : Bool := !b.engineUp c

/-- The class of an item of classes 2 and 4. -/
def SlowWork.cls : SlowWork → Nat
  | .tile _ _ => 2
  | .move _ | .erase _ _ | .rebuild => 4

/-- The items of classes 2 to 4 in an engine's store: tile reads, pages being programmed, media work (R185). -/
def Block.slowItems (b : Block) (c : Nat) : Nat :=
  (b.engine c).slow.length + (b.ftl.programs.filter (fun p => decide (p.lun.channel.val = c))).length

/-- FLC.QUEUED: the items of an engine's store (R187, R202). -/
def Block.queued (b : Block) (c : Nat) : Nat := (b.engine c).items.length + b.slowItems c

/-- FLC.QUEUED_HIGH follows the items held. -/
def Block.markItems (b : Block) (c : Nat) : Block := b.raiseMark (pFlc c) 0x120 9 (b.queued c)

/-- Items of classes 2 and 4 that wait at their senders enter the store as their 64 shared credits come free, while the engine takes
items (R184, R187). -/
def Block.pullSlow (b : Block) (c : Nat) : Block :=
  let e := b.engine c
  let n := if b.engineUp c then min e.kept.length (64 - b.slowItems c) else 0
  if n = 0 then b
  else (b.setEngine c { e with slow := e.slow ++ e.kept.take n, kept := e.kept.drop n }).markItems c

/-- An item of class 2 or 4 for an engine: kept at its sender until it holds a credit (R187). -/
def Block.queueSlow (b : Block) (c : Nat) (w : SlowWork) : Block :=
  let e := b.engine c
  (b.setEngine c { e with kept := snoc e.kept { work := w } }).pullSlow c

/-- Items of classes 2 and 4 that have ended leave an engine's store and their senders; others take their credits (R187). -/
def Block.endSlow (b : Block) (c : Nat) (p : SlowItem → Bool) : Block :=
  let e := b.engine c
  if e.slow.any p || e.kept.any p then
    (b.setEngine c { e with slow := e.slow.filter (fun i => !p i), kept := e.kept.filter (fun i => !p i) }).pullSlow c
  else b

/-- Items of an engine that take part in no new work there wait at their senders again; a rebuild goes on without the engine. -/
def Engine.putBack (e : Engine) (p : SlowItem → Bool) : Engine :=
  let back : List SlowItem := (e.slow.filter p).map (fun i => { i with served := false })
  { e with slow := e.slow.filter (fun i => !p i), kept := (back ++ e.kept).filter (fun i => decide (i.work ≠ .rebuild)) }

/-- What an engine keeps over a reset or a fault of its page: media work that waits at its sender. -/
def Engine.restart (e : Engine) : Engine :=
  { kept := (e.putBack (fun _ => true)).kept.filter (fun i => decide (i.work.cls = 4)) }

/-- A block's refresh or rewrite, which its engine has to serve in class 4, once (R185, R402, R403). -/
def Block.queueMove (b : Block) (r : BlockRef) : Block :=
  let e := b.engine r.lun.channel.val
  if (e.slow ++ e.kept).any (fun i => decide (i.work = .move r)) then b else b.queueSlow r.lun.channel.val (.move r)

/-- A block's refresh or rewrite has ended, or is cancelled (R405). -/
def Block.endMoving (b : Block) (r : BlockRef) : Block := b.endSlow r.lun.channel.val (fun i => decide (i.work = .move r))

/-- A block's refresh or rewrite has been given channel time (R186). -/
def Block.moveServed (b : Block) (r : BlockRef) : Bool :=
  (b.engine r.lun.channel.val).slow.any (fun i => i.served && decide (i.work = .move r))

/-- An item erases a block. -/
def SlowItem.erases (i : SlowItem) (r : BlockRef) : Bool := match i.work with | .erase x _ => decide (x = r) | _ => false

/-- A block waits for its erase, or is being erased. -/
def Block.erasing (b : Block) (r : BlockRef) : Bool :=
  let e := b.engine r.lun.channel.val
  (e.slow ++ e.kept).any (fun i => i.erases r)

/-- Media work that has been given channel time and has not ended (R413). -/
def Block.mediaStarted (b : Block) : Nat :=
  b.engines.foldl (fun n e => n + (e.2.slow.filter (fun i => i.served && decide (i.work ≠ .rebuild))).length) 0

/-! ## Zones and the zone log -/

/-- One zone changed. -/
def Block.setZone (b : Block) (z : Nat) (f : Zone → Zone) : Block :=
  { b with ftl := { b.ftl with zones := mapIf (fun (x : Zone) => decide (x.number = z)) f b.ftl.zones } }

/-- A zone. -/
def Block.zone (b : Block) (z : Nat) : Option Zone := b.ftl.zones.find? (fun x => decide (x.number = z))

/-- The 32 bytes of a zone record (R398). -/
def zoneRecord (z : Zone) (freed : Bool) : Bytes :=
  toLe z.number 4 ++ toLe ((if freed then 1 else 0) + 4 * z.kind) 1 ++ toLe 0 1 ++ toLe z.object 2 ++ toLe z.version 4 ++
  toLe z.first 4 ++ toLe z.tiles.length 4 ++ List.replicate 12 0

/-- Records in the ring that the driver has not consumed (R399). -/
def Block.zlogUsed (b : Block) : Nat := (b.get pFtl 0x11C + 2 ^ 32 - b.get pFtl 0x120) % 2 ^ 32

/-- No zone record can be taken: the ring is full, or 65,536 are held (R399, R413). -/
def Block.zlogFull (b : Block) : Bool :=
  if b.get pFtl 0x110 = 0 then decide (65536 ≤ b.ftl.held.length) else decide (b.get pFtl 0x118 ≤ b.zlogUsed)

/-- Held zone records written to the ring while it has room (R399, R413). -/
def Block.flushZlog (b : Block) : Block :=
  if b.get pFtl 0x110 = 0 then b
  else
    let n := b.get pFtl 0x118
    let room := n - b.zlogUsed
    let now := b.ftl.held.take room
    let b := now.foldl (fun b r =>
      let b := b.hostWrite (b.get pFtl 0x110 + 32 * (b.get pFtl 0x11C % n)) r
      (b.bump32 pFtl 0x11C).raiseInt pFtl 16) b
    { b with ftl := { b.ftl with held := b.ftl.held.drop now.length } }

/-- A zone record written or held (R398, R413). -/
def Block.zoneLog (b : Block) (r : Bytes) : Block :=
  ({ b with ftl := { b.ftl with held := snoc b.ftl.held r } }).flushZlog

/-- An erase of a block counted. -/
def Block.countErase (b : Block) (r : BlockRef) : Block :=
  let n := ((b.ftl.erases.find? (fun e => decide (e.1 = r))).map (·.2)).getD 0
  let l : List (BlockRef × Nat) := (r, n + 1) :: b.ftl.erases.filter (fun e => decide (e.1 ≠ r))
  let reads : List (BlockRef × Nat) := b.ftl.reads.filter (fun e => decide (e.1 ≠ r))
  let bad : List (BlockRef × Nat × Nat) := b.ftl.bad.filter (fun e => decide (e.1 ≠ r))
  let b := { b with ftl := { b.ftl with erases := l, reads := reads, bad := bad } }
  (b.bump pFtl 1).bump (pBay (r.lun.channel.val / 4)) 6

/-- The block that a zone's block at a bay was opened with: the same lane, target, LUN and block number on every bay (R397). -/
def Zone.blockAt (z : Zone) (bay : Nat) : Option BlockRef :=
  z.place.map (fun p => { p with lun := { p.lun with channel := Fin.ofNat 64 (4 * bay + p.lun.channel.val % 4) } })

/-- Where the FTL's map has a zone's block at a bay (R199, R402). -/
def Block.zoneBlock (b : Block) (z : Zone) (bay : Nat) : Option BlockRef :=
  (z.blockAt bay).map (fun p => ((b.ftl.remap.find? (fun e => decide (e.1 = p))).map (·.2)).getD p)

/-- The sixteen blocks of a zone that has one (R397). -/
def Block.zoneBlocks (b : Block) (z : Zone) : List BlockRef := (List.range 16).filterMap (b.zoneBlock z)

/-- A zone freed: its rows leave the map, its blocks are to be erased in class 4, a refresh or rewrite of them is cancelled (R405), and
its record is written when it was SEALED (R397, R407). -/
def Block.freeZone (b : Block) (z : Nat) (secure : Bool) : Block :=
  match b.zone z with
  | none => b
  | some x =>
    let rest : List Zone := b.ftl.zones.filter (fun y => decide (y.number ≠ z))
    let rows : List StripeRow := b.ftl.rows.filter (fun r => decide (r.zone ≠ z))
    let writes : List FlashWrite := b.ftl.writes.filter (fun w => match w.what with | .home y _ => decide (y ≠ z) | _ => true)
    let progs : List Program := b.ftl.programs.filter (fun p => decide (p.zone ≠ z))
    let blocks := b.zoneBlocks x
    let opened := (List.range 16).filterMap x.blockAt
    let b := (b.ftl.rows.filter (fun r => decide (r.zone = z))).foldl
      (fun b r => r.members.foldl (fun b m => b.tellParity z r.row m) b) b
    let rew : List BlockRef := b.ftl.rewrites.filter (fun r => !decide (r ∈ blocks))
    let map : List (BlockRef × BlockRef) := b.ftl.remap.filter (fun e => !decide (e.1 ∈ opened))
    let b := { b with ftl := { b.ftl with zones := rest, rows := rows, writes := writes, programs := progs, rewrites := rew, remap := map } }
    let b := blocks.foldl (fun b r => (b.endMoving r).queueSlow r.lun.channel.val (.erase r secure)) b
    if x.st = .sealed ∧ !x.log then b.zoneLog (zoneRecord x true) else b

/-- The capacity of a zone opened now: 4,096 tiles fewer for each bay that is absent (R397). -/
def Block.zoneCap (b : Block) : Nat := 57344 - 4096 * b.offlineBays.length

/-- One tile of a home copy put into the zones of its write: into the one being filled, or a new one where the kind
changes, the numbers do not follow, or it is full. -/
def Block.homeTile (b : Block) (owner : ZoneOwner) (object version : Nat) (n : Nat) (tile : Bytes) : Block :=
  let kind := le tile 0 1 % 4
  let mine := b.ftl.zones.reverse.find? (fun (z : Zone) =>
    decide (z.owner = owner ∧ z.object = object ∧ z.version = version ∧ z.kind = kind) &&
    !z.filled && decide (z.first + z.tiles.length = n) && decide (z.tiles.length < z.cap))
  match mine with
  | some z =>
    (b.setZone z.number (fun z => { z with tiles := snoc z.tiles tile })).queueWrite (.home z.number z.tiles.length) tile
  | none =>
    let z : Zone := { number := b.ftl.nextZone, owner := owner, kind := kind, object := object, version := version,
                      first := n, cap := b.zoneCap, tiles := [tile] }
    let zs : List Zone := snoc b.ftl.zones z
    let b := { b with ftl := { b.ftl with zones := zs, nextZone := b.ftl.nextZone + 1 } }
    b.queueWrite (.home z.number 0) tile

/-- The home copy of a run of tiles, given their numbers (R398). -/
def Block.homeTiles (b : Block) (owner : ZoneOwner) (object version : Nat) (tiles : List (Nat × Bytes)) : Block :=
  let first := b.ftl.nextZone
  let b := tiles.foldl (fun b t => b.homeTile owner object version t.1 t.2) b
  let zs : List Zone := mapIf (fun z => decide (first ≤ z.number)) (fun z => { z with filled := true }) b.ftl.zones
  { b with ftl := { b.ftl with zones := zs } }

/-- The zones that hold an object's version. -/
def Block.homeZones (b : Block) (owner : ZoneOwner) (object version : Nat) : List Zone :=
  b.ftl.zones.filter (fun z => decide (z.owner = owner ∧ z.object = object ∧ z.version = version) && !z.log)

/-- Every zone that holds an object's version is SEALED. -/
def Block.homeSealed (b : Block) (owner : ZoneOwner) (object version : Nat) : Bool :=
  (b.homeZones owner object version).all (fun z => decide (z.st = .sealed))

/-- The OPEN zones of an object's version freed; SEALED ones stay until a discard frees them (R397, R407). -/
def Block.freeHome (b : Block) (owner : ZoneOwner) (object version : Nat) : Block :=
  ((b.homeZones owner object version).filter (fun z => decide (z.st = .opened))).foldl (fun b z => b.freeZone z.number false) b

/-- A tile of a SEALED zone, as SOURCE 2 of an extent names it: the zone's tile (first − FIRST_TILE) + t (R400). -/
def Block.sealedTile (b : Block) (z first t : Nat) : Option Bytes :=
  match b.zone z with
  | some x => if x.st = .sealed ∧ x.first ≤ first then x.tiles[first - x.first + t]? else none
  | none => none

/-! ## Rows and steps of the stacks (R157, R160, R161, R170) -/

/-- The DRAM die of a unit (R157). -/
def dieOfUnit (unit : Nat) : Nat := unit / 128

/-- Steps of a segment: 32-byte steps from its first code to its last (R160, R161). -/
def Segment.steps (g : Segment) : Nat := (g.byte + g.count * g.size + 31) / 32 - g.byte / 32

/-- The end of the column group that step `i` of a segment lies in, as a step of the segment (R157). -/
def Segment.groupEnd (g : Segment) (i : Nat) : Nat := (g.byte / 32 + i) / 64 * 64 + 64 - g.byte / 32

/-- The row that step `i` of a segment reads. -/
def Segment.rowOf (g : Segment) (i : Nat) : Nat := g.row + (g.byte / 32 + i) / 256

/-- The codes that the first `t` steps of a segment hold whole (R160). -/
def Segment.codes (g : Segment) (t : Nat) : Nat := min g.count ((32 * (g.byte / 32 + t) - g.byte) / g.size)

/-- The rows that a segment reads: die, bank, row. -/
def Segment.rows (g : Segment) : List (Nat × Nat × Nat) :=
  (List.range (g.rowOf (g.steps - 1) + 1 - g.row)).map (fun i => (dieOfUnit g.unit, g.bank, g.row + i))

/-- The two rows of a code tile. -/
def DramTile.rows (t : DramTile) : List (Nat × Nat × Nat) :=
  [(dieOfUnit t.unit, t.bank, t.row), (dieOfUnit t.unit, t.bank, t.row + 1)]

/-- The index rows of a stack: those of the code tiles in it, and those that a sweep in it still reads (R170). -/
def Block.indexRows (b : Block) (n : Nat) : List (Nat × Nat × Nat) :=
  nub ((b.dramTiles.filter (fun t => decide (t.stack = n))).flatMap DramTile.rows ++
    ((sget {} b.stackSet n).sweeps.filter (fun w => decide (w.state ≠ .returning))).flatMap (·.seg.rows))

/-! ## Media work -/

/-- The zone that a block belongs to, as the FTL's map has it. -/
def Block.zoneAt (b : Block) (r : BlockRef) : Option Zone :=
  b.ftl.zones.find? (fun z => decide (b.zoneBlock z (r.lun.channel.val / 4) = some r))

/-- The FTL programs pages: it is RUNNING, or DRAINING and ends the writes that have started (R413). -/
def Block.takesWrites (b : Block) : Bool := decide (b.pageState pFtl = 2 ∨ b.pageState pFtl = 3) && !b.halted

/-- A block is in a row that is being rebuilt, so that media work on it waits (R395, R405). -/
def Block.rebuilding (b : Block) (r : BlockRef) : Bool :=
  match b.ftl.rebuild, b.zoneAt r with
  | some (bay, _), some z => b.ftl.rows.any (fun s => decide (s.zone = z.number) && s.members.any (fun m => decide (m.now = bay ∨ m.bay = bay)))
  | _, _ => false

/-- Media work may start: FTL is RUNNING and writing is not stopped. -/
def Block.mediaWork (b : Block) : Bool := b.running pFtl && !b.writeStopped

/-- Media work that has started may go on: FTL is RUNNING or DRAINING, and writing is not stopped (R413). -/
def Block.mediaGoes (b : Block) : Bool := b.takesWrites && !b.writeStopped

/-! ## Items of the DRAM tier (R360, R371) -/

/-- Every dirty item of the DRAM tier. -/
def Block.dirtyItems (b : Block) : List Tier :=
  (b.regions.flatMap (fun r => (r.map ++ r.wc).map (·.tier)) ++ b.layers.flatMap (fun l => l.tiles.map (·.tier))).filter
    (fun t => t.dirty && !t.lost)

/-- The stacks whose contents are gone. -/
def Block.deadStacks (b : Block) : List Nat := if b.roles.spare = 3 then 8 :: b.roles.failed else b.roles.failed

/-- A partition's codes are in DRAM: no tile is withdrawn, and no stack that holds one has failed (R175, R200). -/
def Block.dramCopy (b : Block) (d : DramPart) : Bool :=
  !d.withdrawn && d.segments.all (fun g => !decide (g.stack ∈ b.deadStacks))

/-- Bytes of the DRAM tier that may not be evicted (R361): index rows of the stacks that work, pool pages of CURRENT versions
and working copies, dirty state tiles, and the mirrors of dirty items. -/
def Block.dramPinned (b : Block) : Nat :=
  let live := (List.range 9).filter (fun n => !decide (n ∈ b.deadStacks))
  let rows := live.foldl (fun n k => n + (b.indexRows k).length) 0
  let pages := (b.regions.flatMap (fun r => r.map ++ r.wc)).filter (fun p => !p.tier.lost)
  let tiles := (b.layers.flatMap (·.tiles)).filter (fun t => t.tier.dirty && !t.tier.lost)
  let mirrors := b.dirtyItems.filter (fun t => t.mirror.isSome)
  8192 * rows + 16384 * (pages.length + tiles.length + mirrors.length)

/-- The DRAM tier: 64 GB for each stack of S0 to S7 that works, and for S8 once it has taken a failed stack's place (R359,
R370, R371). -/
def Block.dramSize (b : Block) : Nat :=
  64000000000 * (8 - b.roles.failed.length + (if b.roles.spare = 0 then 1 else 0))

/-- FTL.ZONES: the zones that the present cartridges can hold: a block of each lane's channels less the sixteenth kept as spare
(R386, R393, R397), while at most two bays are without a readable cartridge (R391). -/
def Block.zonesHeld (b : Block) : Nat :=
  if ((List.range 16).filter b.bayReads).length < 14 then 0 else 4 * (1862 * 32 / 16 * 15)

/-- Tiles that flash has room for: those of FREE zones and of the log zones being filled, less the pages that wait. -/
def Block.flashRoom (b : Block) : Nat :=
  let fresh := (b.zonesHeld - b.ftl.zones.length) * b.zoneCap
  let used (z : Zone) : Nat := (b.ftl.rows.filter (fun r => decide (r.zone = z.number))).foldl (fun n r => n + (r.members.filter (·.what.isSome)).length) 0
  let room := (b.ftl.zones.filter (fun z => z.log && decide (z.st = .opened))).foldl (fun n z => n + (z.cap - used z)) 0
  fresh + room - b.ftl.writes.length - b.ftl.programs.length

/-- Every tier record changed. -/
def Block.mapTiers (b : Block) (f : Tier → Tier) : Block :=
  let page (p : PoolPage) : PoolPage := { p with tier := f p.tier }
  let tile (t : StateTile) : StateTile := { t with tier := f t.tier }
  { b with regions := b.regions.map (fun r => { r with map := r.map.map page, wc := r.wc.map page })
           layers := b.layers.map (fun l => { l with tiles := l.tiles.map tile }) }

/-- A list changed entry by entry with a value that is carried along. -/
def mapAcc {σ α : Type} (f : σ → α → σ × α) : σ → List α → σ × List α
  | s, [] => (s, [])
  | s, x :: xs => ((mapAcc f (f s x).1 xs).1, (f s x).2 :: (mapAcc f (f s x).1 xs).2)

/-- Every tier record changed in order, with a value that is carried along. -/
def Block.mapTiersAcc {σ : Type} (b : Block) (f : σ → Tier → σ × Tier) (s : σ) : Block :=
  let page (s : σ) (p : PoolPage) : σ × PoolPage := ((f s p.tier).1, { p with tier := (f s p.tier).2 })
  let tile (s : σ) (t : StateTile) : σ × StateTile := ((f s t.tier).1, { t with tier := (f s t.tier).2 })
  let region (s : σ) (r : Region) : σ × Region :=
    let m := mapAcc page s r.map
    let w := mapAcc page m.1 r.wc
    (w.1, { r with map := m.2, wc := w.2 })
  let layer (s : σ) (l : Layer) : σ × Layer := ((mapAcc tile s l.tiles).1, { l with tiles := (mapAcc tile s l.tiles).2 })
  let rs := mapAcc region s b.regions
  { b with regions := rs.2, layers := (mapAcc layer rs.1 b.layers).2 }

/-! ## Where pages lie (R183, R388, R394) -/

/-- A page that this stand-in could not decode (R445). -/
def Block.pageGone (b : Block) (p : LostPage) : Bool := decide (p ∈ b.ftl.gone)

/-- The stripe row and the member that hold a page. -/
def Block.pageSite (b : Block) (p : WriteWhat → Bool) : Option (StripeRow × Member) :=
  b.ftl.rows.findSome? (fun r => (r.members.find? (fun m => (m.what.map p).getD false)).map (fun m => (r, m)))

/-- The home copy of a tile of an object's version. -/
def Block.homeSite (b : Block) (owner : ZoneOwner) (object version t : Nat) : Option (StripeRow × Member) :=
  ((b.homeZones owner object version).find? (fun z => decide (z.first ≤ t ∧ t < z.first + z.tiles.length))).bind (fun z =>
    b.pageSite (fun w => decide (w = .home z.number (t - z.first))))

/-- The home copy of a tile of an index version: in the zone that its manifest names, or in the version's own (R183, R400). -/
def Block.tileSite (b : Block) (v : Version) (t : Nat) : Option (StripeRow × Member) :=
  match v.extents.find? (fun e => decide (e.first ≤ t ∧ t < e.first + e.count ∧ e.source = 2)) with
  | some e => (b.zone e.addr).bind (fun z => b.pageSite (fun w => decide (w = .home z.number (t - z.first))))
  | none => b.homeSite .index v.root.index v.root.version t

/-- The channel that a page was written on: its home channel (R183). -/
def Block.siteChannel (b : Block) (x : StripeRow × Member) : Option Nat :=
  ((b.zone x.1.zone).bind (fun z => z.blockAt x.2.bay)).map (fun r => r.lun.channel.val)

/-- The block and the page in it where a member lies, while it has not been rebuilt elsewhere (R388). -/
def Block.siteAddress (b : Block) (x : StripeRow × Member) : Option (BlockRef × Nat) :=
  if x.2.now = x.2.bay then ((b.zone x.1.zone).bind (fun z => b.zoneBlock z x.2.bay)).map (fun r => (r, x.1.row)) else none

/-- The channel that a member of a row lies on: its bay's channel of the zone's lane (R390). -/
def Block.memberChannel (b : Block) (s : StripeRow) (m : Member) : Nat :=
  4 * m.now + (((b.zone s.zone).bind (·.place)).map (fun r => r.lun.channel.val % 4)).getD 0

/-- A codeword of a page is known to be uncorrectable until its block has been rewritten (R195). -/
def Block.wordBad (b : Block) (x : StripeRow × Member) (k : Nat) : Bool :=
  match b.siteAddress x with | some a => decide ((a.1, a.2, k) ∈ b.ftl.bad) | none => false

/-- The members that codeword k of a page is read from by the engine of its home channel (`own`) or by a substitute: the page itself,
where a copy of it can be read (`now` says where), or else, degraded, as many others of its row as it takes; of those, the first
whose engines take items (DESIGN CHOICE, log 134). None where the codeword is known to be uncorrectable, or too few members can be
read (R184, R195, R394). -/
def Block.readFrom (b : Block) (own : Bool) (x : StripeRow × Member) (k : Nat) : Option (List Member) :=
  let need := x.1.members.length - 2
  let others := x.1.members.filter (fun m => decide (m.bay ≠ x.2.bay) && !b.memberGone m && !b.wordBad (x.1, m) k)
  let up (m : Member) : Bool := b.engineUp (b.memberChannel x.1 m)
  let l := (others.filter up ++ others.filter (fun m => !up m)).take (max 1 need)
  if b.wordBad x k then none
  else match b.copyBay own x.2 with
  | some n => some [{ x.2 with now := n }]
  | none => if !x.1.parity ∨ 3 ≤ (b.lostMembers x.1).length ∨ l.length < need then none else some l

/-- A page can be read whole: each of its four codewords can, by its home channel's engine or a substitute (R388, R394). -/
def Block.pageReadable (b : Block) (x : StripeRow × Member) : Bool :=
  let own := match b.siteChannel x with | some c => b.engineUp c | none => true
  (List.range 4).all (fun k => (b.readFrom own x k).isSome)

/-- Codewords read by an engine: the bytes count there and at the bays that they come from (FLC CNT3, BAY CNT4). -/
def Block.countWords (b : Block) (c : Nat) (l : List Member) : Block :=
  (l.map (·.now)).foldl (fun b n => b.bump (pBay n) 4 4096) (b.bump (pFlc c) 3 (4096 * l.length))

/-- A page read whole by an engine counted. -/
def Block.countPage (b : Block) (c : Nat) (own : Bool) (x : StripeRow × Member) : Block :=
  (List.range 4).foldl (fun b k => b.countWords c ((b.readFrom own x k).getD [])) b

/-- A page as an item names it. -/
def Block.flashPage (b : Block) (x : StripeRow × Member) : Option FlashPage :=
  (b.siteChannel x).map (fun c => ⟨c, x.1.zone, x.1.row, x.2.bay⟩)

/-- The page that an item names, while it holds one. -/
def Block.pageAt (b : Block) (p : FlashPage) : Option (StripeRow × Member) :=
  (b.ftl.rows.find? (fun r => decide (r.zone = p.zone ∧ r.row = p.row))).bind (fun r =>
    (r.members.find? (fun m => decide (m.bay = p.bay))).map (fun m => (r, m)))

/-- A tile read of class 2 sent to the engine that serves its page's channel; with none it ends (R184, R185). -/
def Block.queueTile (b : Block) (p : FlashPage) (stages : Option (Nat × Nat × Nat)) : Block :=
  match b.engineFor p.channel with | some c => b.queueSlow c (.tile p stages) | none => b

/-- A tile read from its home copy, where flash holds one, in class 2. -/
def Block.readHome (b : Block) (x : Option (StripeRow × Member)) (stages : Option (Nat × Nat × Nat) := none) : Block :=
  match x.bind b.flashPage with | some p => b.queueTile p stages | none => b

/-! ## Clean copies in the DRAM tier (R359, R361, R362) -/

/-- RPT of a row size (R322). -/
def rowsPerTile (rowBytes : Nat) : Nat := max 1 (16384 / max 1 rowBytes)

/-- The latest version, no later than some version, whose fold wrote a tile that holds a row (R322): versions share the rows that
did not change between them (R324). -/
def Block.foldOf (b : Block) (table version row : Nat) : Option Nat :=
  let ws := b.ftl.rows.flatMap (fun r => r.members.filterMap (·.what)) ++ (b.ftl.programs.map (·.write) ++ b.ftl.writes).map (·.what)
  ws.foldl (fun best w => match w with
    | .fold t v rows => if t = table ∧ v ≤ version ∧ row ∈ rows ∧ best.getD 0 < v then some v else best
    | _ => best) none

/-- Bytes of a vector element of VEC_FMT (R88). -/
def elemSize (fmt : Nat) : Nat := if fmt < 3 then 1 else 2

/-- The tile of a candidate's full vector, in the version's vector tiles or the side list's, and its offset there (R92, R102). -/
def vectorAt (r : Root) (e : Entry) : Nat × Nat :=
  let n := r.dim * elemSize r.fmt
  let per := 16384 / n
  ((if e.part = noPart then 2 ^ 33 else r.vecTile) + e.number / per, e.number % per * n)

/-- PRIO of an index (R352, R357). -/
def Block.indexPrio (b : Block) (ix : Nat) : Nat := b.fld pPlc 0x110 (2 * ix) 2

/-- The tiles of an index version that a channel item reads: those of its candidates' full vectors, or what annotating the partition
takes, but for its code tiles (R192 to R194). -/
def Block.itemKeys (b : Block) (w : ItemWork) : List CacheKey :=
  match w with
  | .refine r => match (b.index r.index).version r.version with
    | some v => r.cands.map (fun e => .index r.index r.version (vectorAt v.root e).1)
    | none => []
  | .cold r => match (b.index r.index).version r.version with
    | some v => match v.part r.part with
      | some p =>
        let area (base size : Nat) : List CacheKey :=
          let per := max 1 (16384 / max 1 size)
          (span (base + p.first / per) ((p.first + p.slots.length) / per + 1 - p.first / per)).map (.index r.index r.version)
        area v.root.idTile 8 ++ (if r.terms = [] then [] else area v.root.attrTile v.root.attrBytes)
      | none => []
    | none => []

/-- A copy may not be evicted: a channel item is reading it, or a prefetch holds it (R330, R361). -/
def Block.cacheKept (b : Block) (k : CacheKey) : Bool :=
  b.engines.any (fun e => e.2.items.any (fun i => decide (i.state ≠ .returning ∧ k ∈ b.itemKeys i.work))) ||
  (match k with
   | .row n v t => b.tables.any (fun x => decide (x.number = n) && x.held.any (fun h =>
       decide (h.1 / rowsPerTile x.rowBytes = t ∧ (b.foldOf n h.2.1 h.1).getD 1 = v)))
   | _ => false)

/-- PRIO of a tile (R352): its index's, its table's, its layer's; weight tiles, which have none, count as PRIO 3 (DESIGN CHOICE,
log 31). -/
def Block.cachePrio (b : Block) (k : CacheKey) : Nat :=
  match k with
  | .index n _ _ => b.indexPrio n
  | .row n _ _ => ((b.tables.find? (fun t => decide (t.number = n))).map (·.prio)).getD 0
  | .state o l _ _ => ((b.layers.find? (fun x => decide (x.object = o ∧ x.layer = l))).map (·.prio)).getD 0
  | .weight _ _ _ => 3

/-- Bytes of the DRAM tier that may not be evicted now: its own, and copies in use. -/
def Block.dramFixed (b : Block) : Nat := b.dramPinned + 16384 * (b.cache.filter (fun c => b.cacheKept c.key)).length

/-- The bytes that the DRAM tier may hold: all but the share that POLICY.DRAM_RESERVE keeps free (R352). -/
def Block.dramCap (b : Block) : Nat := b.dramSize * (100 - b.fld pPlc 0x104 16 8) / 100

/-- The DRAM tier runs short for some more bytes: they do not fit beside what may not be evicted (R352, R362). -/
def Block.dramShort (b : Block) (n : Nat) : Bool := decide (b.dramCap < b.dramFixed + n)

/-- A clean copy is in the DRAM tier. -/
def Block.cached (b : Block) (k : CacheKey) : Bool := b.cache.any (fun c => decide (c.key = k))

/-- The order of eviction: ascending PRIO, and within one the least recently used first (R361). -/
def Block.evictFirst (b : Block) (x y : Cached) : Bool :=
  decide (b.cachePrio x.key < b.cachePrio y.key) || (decide (b.cachePrio x.key = b.cachePrio y.key) && decide (x.used < y.used))

/-- Clean copies evicted so that some more bytes fit (R361). -/
def Block.evict (b : Block) (n : Nat) : Block :=
  let free := b.cache.filter (fun c => !b.cacheKept c.key)
  let gone := (sortBy b.evictFirst free).take (free.length - (b.dramCap - b.dramFixed - n) / 16384)
  if gone = [] then b else { b with cache := b.cache.filter (fun c => !decide (c ∈ gone)) }

/-- A copy used now. -/
def Block.touch (b : Block) (k : CacheKey) : Block :=
  if b.cached k then { b with cache := mapIf (fun c => decide (c.key = k)) (fun c => { c with used := b.meter }) b.cache } else b

/-- A clean copy put into the DRAM tier, others being evicted for it, unless it runs short (R361, R362). -/
def Block.addCopy (b : Block) (k : CacheKey) : Block :=
  if b.cached k then b.touch k
  else if b.dramShort 16384 then b
  else
    let b := b.evict 16384
    { b with cache := snoc b.cache { key := k, used := b.meter } }

/-- A tile staged into the DRAM tier (PLC CNT7), unless it is there or the tier runs short. -/
def Block.stageCopy (b : Block) (k : CacheKey) : Block :=
  if b.cached k || b.dramShort 16384 then b.addCopy k else (b.addCopy k).bump pPlc 7

/-- Copies of what has gone leave. -/
def Block.uncache (b : Block) (p : CacheKey → Bool) : Block := { b with cache := b.cache.filter (fun c => !p c.key) }

/-- A tile that a consumer reads: from the DRAM tier where it is cached there, or else from flash in class 2, which brings it there; where
the tier runs short it goes on to its consumer only (R185, R362). -/
def Block.fetchTile (b : Block) (k : CacheKey) (x : Option (StripeRow × Member)) : Block :=
  if b.cached k then b.touch k else (b.readHome x).stageCopy k

end Sys2Proof.Machine
end

