-- ==== Sys2Proof/Machine/Clusters.lean ====
section
/-! DEFINITION. Clusters and matrix cores as other subsystems see them (R255, R306), and the threads of search contexts
(R256, R259, R260). -/

namespace Sys2Proof.Machine

/-! ## Jobs and bound units -/

/-- A job that is not ABSENT. -/
def Block.job (b : Block) (j : Nat) : Option Job := sget none b.cores.jobs j

/-- A job given a state; `none` makes it ABSENT. -/
def Block.putJob (b : Block) (j : Nat) (x : Option Job) : Block :=
  { b with cores := { b.cores with jobs := sset none b.cores.jobs j x } }

/-- A job changed. -/
def Block.setJob (b : Block) (j : Nat) (f : Job → Job) : Block :=
  match b.job j with | some x => b.putJob j (some (f x)) | none => b

/-- One matrix core. -/
def Block.mxc (b : Block) (n : Nat) : Mxc := sget {} b.cores.mxcs n

/-- One matrix core changed. -/
def Block.setMxc (b : Block) (n : Nat) (x : Mxc) : Block :=
  { b with cores := { b.cores with mxcs := sset {} b.cores.mxcs n x } }

/-- The jobs that are not ABSENT, with their numbers. -/
def Block.jobList (b : Block) : List (Nat × Job) := b.cores.jobs.filterMap (fun e => e.2.map (fun x => (e.1, x)))

/-- The job a cluster is bound to. -/
def Block.clusterJob (b : Block) (c : Nat) : Option (Nat × Job) := b.jobList.find? (fun e => decide (c ∈ e.2.clusters))

/-- The job a matrix core is bound to. -/
def Block.mxcJob (b : Block) (m : Nat) : Option (Nat × Job) := b.jobList.find? (fun e => decide (m ∈ e.2.mxcs))

/-- Fenced cores of a cluster. -/
def Block.fencedCores (b : Block) (c : Nat) : List Nat := sget [] b.cores.fenced c

/-! ## Weight SRAM (R286 to R288, R306) -/

/-- Granules that a weight tile takes (R286, R315): its GRAN; those of the codebook forms follow from LEN. -/
def tileGran (t : Bytes) : Nat :=
  if le t 1 1 = 0x10 ∨ le t 1 1 = 0x11 ∨ le t 1 1 = 0x12 then max 1 (le t 0x21 1) else max 1 ((le t 4 4 + 2047) / 2048)

/-- A tile put into weight SRAM from a granule; what it overlaps goes. -/
def Mxc.land (y : Mxc) (g : Nat) (t : Bytes) : Mxc :=
  let clear (e : Nat × Bytes) : Bool := decide (e.1 + tileGran e.2 ≤ g ∨ g + tileGran t ≤ e.1)
  { y with tiles := sset [] (y.tiles.filter clear) g t }

/-- The first granules of a run of tiles that start at a granule. -/
def granules : Nat → List Bytes → List (Nat × Bytes)
  | _, [] => []
  | g, t :: ts => (g, t) :: granules (g + tileGran t) ts

/-- Tiles landed in the weight SRAM of a matrix core counted: CNT3, and CNT4 for their bytes (R308). -/
def Block.countLanded (b : Block) (m : Nat) (ts : List Bytes) : Block :=
  (b.bump (pMxc m) 3 ts.length).bump (pMxc m) 4 (ts.foldl (fun n t => n + le t 4 4) 0)

/-- The codebook tiles of the mounted versions, in their order (R306): KIND 0, FORM 1 or 2. -/
def Block.codebookTiles (b : Block) : List Bytes :=
  b.indexes.flatMap (fun e => (e.2.versions.filter (fun v => decide (v.state ≠ .mounting))).flatMap (fun v =>
    (v.tiles.filter (fun t => decide (le t.2 0 1 % 4 = 0 ∧ (le t.2 1 1 = 1 ∨ le t.2 1 1 = 2)))).map (·.2)))

/-- The codebook tiles in the weight SRAM of a matrix core that serves search, from granule 0, as far as they fit (R306; the module
places them: DESIGN CHOICE, log 142). -/
def Block.codebooksOn (b : Block) (m : Nat) : List (Nat × Bytes) :=
  if (b.mxcJob m).isSome ∨ !b.running (pMxc m) then []
  else (granules 0 b.codebookTiles).filter (fun g => decide (g.1 + tileGran g.2 ≤ 512))

/-- The weight SRAM of a matrix core, with the codebooks that one holds which serves search. -/
def Block.weights (b : Block) (m : Nat) : Mxc :=
  (b.codebooksOn m).foldl (fun (y : Mxc) g => y.land g.1 g.2) (b.mxc m)

/-- A matrix core begins to serve search: the codebooks land in its weight SRAM (R306). -/
def Block.landCodebooks (b : Block) (m : Nat) : Block := b.countLanded m ((b.codebooksOn m).map (·.2))

/-- A version has been mounted: its codebooks land in the cores that serve search (R306). -/
def Block.landNew (old b : Block) : Block :=
  let new := b.codebookTiles.filter (fun t => !decide (t ∈ old.codebookTiles))
  if new = [] then b
  else (List.range 64).foldl (fun b m => b.countLanded m (((b.codebooksOn m).map (·.2)).filter (fun t => decide (t ∈ new)))) b

/-- The code store of a cluster given contents (R254). -/
def Block.loadStore (b : Block) (c : Nat) (x : CodeStore) : Block :=
  { b with cores := { b.cores with stores := sset .empty b.cores.stores c x } }

/-- A cluster that serves search gets the search firmware, one bound to a job the job's code (R254, R255). -/
def Block.loadCode (b : Block) (c : Nat) : Block :=
  b.loadStore c (match b.clusterJob c with | some e => .job e.2.code | none => .firmware)

/-- Bytes of what goes through a cluster's port (R254, CNT6). -/
def Block.portBytes (b : Block) (c n : Nat) : Block := b.bump (pScl c) 6 n

/-- What a tier request, a remote signal or an issued operation takes of a cluster's port: one handshake of 64 B (R254; DESIGN
CHOICE, log 158). -/
def Block.portMessage (b : Block) (c : Nat) : Block := b.portBytes c 64

/-! ## Threads of search contexts (R237, R255, R256, R258, R259) -/

/-- What stands for a context where a thread, a signal or a step names its job: jobs are 0 to 63. -/
def ctxOwner (ctx : Nat) : Nat := 64 + ctx

/-- The cluster serves search: RUNNING and bound to no job (R255). -/
def Block.servesSearch (b : Block) (c : Nat) : Bool := b.unitRuns (pScl c) && (b.clusterJob c).isNone

/-- The threads of search contexts on a cluster. -/
def Block.searchThreads (b : Block) (c : Nat) : List Thread :=
  b.cores.threads.filter (fun y => decide (64 ≤ y.job) && decide (y.ref.cluster.val = c))

/-- The thread of a search context on a core: the module gives each a core of its own (DESIGN CHOICE, log 140). -/
def Block.searchThread (b : Block) (c u : Nat) : Option Thread :=
  b.cores.threads.find? (fun y => decide (64 ≤ y.job) && decide (y.ref.cluster.val = c ∧ y.ref.core.val = u))

/-- The core that the next thread of a search context takes: on a cluster of its die that serves search, or else of the other
die, the highest-numbered first, the lowest core that is not fenced and holds no thread (DESIGN CHOICE, log 140). -/
def Block.searchCore (b : Block) (die : Nat) : Option (Nat × Nat) :=
  let clusters (d : Nat) : List Nat := (List.range 256).map (fun i => 256 * d + 255 - i)
  (clusters die ++ clusters (1 - die)).findSome? (fun c =>
    if b.servesSearch c then
      ((List.range 576).find? (fun u => !decide (u ∈ b.fencedCores c) && (b.searchThread c u).isNone)).map (fun u => (c, u))
    else none)

/-- A number for each thread of a context. -/
def SearchRole.code : SearchRole → Nat
  | .control q => 4 * q
  | .walk s => 4 * s + 1
  | .slice n => 4 * n + 2
  | .collect _ => 3

/-- Bytes of the frame of a context's thread: 7 KiB for a slice, else the whole local store (DESIGN CHOICE, log 140). -/
def SearchRole.room : SearchRole → Nat
  | .slice _ => 7168
  | _ => 8192

/-- BOUND and INIT that the firmware assigns to counter k of a context's thread's core: in their ranges (R261), and for
counter 12 of a collector the number of slices and 0, as the worked example of chapter 10 has it. -/
def SearchStart.ctr (e : SearchStart) (k : Nat) : Nat × Nat :=
  let v := Config.searchCtr e.ctx e.role.code k
  let free := (max 1 v.1.toNat, min (max 1 v.1.toNat) v.2.toNat)
  match e.role with
  | .collect n => if k = 12 then (n, 0) else free
  | _ => free

/-- A context's thread at its start (R258): its registers are what the query pipeline gives it, its frame is 0. -/
def SearchStart.thread (e : SearchStart) (t : ThreadRef) : Thread :=
  { ref := t, job := ctxOwner e.ctx, role := some e.role, room := e.role.room, ctrs := (List.range 48).map e.ctr
    s := (List.range 32).map (Config.searchReg e.ctx e.role.code)
    v := (List.range 16).map (Config.searchVec e.ctx e.role.code), frame := [] }

/-- A thread of a context started where a core is free, or else left waiting (R256, R259). -/
def Block.startSearchThread (b : Block) (e : SearchStart) : Block :=
  match b.searchCore e.die with
  | none =>
    let l : List SearchStart := snoc b.cores.starts e
    { b with cores := { b.cores with starts := l } }
  | some (c, u) =>
    let l : List Thread := snoc b.cores.threads (e.thread ⟨Fin.ofNat 512 c, Fin.ofNat 576 u, 0⟩)
    let b := { b with cores := { b.cores with threads := l } }
    (b.bump (pScl c) 1).raiseMark (pScl c) 0x110 12 (b.searchThreads c).length

/-- The threads that wait for a core started where there is room now, the oldest first. -/
def Block.placeStarts (b : Block) : Block :=
  b.cores.starts.foldl Block.startSearchThread { b with cores := { b.cores with starts := [] } }

/-- Threads of a context that have not found a core yet. -/
def Block.unstarted (b : Block) (ctx : Nat) (p : SearchRole → Bool) : Bool :=
  b.cores.starts.any (fun e => decide (e.ctx = ctx) && p e.role)

/-- The thread computes part of a side pool (R237). -/
def SearchRole.ofSide : SearchRole → Bool
  | .slice _ | .collect _ => true
  | _ => false

/-! ## Staging SRAM (R249, R363) -/

/-- Staging SRAM of a die. -/
def Block.staging (b : Block) (die : Nat) : Memory := sget [] b.cores.staging die

/-- Bytes written to the staging SRAM of a die for some work: the span is that work's until it ends (R363). -/
def Block.putStaging (b : Block) (owner die addr : Nat) (bs : Bytes) : Block :=
  let x : StagingSpan := ⟨owner, die, addr, bs.length⟩
  { b with cores := { b.cores with staging := sset [] b.cores.staging die (Memory.write (b.staging die) addr bs)
                                   spans := if x ∈ b.cores.spans then b.cores.spans else x :: b.cores.spans } }

/-- A span zeroed but for the bytes that other work has written too. -/
def Block.zeroSpan (b : Block) (others : List StagingSpan) (x : StagingSpan) : Block :=
  let used (a : Nat) : Bool := others.any (fun y => decide (y.die = x.die ∧ y.addr ≤ a ∧ a < y.addr + y.len))
  let mem := b.staging x.die
  let bytes := (span x.addr x.len).map (fun a => if used a then mem.byte a else 0)
  { b with cores := { b.cores with staging := sset [] b.cores.staging x.die (Memory.write mem x.addr bytes) } }

/-- The staging SRAM of work that has ended or was dropped is freed, and zeroed at once: the spec has it zeroed before its next use
(R363; DESIGN CHOICE, log 163). -/
def Block.freeStaging (b : Block) (p : Nat → Bool) : Block :=
  let gone := b.cores.spans.filter (fun x => p x.owner)
  let rest : List StagingSpan := b.cores.spans.filter (fun x => !p x.owner)
  gone.foldl (fun b x => b.zeroSpan rest x) { b with cores := { b.cores with spans := rest } }

/-! ## The end of threads (R249, R260) -/

/-- The moves in flight of a thread that has executed END go on, with the frame's bytes as they are then (R249). -/
def endMoves (t : ThreadRef) (frame : Memory) (l : List MoveRun) : List MoveRun :=
  mapIf (fun m => decide (m.thread = t) && m.after.isNone) (fun m => { m with after := some (Memory.read frame m.addr m.len) }) l

/-- Threads of search contexts end with their work, or are killed (R260): slots, frames and counters are freed, and with its
counters the signals in flight to them and those of its moves and tier requests go; of a killed thread the data of these is
discarded. -/
def Block.endSearchThreads (b : Block) (p : Thread → Bool) (killed : Bool) : Block :=
  let k := b.cores
  let gone := k.threads.filter (fun y => decide (64 ≤ y.job) && p y)
  if gone.isEmpty then b
  else
    let mine (t : ThreadRef) : Bool := gone.any (fun y => decide (y.ref = t))
    let core (c u : Nat) : Bool := gone.any (fun y => decide (y.ref.cluster.val = c ∧ y.ref.core.val = u))
    let hit (s : Signal) : Bool := match s.target with | .core c u _ => core c.val u.val | .matrix _ _ => false
    let ended := gone.foldl (fun l y => endMoves y.ref y.frame l) k.moves
    let b := { b with cores := { k with
      threads := k.threads.filter (fun y => !(decide (64 ≤ y.job) && p y))
      ctrs    := k.ctrs.filter (fun e => !core e.1.1 e.1.2.1)
      signals := k.signals.filter (fun s => !hit s)
      moves   := mapIf (fun m => mine m.thread) (fun m => { m with killed := m.killed || killed && m.after.isNone, quiet := true })
                   (if killed then k.moves else ended)
      tiles   := mapIf (fun m => mine m.thread) (fun m => { m with killed := m.killed || killed, quiet := true }) k.tiles } }
    if killed then gone.foldl (fun b y => b.bump (pScl y.ref.cluster.val) 2) b else b

/-- Queued steps removed from their matrix cores (R303, R306, CNT7). -/
def Block.dropSteps (b : Block) (p : Step → Bool) : Block :=
  b.cores.mxcs.foldl (fun b e =>
    let n := (e.2.steps.filter p).length
    if n = 0 then b
    else (b.setMxc e.1 { e.2 with steps := e.2.steps.filter (fun s => !p s) }).bump (pMxc e.1) 7 n) b

/-- Everything the cores hold for some contexts goes: threads, killed where the contexts are dropped, steps, and staging SRAM (R259,
R260, R306, R363). -/
def Block.endCtxThreads (b : Block) (ctxs : List Nat) (killed : Bool) : Block :=
  if ctxs.isEmpty then b else
  let mine (j : Nat) : Bool := decide (64 ≤ j) && decide (j - 64 ∈ ctxs)
  let starts : List SearchStart := b.cores.starts.filter (fun e => !decide (e.ctx ∈ ctxs))
  let b := { b with cores := { b.cores with starts := starts, signals := b.cores.signals.filter (fun s => !mine s.job) } }
  ((b.dropSteps (fun s => mine s.job)).endSearchThreads (fun y => mine y.job) killed).freeStaging mine

end Sys2Proof.Machine
end

