-- ==== Sys2Proof/Machine/Commands.lean ====
section
/-! DEFINITION. Commands in flight: the descriptor's fields (R54, R55), messages out, results, and the end of a command
with its completion record (R59 to R62). -/

namespace Sys2Proof.Machine

/-! ## Status codes (R62) -/

abbrev stOk := 0x00
abbrev stShort := 0x01
abbrev stLate := 0x02
abbrev stTierFault := 0x03
abbrev stDisabled := 0x04
abbrev stAuth := 0x05
abbrev stDuplicate := 0x06
abbrev stStale := 0x07
abbrev stNoLease := 0x08
abbrev stPoliced := 0x09
abbrev stCreditViolation := 0x0A
abbrev stBadCommand := 0x0B
abbrev stSyncFault := 0x0C
abbrev stMoved := 0x0D
abbrev stPeerLost := 0x0E
abbrev stAborted := 0x0F
abbrev stOutOfRange := 0x10
abbrev stThrottled := 0x11

/-- The status carries results: COUNT may be non-zero (R62). -/
def hasResults (st : Nat) : Bool := decide (st = stOk) || decide (st = stShort) || decide (st = stMoved)

/-! ## The descriptor -/

/-- A reference of R55. -/
structure Ref where
  addr  : Nat
  len   : Nat
  space : Nat
  resv  : Nat
deriving DecidableEq, Repr

/-- The reference at an offset of the descriptor. -/
def refAt (raw : Bytes) (off : Nat) : Ref :=
  ⟨le raw off 8, le raw (off + 8) 4, nbits (le raw (off + 12) 4) 0 2, nbits (le raw (off + 12) 4) 2 30⟩

def Cmd.opcode (c : Cmd) : Nat := le c.raw 0 1
def Cmd.resValid (c : Cmd) : Bool := decide (nbits (le c.raw 1 1) 0 1 = 1)
def Cmd.payValid (c : Cmd) : Bool := decide (nbits (le c.raw 1 1) 1 1 = 1)
def Cmd.tag (c : Cmd) : Nat := le c.raw 2 2
def Cmd.budget (c : Cmd) : Nat := le c.raw 4 3
def Cmd.cls (c : Cmd) : Nat := nbits (le c.raw 7 1) 0 3
def Cmd.seq (c : Cmd) : Nat := le c.raw 8 4
def Cmd.object (c : Cmd) : Nat := le c.raw 12 2
def Cmd.pay (c : Cmd) : Ref := refAt c.raw 0x10
def Cmd.res (c : Cmd) : Ref := refAt c.raw 0x20
/-- PARAMS [lo + w - 1 : lo]. -/
def Cmd.param (c : Cmd) (lo w : Nat) : Nat := nbits (le c.raw 0x30 16) lo w

/-- The opcodes of R57. -/
def opcodes : List Nat :=
  [0x10, 0x11, 0x12, 0x13, 0x20, 0x21, 0x22, 0x23, 0x24, 0x25, 0x26, 0x30, 0x31, 0x32, 0x33, 0x34, 0x40, 0x41, 0x42,
   0x50, 0x51, 0x52, 0x53, 0x54, 0x55, 0x60, 0x61, 0x70, 0x71, 0x72]

/-- The opcode changes module state (R57). -/
def mutating (op : Nat) : Bool :=
  decide (op ∈ [0x20, 0x21, 0x22, 0x23, 0x24, 0x25, 0x26, 0x31, 0x32, 0x33, 0x40, 0x41, 0x42, 0x50, 0x51, 0x52, 0x53,
    0x54, 0x60, 0x61, 0x72])

/-- The opcode is accepted from a port alone (R57). -/
def driverOnly (op : Nat) : Bool := decide (op ∈ [0x25, 0x26, 0x61])

/-- The references an opcode needs (R56): payload, result. -/
def needsRefs (op : Nat) : Bool × Bool :=
  if op ∈ [0x10, 0x11, 0x12, 0x13, 0x30] then (true, true)
  else if op ∈ [0x20, 0x21, 0x22, 0x25, 0x31, 0x32, 0x34, 0x40, 0x54] then (true, false)
  else if op = 0x50 ∨ op = 0x55 then (false, true)
  else (false, false)

/-- The reserved bits of PARAMS, as lowest bit and width, by opcode (R114, R116, R118, R122, R206, R226, R240, R268, R269,
R272, R326, R331, R338, R365, R376, R377, R406). R118 does not say it of INDEX_RETIRE's [127:32] (DESIGN CHOICE, log 149). -/
def reservedParams (op : Nat) : List (Nat × Nat) :=
  if op ∈ [0x10, 0x11, 0x12] then [(116, 12)]
  else if op = 0x13 then [(25, 7), (49, 15), (81, 15)]
  else if op ∈ [0x20, 0x21, 0x22, 0x40] then [(0, 128)]
  else if op = 0x23 then [(112, 16)]
  else if op = 0x24 then [(65, 63)]
  else if op = 0x25 ∨ op = 0x26 ∨ op = 0x53 then [(32, 96)]
  else if op = 0x30 ∨ op = 0x34 then [(49, 15), (64, 64)]
  else if op = 0x31 ∨ op = 0x32 then [(49, 79)]
  else if op = 0x33 then [(34, 94)]
  else if op = 0x41 ∨ op = 0x42 then [(1, 127)]
  else if op = 0x50 then [(2, 6), (14, 2), (85, 43)]
  else if op = 0x51 ∨ op = 0x52 then [(66, 62)]
  else if op = 0x54 ∨ op = 0x55 then [(10, 6), (27, 5), (48, 80)]
  else if op = 0x60 ∨ op = 0x61 then [(2, 30), (96, 32)]
  else []

/-- A valid reference breaks R56 or R8. -/
def badRef (b : Block) (atPort : Bool) (r : Ref) : Bool :=
  decide (r.addr % 64 ≠ 0) || decide (r.len = 0) || decide (r.space = 3) || decide (r.resv ≠ 0) ||
  (if atPort then decide (r.space = 2) else decide (r.space = 0)) ||
  (decide (r.space = 0) &&
    (decide (r.addr < b.get pHlk 0x110) || decide (b.get pHlk 0x118 < r.addr + r.len)))

/-- The descriptor breaks R56, R57, or the SPACE 2 rules of R428: the command ends BAD_COMMAND. -/
def badFormat (b : Block) (c : Cmd) : Bool :=
  let atPort := match c.src with | .port _ => true | .session _ _ => false
  let op := c.opcode
  !decide (op ∈ opcodes) ||
  (atPort && decide (0x70 ≤ op)) ||
  decide (nbits (le c.raw 1 1) 2 6 ≠ 0) || decide (nbits (le c.raw 7 1) 3 5 ≠ 0) || decide (le c.raw 0xE 2 ≠ 0) ||
  (atPort && decide (c.cls ≠ 0)) ||
  (c.payValid && badRef b atPort c.pay) || (c.resValid && badRef b atPort c.res) ||
  (c.payValid && decide (c.pay.space = 2) && decide (c.pay.addr < 64 ∨ c.body.length + 64 < c.pay.addr + c.pay.len)) ||
  (c.resValid && decide (c.res.space = 2) && decide (c.res.addr ≠ 0)) ||
  ((needsRefs op).1 && !c.payValid) || ((needsRefs op).2 && !c.resValid) ||
  (reservedParams op).any (fun r => decide (c.param r.1 r.2 ≠ 0)) ||
  (decide (0x10 ≤ op) && decide (op < 0x20) && decide (c.budget = 0))

/-! ## The commands in flight -/

/-- The command with a number. -/
def Block.cmd (b : Block) (id : Nat) : Option Cmd := b.cmds.find? (fun c => decide (c.id = id))

/-- The opcode of a command, 0 for none (R38). -/
def Block.opOf (b : Block) (id : Nat) : Nat := match b.cmd id with | some c => c.opcode | none => 0

/-- A command changed. -/
def Block.setCmd (b : Block) (id : Nat) (f : Cmd → Cmd) : Block :=
  { b with cmds := mapIf (fun c => decide (c.id = id)) f b.cmds }

/-- PORT_STATUS.INFLIGHT: commands of a port accepted and without a record (R46). -/
def Block.portInflight (b : Block) (p : Nat) : Nat := (b.cmds.filter (fun c => decide (c.src = .port p))).length

/-- PORT_CTRL.CREDITS_M1 + 1. -/
def Block.credits (b : Block) (p : Nat) : Nat := b.fld pHlk (0x800 + 0x20 * p) 8 8 + 1

/-- PORT_STATUS.IDLE: the port is disabled and no command of it is in flight (R46). -/
def Block.portIdle (b : Block) (p : Nat) : Bool :=
  decide (b.fld pHlk (0x800 + 0x20 * p) 0 1 = 0) && decide (b.portInflight p = 0)

/-- The meter has reached a deadline (R148; DEDUCED, log 6). -/
def Block.passed (b : Block) (d : Option Nat) : Bool :=
  match d with | none => false | some t => decide (t ≤ b.meter)

/-! ## The shared pool as commands reach it (R373, R374, R382) -/

/-- Bytes of a pool page. -/
abbrev poolPageBytes := 16384

/-- The region that holds a pool-space offset, and the offset within it. -/
def poolPlace (off : Nat) : Nat × Nat := (off / 2 ^ 34, off % 2 ^ 34)

/-- A region of the pool. -/
def Block.region (b : Block) (r : Nat) : Option Region := b.regions.find? (fun x => decide (x.number = r))

/-- A region changed. -/
def Block.setRegion (b : Block) (r : Nat) (f : Region → Region) : Block :=
  { b with regions := mapIf (fun (x : Region) => decide (x.number = r)) f b.regions }

/-- The page of a list that has a number. -/
def pageIn (l : List PoolPage) (n : Nat) : Option PoolPage := l.find? (fun p => decide (p.page = n))

/-- A page of a region as its working copy or CURRENT shows it; `none` is an all-zero page. -/
def Region.page (r : Region) (wc : Bool) (n : Nat) : Option PoolPage :=
  match (if wc then pageIn r.wc n else none) with
  | some p => some p
  | none => pageIn r.map n

/-- One byte of a region. -/
def Region.byte (r : Region) (wc : Bool) (off : Nat) : BitVec 8 :=
  match r.page wc (off / poolPageBytes) with
  | some p => p.data.byte (off % poolPageBytes)
  | none => 0

/-- Whose commands these are: the driver's, or a session's. -/
def Cmd.who (c : Cmd) : Option Nat := match c.src with | .port _ => none | .session n _ => some n

/-- The sender holds the region's lease (R375). -/
def Region.heldBy (r : Region) (who : Option Nat) : Bool :=
  match r.lease with | some l => decide (l.holder = who) | none => false

/-- A pool page that is lost (R371). -/
def lostPage (p : Option PoolPage) : Bool := match p with | some p => p.tier.lost | none => false

/-- Bytes of the pool space as a sender's command reads them (R382): `none` where a page is lost. -/
def Block.poolRead (b : Block) (who : Option Nat) (off n : Nat) : Option Bytes :=
  match b.region (poolPlace off).1 with
  | none => some (List.replicate n 0)
  | some r =>
    let o := (poolPlace off).2
    let wc := r.heldBy who
    if (span (o / poolPageBytes) ((o + n + poolPageBytes - 1) / poolPageBytes - o / poolPageBytes)).any
        (fun p => lostPage (r.page wc p)) then none
    else some ((List.range n).map (fun i => r.byte wc (o + i)))

/-- Pages of the pool in use: every region's version and its working copy (R374). -/
def Block.poolUsed (b : Block) : Nat := b.regions.foldl (fun n r => n + r.pages + r.wc.length) 0

/-- CXP.POOL_SIZE in pages. -/
def Block.poolSize (b : Block) : Nat := b.fld (pCxp 0) 0x108 0 9 * 65536

/-! ## Items of the DRAM tier (R359 to R362, R370, R371) -/

/-- The items of 16 KiB that still fit beside what may not be evicted. -/
def Block.dramRoom (b : Block) : Nat := (b.dramSize - b.dramPinned) / 16384

/-- The stacks that hold items: those of S0 to S7 that work, and S8 once it has taken a failed stack's place. -/
def Block.liveStacks (b : Block) : List Nat :=
  (List.range 8).filter (fun s => !decide (s ∈ b.roles.failed)) ++ (if b.roles.spare = 0 then [8] else [])

/-- The partner of a stack, S8 having the place of the stack it stands in for (R360); `none` where the partner has failed. -/
def Block.partner (b : Block) (s : Nat) : Option Nat :=
  let p := (if s = 8 then b.roles.standFor.getD 0 else s) ^^^ 4
  if p ∈ b.roles.failed then (if b.roles.standFor = some p ∧ b.roles.spare % 2 = 0 then some 8 else none) else some p

/-- A remaining stack for a mirror whose partner has failed, while there is room (R371). -/
def Block.otherStack (b : Block) (s : Nat) : Option Nat :=
  match b.liveStacks.filter (fun x => decide (x ≠ s)) with
  | [] => none
  | x :: l => some ((x :: l).getD (Config.itemStack b.free % (l.length + 1)) 0)

/-- The stack of a new dirty item and its mirror (R360): the tier manager chooses among the stacks that hold items. -/
def Block.freshTier (b : Block) : Tier :=
  let l := b.liveStacks
  let good := l.filter (fun s => decide (b.bandOf (pMem s) = 0))
  let l := if good = [] then l else good
  let s := l.getD (Config.itemStack b.free % max 1 l.length) 0
  { stack := s
    mirror := match b.partner s with
      | some p => some p
      | none => if b.dramRoom < 2 then none else b.otherStack s }

/-- Bytes written into a region's working copy at an offset of the region: the first write to a page copies the CURRENT
page, clean items being evicted for it and its mirror (R361); a page beyond POOL_SIZE marks the lease WC_LOST (R378), and one beyond
PAGES is discarded. -/
def Block.poolWrite (b : Block) (r off : Nat) (bs : Bytes) : Block :=
  match b.region r with
  | none => b
  | some x =>
    let pages := span (off / poolPageBytes) ((off + bs.length + poolPageBytes - 1) / poolPageBytes - off / poolPageBytes)
    (pages.filter (fun p => decide (p < x.pages))).foldl (fun b p =>
      let lo := max off (p * poolPageBytes)
      let hi := min (off + bs.length) ((p + 1) * poolPageBytes)
      let part := slice bs (lo - off) (hi - lo)
      let put (q : PoolPage) : PoolPage := { q with data := Memory.write q.data (lo % poolPageBytes) part }
      match (b.region r).bind (fun x => pageIn x.wc p) with
      | some _ => b.setRegion r (fun x => { x with wc := mapIf (fun q => decide (q.page = p)) put x.wc })
      | none =>
        if b.poolSize ≤ b.poolUsed then
          b.setRegion r (fun x => { x with lease := x.lease.map (fun l => { l with lostWc := true }) })
        else
          let old : Memory := match pageIn x.map p with | some q => q.data | none => []
          let b := b.evict (2 * poolPageBytes)
          let q : PoolPage := put { page := p, data := old, tier := b.freshTier }
          let b := { b with free := b.free + 1 }
          (b.setRegion r (fun x => { x with wc := snoc x.wc q })).bump (pCxp 0) 2) b

/-- Pages of a region that a CXL write has changed while a durable publish of it is on its way: they are programmed, again, before the
swap (R377, R379). -/
def Block.republish (b : Block) (r : Nat) (pages : List Nat) : Block :=
  match b.publishes.find? (fun p => decide (p.region = r)), b.region r with
  | some run, some x =>
    pages.foldl (fun b n =>
      match pageIn x.wc n with
      | none => b
      | some q =>
        let w : FlashWrite := ⟨.poolPage r (x.current + 1) n, Memory.read q.data 0 poolPageBytes⟩
        if b.ftl.writes.any (fun y => decide (y.what = w.what)) then
          { b with ftl := { b.ftl with writes := mapIf (fun (y : FlashWrite) => decide (y.what = w.what)) (fun _ => w) b.ftl.writes } }
        else
          let runs : List PublishRun := mapIf (fun (p : PublishRun) => decide (p.cmd = run.cmd)) (fun p => { p with left := snoc p.left n }) b.publishes
          ({ b with publishes := runs } : Block).queueWrite w.what w.data) b
  | _, _ => b

/-- A SPACE 1 result needs the lease of its region (R382): true when the sender does not hold it. -/
def Block.lacksLease (b : Block) (c : Cmd) : Bool :=
  c.resValid && decide (c.res.space = 1) &&
    (match b.region (poolPlace c.res.addr).1 with | some r => !r.heldBy c.who | none => true)

/-! ## Results -/

/-- Bytes put at an offset of a command's result reference: host memory, the pool, or the area that a REPLY carries (R56, R382). -/
def Block.putResult (b : Block) (c : Cmd) (off : Nat) (bs : Bytes) : Block :=
  if c.res.space = 0 then b.hostWrite (c.res.addr + off) bs
  else if c.res.space = 1 then b.poolWrite (poolPlace c.res.addr).1 ((poolPlace c.res.addr).2 + off) bs
  else b.setCmd c.id (fun c =>
    { c with area := Memory.write c.area off bs, areaLen := max c.areaLen (off + bs.length) })

/-- Result bytes of a command, written at an offset of its result reference (R45, R59, R382). -/
def Block.writeResult (b : Block) (id off : Nat) (bs : Bytes) : Block :=
  match b.cmd id with
  | none => b
  | some c =>
    if c.resValid = false ∨ bs = [] then b
    else
      let b := (b.setCmd id (fun c => { c with wrote := true })).putResult c off bs
      if c.res.space = 0 then b.bump pHlk 7 bs.length else b

/-- A command's result area left undefined: free bytes (R271, R369). -/
def Block.spoilArea (b : Block) (c : Cmd) : Block :=
  if c.resValid then b.putResult c 0 ((List.range c.res.len).map (Config.undefinedByte c.id)) else b

/-- Input bytes of a command's payload: host memory; the pool's bytes bound at admission (R382); or the bytes that
followed the descriptor (R56), whose offset 0 is the descriptor's own (R428). -/
def Block.readInput (b : Block) (c : Cmd) (off n : Nat) : Bytes :=
  match c.pay.space with
  | 0 => b.hostRead (c.pay.addr + off) n
  | 1 => padTo (slice c.body off n) n
  | _ => padTo (slice c.body (c.pay.addr - 64 + off) n) n

/-- Payload bytes read by a reference to host memory, which HLK counts (R45, CNT7). -/
def Block.countInput (b : Block) (c : Cmd) (n : Nat) : Block := if c.pay.space = 0 then b.bump pHlk 7 n else b

/-! ## Work that ends with a command -/

/-- The contexts of a search command. -/
def Block.ctxsOf (b : Block) (id : Nat) : List Nat :=
  (b.qpl.ctxs.filter (fun x => match x.work with | .admitted c _ => decide (c = id) | .shard _ => false)).map (·.id)

/-- The item serves a command or one of its contexts. -/
def Item.serves (place : Nat) (ids ctxs : List Nat) (i : Item) : Bool :=
  match i.work with
  | .refine r => decide (r.fromPlace = place ∧ r.cmd ∈ ids)
  | .cold c => decide (c.ctx ∈ ctxs)

/-- The QPL page whose credit an item uses (R187). -/
def Item.sender (i : Item) : Nat := match i.work with | .refine r => r.qpl.val | .cold c => c.qpl.val

/-- An engine's free work credits of a QPL page. -/
def Engine.credit (e : Engine) (q : Nat) : Nat := if q = 0 then e.credits.1 else e.credits.2

/-- A QPL page's work credits of an engine changed. -/
def Engine.setCredit (e : Engine) (q n : Nat) : Engine :=
  if q = 0 then { e with credits := (n, e.credits.2) } else { e with credits := (e.credits.1, n) }

/-- The work credit of an item's sender given back (R187). -/
def Engine.giveBack (e : Engine) (i : Item) : Engine := e.setCredit i.sender (e.credit i.sender + 1)

/-- An item that takes a credit and enters the store, or waits at its sender (R187). -/
def Engine.push (e : Engine) (i : Item) : Engine :=
  if e.credit i.sender = 0 then { e with held := snoc e.held i }
  else { e with items := snoc e.items i }.setCredit i.sender (e.credit i.sender - 1)

/-- Items that waited at their senders sent while credits last. -/
def Engine.pull (e : Engine) : Engine := e.held.foldl Engine.push { e with held := [] }

/-- Items removed from one engine, each returning its credit at once; reads in flight go on, and their data will be discarded
(R198). -/
def Engine.dropItems (e : Engine) (p : Item → Bool) : Engine :=
  let gone := e.items.filter p
  let e := { e with items := e.items.filter (fun i => !p i), held := e.held.filter (fun i => !p i)
                    adrift := e.adrift ++ gone.filter (fun i => decide (i.state = .reading)) }
  (gone.foldl Engine.giveBack e).pull

/-- The work is stopped by its deadline, its pitch's close or DRAIN_ABORT, which its unit counts (R181, R203). -/
def dropCounts (st : Nat) : Bool := decide (st = stLate ∨ st = stAborted)

/-- Items removed from every engine as their search or command ends with a status; each engine counts those it held where
that is a drop (FLC CNT6). -/
def Block.dropItems (b : Block) (p : Item → Bool) (st : Nat) : Block :=
  b.engines.foldl (fun b e =>
    let n := if dropCounts st then (e.2.items.filter p).length else 0
    if (e.2.items.filter p) = [] ∧ (e.2.held.filter p) = [] then b
    else ((b.setEngine e.1 (e.2.dropItems p)).bump (pFlc e.1) 6 n).markItems e.1) b

/-- The step that a stepping sweep is at: how far it has come since it last stopped is open (DESIGN CHOICE, log 15), but no farther
than where it is to yield. -/
def Sweep.reached (w : Sweep) (n : Nat) : Nat :=
  if w.state = .stepping then
    w.step + Config.sweepSteps n w.id w.step % max 1 (min w.seg.steps (w.yieldAt.getD w.seg.steps) - w.step)
  else w.step

/-- The step at which a sweep stops that does not run to its end: the end of the column group that a stepping one is in (R169,
R172). -/
def Sweep.stopAt (w : Sweep) (n : Nat) : Nat :=
  if w.state = .stepping then min w.seg.steps (w.yieldAt.getD (w.seg.groupEnd (w.reached n))) else w.step

/-- A sweep that stops after `t` steps counts them and the codes they hold (PIM CNT1, CNT2); one that has ended has. -/
def Block.countStop (b : Block) (w : Sweep) (t : Nat) : Block :=
  if w.state = .returning then b else (b.bump (pPim w.stack) 1 (t - w.step)).bump (pPim w.stack) 2 (w.seg.codes t)

/-- Sweeps of some contexts removed from one stack: queued ones leave the queue, held ones end at their next column
boundary and release their tokens (R148, R169). -/
def Stack.dropSweeps (x : Stack) (ctxs : List Nat) : Stack :=
  { x with sweeps := x.sweeps.filter (fun w => !decide (w.ctx ∈ ctxs)) }

/-- The bank pair of a request: DIE × 128 + BANK div 2, the number of the unit beside it (R157). -/
def pairOf (r : DramReq) : Nat := r.die.val * 128 + r.bank.val / 2

/-- A row of a stack. -/
def Stack.row (x : Stack) (die bank row : Nat) : Memory :=
  match x.rows.find? (fun r => decide (r.die = die ∧ r.bank = bank ∧ r.row = row)) with
  | some r => r.data
  | none => []

/-- A row of a stack given contents. -/
def Stack.setRow (x : Stack) (die bank row : Nat) (m : Memory) : Stack :=
  let rest := x.rows.filter (fun r => !decide (r.die = die ∧ r.bank = bank ∧ r.row = row))
  { x with rows := if m = [] then rest else ⟨die, bank, row, m⟩ :: rest }

/-- A controller request carried out in its row (MEM CNT0, CNT1, CNT7). -/
def Block.serveDram (b : Block) (n : Nat) (r : DramReq) : Block :=
  let k := b.stack n
  let m := k.row r.die.val r.bank.val r.row
  match r.write with
  | none =>
    let b := { b with out := { b.out with dram := Memory.read m r.col r.len } }
    (b.bump (pMem n) 0).bump (pMem n) 7 r.len
  | some bs => ((b.setStack n (k.setRow r.die.val r.bank.val r.row (Memory.write m r.col bs))).bump (pMem n) 1).bump (pMem n) 7 bs.length

/-- The sweep that a unit steps, or holds yielded. -/
def Stack.computing (x : Stack) (unit : Nat) : Option Sweep :=
  x.sweeps.find? (fun w => decide (w.unit = unit) && decide (w.state = .stepping ∨ w.state = .yielded))

/-- Requests of a stack that wait at pairs where no sweep computes any more, served in arrival order. -/
def Block.settleDram (b : Block) (n : Nat) : Block :=
  let k := b.stack n
  let free (r : DramReq) : Bool := (k.computing (pairOf r)).isNone
  (k.waiting.filter free).foldl (fun b r => b.serveDram n r)
    (b.setStack n { k with waiting := k.waiting.filter (fun r => !free r) })

/-- Sweeps of some contexts removed from every stack as their search ends with a status; each PIM page counts those its
units held: as stopped (CNT3), or as ended TIER_FAULT (CNT6). -/
def Block.dropSweeps (b : Block) (ctxs : List Nat) (st : Nat) : Block :=
  b.stackSet.foldl (fun b e =>
    let gone := e.2.sweeps.filter (fun w => decide (w.ctx ∈ ctxs))
    if gone = [] then b
    else
      let held := gone.filter (fun w => decide (w.state ≠ .queued ∧ w.state ≠ .returning))
      let b := held.foldl (fun b w => b.countStop w (w.stopAt b.free)) (b.setStack e.1 (e.2.dropSweeps ctxs))
      let b := if dropCounts st then b.bump (pPim e.1) 3 held.length else b
      let b := if st = stTierFault then b.bump (pPim e.1) 6 held.length else b
      b.settleDram e.1) b

/-- The operation serves a command or one of its contexts. -/
def SluOp.serves (ids ctxs : List Nat) (o : SluOp) : Bool :=
  match o.work with
  | .topkRow c _ | .poolMerge c _ | .final c _ => decide (c ∈ ids)
  | .shardMerge x _ => decide (x ∈ ctxs)
  | .route j _ _ _ => decide (64 ≤ j) && decide (j - 64 ∈ ctxs)

/-- Operations dropped; each SLU page counts those its slots held (R221, CNT6). -/
def Block.dropOps (b : Block) (p : SluOp → Bool) : Block :=
  let gone := b.ops.filter p
  let b := { b with ops := b.ops.filter (fun o => !p o) }
  gone.foldl (fun b o => match o.unit with | some u => b.bump (pSlu u) 6 | none => b) b

/-- BOUND of a version at this module: its contexts and the searches admitted here (R131). -/
def Block.boundCount (b : Block) (ix ver : Nat) : Nat :=
  (b.qpl.ctxs.filter (fun x => decide (x.index = ix ∧ x.version = ver))).length

/-- RETIRING versions whose BOUND is 0 freed: tiles and deletion map go, and the side-list entries and tombstones at or
below the lowest remaining FLOOR (R113). -/
def Block.reapVersions (b : Block) : Block :=
  b.indexes.foldl (fun b e =>
    let ix := e.2
    let dead : List Version := ix.versions.filter (fun v => decide (v.state = .retiring) && decide (b.boundCount e.1 v.root.version = 0))
    if dead = [] then b
    else
      let left : List Version := ix.versions.filter (fun v => !decide (v ∈ dead))
      let keep (c : Option Nat) : Bool := match c, left with
        | _, [] => true
        | none, _ => true
        | some c, v :: vs => decide (vs.foldl (fun a v => min a v.root.floor) v.root.floor < c)
      let b := b.setIndex e.1 { ix with versions := left, side := ix.side.filter (fun s => keep s.cairn),
                                        tombs := ix.tombs.filter (fun t => keep t.cairn)
                                        deletes := ix.deletes.filter (fun d => keep (some d.2)) }
      let gone := dead.map (fun v => v.root.version)
      let parts : List DramPart := b.dramParts.filter (fun d => !(decide (d.index = e.1) && gone.contains d.version))
      let tiles : List DramTile := b.dramTiles.filter (fun d => !(decide (d.index = e.1) && gone.contains d.version))
      let b := { b with dramParts := parts, dramTiles := tiles }
      let b := gone.foldl (fun b v => b.freeHome .index e.1 v) b
      (b.bump pIdx 4 dead.length).raiseInt pIdx 16) b

/-- A command admitted here is bound to a table: to one version of it, or to any (R325). -/
def Block.tableBound (b : Block) (t : Nat) (v : Option Nat) : Bool :=
  let ok (x : Nat) : Bool := match v with | some v => decide (x = v) | none => true
  b.gathers.any (fun g => decide (g.table = t) && ok g.version) ||
  b.qpl.searches.any (fun x => decide (x.rows ≠ [] ∧ x.table = t) && ok x.tversion)

/-- What a table had beside its entry: origin sequences, owner map, replicas and migrations; a table defined again under its number
starts without them (R332, R341). -/
def Block.forgetTable (b : Block) (t : Nat) : Block :=
  let ours (i : ItemRef) : Bool := match i with | .rowBlock n _ => decide (n = t) | .shard _ _ => false
  let blockMap : List ((Nat × Nat) × Nat) := b.plc.blockMap.filter (fun e => decide (e.1.1 ≠ t))
  let copies : List ((Nat × Nat) × Nat) := b.plc.copies.filter (fun e => decide (e.1.1 ≠ t))
  let replicas : List (Nat × Nat) := b.plc.replicas.filter (fun e => decide (e.1 ≠ t))
  let seqs : List ((Nat × Nat) × Nat) := b.seqs.filter (fun e => decide (e.1.1 ≠ t))
  { b with seqs := seqs, plc := { b.plc with
      blockMap := blockMap, copies := copies, replicas := replicas, moves := b.plc.moves.filter (fun m => !ours m.item)
      counts := b.plc.counts.filter (fun e => !ours e.1), last := b.plc.last.filter (fun e => !ours e.1) }
           cache := b.cache.filter (fun c => match c.key with | .row n _ _ => decide (n ≠ t) | _ => true) }

/-- Table versions beyond RETAIN are freed once no command at any place is bound to them: a place to which none is bound tells the
others. A DROPPING table is freed once no command admitted here is bound to it, and its keeper is told (R325, R341). -/
def Block.reapTables (b : Block) : Block :=
  let free (t : Table) (v : TblVersion) : Bool := decide (v.version + t.retain < t.current) && !b.tableBound t.number (some v.version)
  let peers := b.others.filter b.placeReady
  let told (t : Table) (v : TblVersion) (p : Nat) : Bool := decide ((v.version, p) ∈ t.unbound)
  let new (t : Table) : List Nat := (t.versions.filter (fun v => free t v && !told t v b.place)).map (·.version)
  let trim (t : Table) : Table :=
    let kept := t.versions.filter (fun v => !(free t v && peers.all (told t v)))
    { t with versions := kept
             unbound := ((new t).map (fun v => (v, b.place)) ++ t.unbound).filter (fun e => kept.any (fun v => decide (v.version = e.1))) }
  let gone := b.tables.filter (fun t => t.dropFor.isSome && !b.tableBound t.number none)
  let stay := b.tables.filter (fun t => !decide (t ∈ gone))
  let b := { b with tables := stay.map trim }
  let b := (stay.flatMap (fun t => (new t).map (fun v => (t.number, v)))).foldl (fun b e => peers.foldl (fun b p =>
    b.send { toward := .place p, cls := 4, kind := .tableUnbound, args := [e.1, e.2] }) b) b
  gone.foldl (fun b t =>
    let b := b.forgetTable t.number
    let b := (b.ftl.zones.filter (fun z => decide (z.owner = .table ∧ z.object = t.number ∧ z.st = .opened))).foldl (fun b z => b.freeZone z.number false) b
    match t.dropFor with
    | some (k, tag) => b.send { toward := .place k, cls := 4, kind := .tableSwitched, args := [tag, t.number, stOk, 0] }
    | none => b) b

/-- Everything some contexts hold released as they end with a status, and the contexts freed (R139, R148). -/
def Block.freeCtxs (b : Block) (ctxs : List Nat) (st : Nat) : Block :=
  let b := b.dropSweeps ctxs st
  let b := b.dropItems (Item.serves b.place [] ctxs) st
  let b := b.dropOps (SluOp.serves [] ctxs)
  let b := { b with qpl := { b.qpl with ctxs := b.qpl.ctxs.filter (fun x => !decide (x.id ∈ ctxs)) } }
  (b.endCtxThreads ctxs (!hasResults st)).reapVersions

/-- An update that ends without effect: every record its owners hold for it without a cairn is discarded, and its keeper, where
it was asked for a cairn, voids one that it has assigned (R232). -/
def Block.dropRecords (b : Block) (u : Update) : Block :=
  let x := b.index u.index
  let tag := (b.place, u.cmd)
  let keep (c : Option Nat) (t : Nat × Nat) : Bool := c.isSome || !decide (t = tag)
  let side : List SideEntry := x.side.filter (fun s => keep s.cairn s.tag)
  let tombs : List Tombstone := x.tombs.filter (fun s => keep s.cairn s.tag)
  let groups : List OwnerGroup := x.groups.filter (fun g => !decide ((g.fromPlace, g.tag) = tag))
  let b := b.setIndex u.index { x with side := side, tombs := tombs, groups := groups }
  let told := nub (u.owners ++ if u.step = .cairn ∧ u.asked then [x.keeper] else [])
  (told.filter (fun p => decide (p ≠ b.place))).foldl (fun b p =>
    b.send { toward := .place p, cls := 4, kind := .discardTentative, args := [u.index, u.cmd] }) b

/-- The invocations of a command or a search: one that no INVGET has taken is removed, one that a thread has taken has
ended and keeps its buffers until its INVEND (R270). -/
def Block.dropInvocations (b : Block) (id : Nat) : Block :=
  let mine (i : Invocation) : Bool := decide (i.cmd = some id ∨ i.search = some id)
  let job (x : Job) : Job :=
    { x with queue := (x.queue.filter (fun i => !(mine i && !i.taken))).map (fun i => if mine i then { i with ended := true } else i) }
  if b.cores.jobs.all (fun e => match e.2 with | some x => !x.queue.any mine | none => true) then b
  else { b with cores := { b.cores with jobs := smap none (fun x => x.map job) b.cores.jobs } }

/-- Pages that wait to be programmed for a push, or for a publish of a region, that ends before they are. -/
def Block.dropWrites (b : Block) (id : Nat) : Block :=
  let regions := (b.publishes.filter (fun p => decide (p.cmd = id))).map (·.region)
  if regions = [] ∧ b.pushes.all (fun p => decide (p.cmd ≠ id)) then b
  else
    let writes : List FlashWrite := b.ftl.writes.filter (fun w => match w.what with
      | .stateTile _ _ c _ => decide (c ≠ id)
      | .poolPage r _ _ => !decide (r ∈ regions)
      | _ => true)
    { b with ftl := { b.ftl with writes := writes } }

/-- The uncommitted records of a scatter that this place holds discarded: pending, being made durable, or held in a CUTOVER. -/
def Block.discardHere (b : Block) (table from_ tag : Nat) : Block :=
  let mine (p : PendRec) : Bool := decide (p.fromPlace = from_ ∧ p.tag = tag) && !p.committed
  let f (t : Table) : Table := if t.number = table then
      { t with pending := t.pending.filter (fun p => !mine p),
               groups := t.groups.filter (fun g => !decide (g.fromPlace = from_ ∧ g.tag = tag)),
               passed := t.passed.filter (fun e => !decide (e.1 = from_ ∧ e.2.1 = tag)) } else t
  let held (r : ForwardReq) : Bool := match r with
    | .records m => decide (m.table = table ∧ m.fromPlace = from_ ∧ m.tag = tag)
    | .table _ | .shard _ | .deletions _ _ => false
  let moves : List Migration := b.plc.moves.map (fun m => { m with held := m.held.filter (fun e => !held e.1) })
  { b with tables := b.tables.map f, plc := { b.plc with moves := moves } }

/-- The owners of an uncommitted scatter, those that its forwarded records have reached, and the places to which row blocks of its
table move from here, told to discard its tentative records; those held here go, and a fold that waited for them is tried again
(R334, R339, R345). -/
def Block.dropTentative (b : Block) (x : Scatter) : Block :=
  let passed := (b.tables.filter (fun t => decide (t.number = x.table))).flatMap (fun t =>
    (t.passed.filter (fun e => decide (e.1 = b.place ∧ e.2.1 = x.cmd))).map (·.2.2))
  let b := b.discardHere x.table b.place x.cmd
  let gone := b.plc.moves.filter (fun m => decide (m.source = b.place ∧ (m.phase = .cutover ∨ m.phase = .retire)) &&
    (match m.item with | .rowBlock t _ => decide (t = x.table) | .shard _ _ => false))
  let sealed := b.tables.any (fun t => decide (t.number = x.table) && t.sealFor.isSome)
  let far := nub ((x.owners ++ x.moved.map (·.2) ++ passed ++ gone.map (·.dest)).filter (fun p => decide (p ≠ b.place)))
  (far ++ (if sealed then [b.place] else [])).foldl (fun b p =>
    b.send { toward := .place p, cls := 4, kind := .discardTentative, args := [16 + x.table, x.cmd] }) b

/-- A queue's residence mark raised (R464), in 100 ns units. -/
def Block.markDelay (b : Block) (q since : Nat) : Block :=
  let d := min ((b.meter - since) / 10) 0xFFFFFFFF
  if sget 0 b.trf.delayHwm q < d then { b with trf := { b.trf with delayHwm := sset 0 b.trf.delayHwm q d } } else b

/-- Rope and OPEN messages among some entries that end LATE or ABORTED in their queues (TRF CNT6). -/
def Block.countEnded (b : Block) (l : List TrfEntry) : Block :=
  b.bump pTrf 6 (l.filter (fun e => match e.kind with | .command _ => false | _ => true)).length

/-- Ingress entries removed from their queues, whose residence counts (R464). -/
def Block.removeEntries (b : Block) (f : TrfEntry → Bool) : Block :=
  let b := (b.trf.entries.filter f).foldl (fun b e => b.markDelay e.queue e.arrived) b
  { b with trf := { b.trf with entries := b.trf.entries.filter (fun e => !f e), outside := b.trf.outside.filter (fun e => !f e) } }

/-- Everything a command holds released as it ends with a status (R148, R198, R221). -/
def Block.freeWork (b : Block) (id st : Nat) : Block :=
  let ctxs := b.ctxsOf id
  let b := (b.updates.filter (fun u => decide (u.cmd = id) && decide (u.step ≠ .confirm))).foldl
    Block.dropRecords b
  let b := (b.scatters.filter (fun x => decide (x.cmd = id))).foldl Block.dropTentative b
  let b := b.dropItems (Item.serves b.place [id] []) st
  let b := b.dropOps (SluOp.serves [id] [])
  let b := b.dropInvocations id
  let b := b.dropWrites id
  let b := b.removeEntries (fun e => decide (e.kind = .command id))
  let b := { b with
    topks := b.topks.filter (fun t => decide (t.cmd ≠ id))
    updates := b.updates.filter (fun u => decide (u.cmd ≠ id))
    switching := b.switching.filter (fun r => decide (r.cmd ≠ some id))
    gathers := b.gathers.filter (fun g => decide (g.cmd ≠ id))
    scatters := b.scatters.filter (fun x => decide (x.cmd ≠ id))
    tblSwitches := b.tblSwitches.filter (fun x => decide (x.cmd ≠ some id))
    publishes := b.publishes.filter (fun p => decide (p.cmd ≠ id))
    pushes := b.pushes.filter (fun p => decide (p.cmd ≠ id))
    discards := b.discards.filter (fun d => decide (d.cmd ≠ id))
    qpl := { b.qpl with searches := b.qpl.searches.filter (fun x => decide (x.cmd ≠ id)) } }
  (b.freeCtxs ctxs st).reapTables

/-! ## The end of a command -/

/-- What a completion record says beside the status (R61). -/
structure Extra where
  count  : Nat := 0
  cairn  : Nat := 0
  orig   : Nat := 0
  tie    : Bool := false
  short  : Bool := false
  lateOk : Bool := true          -- a passed deadline turns the end into LATE (R58)
deriving DecidableEq, Repr

/-- The 32 bytes of a completion record (R61). -/
def recordBytes (c : Cmd) (phase : Bool) (st : Nat) (x : Extra) (elapsed : Nat) : Bytes :=
  let n (q : Bool) (v : Nat) : Nat := if q then v else 0
  toLe c.tag 2 ++ toLe st 1 ++ toLe (n phase 1 + n x.tie 2 + n x.short 4) 1 ++ toLe c.opcode 1 ++ toLe x.orig 1 ++
  toLe 0 2 ++ toLe x.count 4 ++ toLe (min elapsed 0xFFFFFFFF) 4 ++ toLe x.cairn 6 ++ toLe 0 2 ++
  toLe (n (c.wrote && hasResults st) c.res.addr) 8

/-- A port's record written: the record, then the credit word (R51, R59), CPL_INT and the counters. -/
def Block.portRecord (b : Block) (p : Nat) (bytes : Bool → Bytes) : Block :=
  let o := 0x800 + 0x20 * p
  let x := b.port p
  let n := x.records
  let phase := decide (n / b.credits p % 2 = 0)
  let b := b.hostWrite (b.get pHlk (o + 0x10) + 32 * (n % b.credits p)) (bytes phase)
  let b := b.setPort p { x with records := n + 1 }
  let b := b.hostWrite (b.get pHlk (o + 8)) (toLe (n + 1) 8)
  let b := b.bump pHlk 1
  let b := if b.pageState pTrf = 0 then b else b.bump pTrf 5
  if b.fld pHlk o 1 1 = 1 then (b.setFld pHlk 0x120 p 1 1).notify else b

/-- A delivered mutating command of a session remembered for R236: its SEQ, status and cairn. -/
def Block.remember (b : Block) (c : Cmd) (st : Nat) (cairn : Nat) : Block :=
  match c.src with
  | .port _ => b
  | .session n _ =>
    if c.admitted && mutating c.opcode then
      let x : Session := sget {} b.sessions n
      let x : Session := { x with done := x.done ++ [(c.seq, st, cairn)] }
      { b with sessions := sset {} b.sessions n x }
    else b

/-- The status a command ends with: LATE where its deadline has passed at the same moment (R58). -/
def Block.endStatus (b : Block) (c : Cmd) (st : Nat) (x : Extra) : Nat :=
  if x.lateOk && b.passed c.deadline && decide (c.phase ≠ .queued) then stLate else st

/-- The cairn of a record: none where the status carries no results and tells of no original (R61). -/
def endCairn (st : Nat) (x : Extra) : Nat := if hasResults st || decide (st = stDuplicate) then x.cairn else 0

/-- One command ended, its own duplicates apart. A session that has been killed gets no reply (R480). -/
def Block.finishOne (b : Block) (c : Cmd) (st : Nat) (x : Extra) : Block :=
  let st := b.endStatus c st x
  let x : Extra := if hasResults st then x else { x with count := 0, tie := false, short := false, cairn := endCairn st x }
  let elapsed := b.meter - c.accepted
  let b := if st = stLate ∧ c.opcode = 0x30 then b.bump pTbl 6 else b
  let b := (b.freeWork c.id st).remember c st x.cairn
  let b := { b with cmds := b.cmds.filter (fun d => decide (d.id ≠ c.id)) }
  match c.src with
  | .port p => b.portRecord p (fun phase => recordBytes c phase st x elapsed)
  | .session n msg =>
    if (b.session n).state = .closed then b else
    let results := if hasResults st then Memory.read c.area 0 c.areaLen else []
    b.send { toward := .session n, cls := c.cls, kind := .reply, args := [msg, c.seq, st],
             data := padTo (recordBytes c true st x elapsed) 64 ++ results, deadline := c.deadline }

/-- A command ended: its work released, its record written or its reply sent, and the command gone (R58 to R62). A
deadline passed at the same moment makes the status LATE (R58). Duplicates held for it end with it and give the status and
cairn of its record (R61, R236). -/
def Block.finish (b : Block) (id st : Nat) (x : Extra := {}) : Block :=
  match b.cmd id with
  | none => b
  | some c =>
    let dups := b.cmds.filter (fun d => decide (d.dupOf = some id))
    let ended := b.endStatus c st x
    let b := b.finishOne c st x
    dups.foldl (fun b d => b.finishOne d stDuplicate { orig := ended, cairn := endCairn ended x, lateOk := false }) b

/-- A list of commands ended with one status. -/
def Block.finishAll (b : Block) (ids : List Nat) (st : Nat) : Block := ids.foldl (fun b i => b.finish i st) b

/-- A fresh number for a sweep, an item or an operation. -/
def Block.fresh (b : Block) : Nat × Block := (b.nextId, { b with nextId := b.nextId + 1 })

end Sys2Proof.Machine
end

