-- ==== Sys2Proof/Machine/Traffic.lean ====
section
/-! DEFINITION. The traffic manager (chapter 17): flows and meters, queues, shapers and buckets, the two schedulers,
observation. Its rows: INGRESS_SERVICE, EGRESS_SERVICE, LOAD, SAMPLE_EN_WRITE, SAMPLE_ROUND. -/

namespace Sys2Proof.Machine

/-! ## Pitches (R133 to R136) -/

/-- Pitches exist: either QPL page is not OFF. -/
def Block.pitches (b : Block) : Bool := decide (b.pageState (pQpl 0) ≠ 0) || decide (b.pageState (pQpl 1) ≠ 0)

/-- T of R134: QPL.PITCH in meter units. -/
def Block.pitchLen (b : Block) : Nat := b.fld (pQpl 0) 0x104 0 16 * 100

/-- The number of the pitch that covers a meter reading. -/
def Block.pitchAt (b : Block) (t : Nat) : Nat := (t - b.get (pQpl 0) 0x110) / b.pitchLen

/-- The deadline of a budget that starts at a reading (R133); none for budget 0. -/
def deadlineOf (start budget : Nat) : Option Nat := if budget = 0 then none else some (start + 10 * budget)

/-- A non-zero budget reaches beyond eight pitches (R135, R136). -/
def Block.beyondReach (b : Block) (start budget : Nat) : Bool :=
  decide (budget ≠ 0) &&
    (if b.pitches then decide (b.pitchAt b.meter + 7 < b.pitchAt (start + 10 * budget))
     else decide (80 * b.fld (pQpl 0) 0x104 0 16 < budget))

/-- The opcode takes a pitch lane (R454). -/
def takesLane (op : Nat) : Bool := decide (op ∈ [0x10, 0x11, 0x12, 0x13, 0x30, 0x34, 0x54, 0x55])

/-- The pitch a command is assigned to (R136, R454): none without a deadline, lane or pitches. -/
def Block.pitchFor (b : Block) (op : Nat) (deadline : Option Nat) : Option Nat :=
  match deadline with
  | none => none
  | some d => if takesLane op && b.pitches then some (b.pitchAt d) else none

/-! ## Flows and meters -/

/-- FLOW_KIND (R468): 0 session not open, 1 port, 2 client session, 3 rope session. -/
def Block.flowKind (b : Block) (f : Nat) : Nat :=
  if 4096 ≤ f then 1
  else
    let x := sget {} b.sessions f
    if x.state ≠ .opened then 0 else if x.rope then 3 else 2

/-- The flow a command arrives on (R451). -/
def flowOf : Source → Nat
  | .port p => 4096 + p
  | .session n _ => n

/-- The colours of R455. -/
inductive Colour where
  | green | yellow | red
deriving DecidableEq, Repr

/-- One arrival of size B at reading t (R455). -/
def FlowMeter.arrive (m : FlowMeter) (t size : Nat) : Colour × FlowMeter :=
  if !m.en then (.green, m)
  else
    let n := 100000 * size
    let tc := min (m.cbs * 100000) (m.tc + m.cir * (t - m.last))
    let tp := min (m.pbs * 100000) (m.tp + m.pir * (t - m.last))
    let m := { m with tc := tc, tp := tp, last := t }
    if tp < n then (.red, m)
    else if tc < n then (.yellow, { m with tp := tp - n })
    else (.green, { m with tp := tp - n, tc := tc - n })

/-- A meter with its colour counted. -/
def FlowMeter.count (m : FlowMeter) : Colour → FlowMeter
  | .green => { m with green := (m.green + 1) % 2 ^ 32 }
  | .yellow => { m with yellow := (m.yellow + 1) % 2 ^ 32 }
  | .red => { m with red := (m.red + 1) % 2 ^ 32 }

/-- The parameters a LOAD applies satisfy R459. -/
def meterOk (en : Bool) (cir pir cbs pbs : Nat) : Bool :=
  !en || (decide (1 ≤ cir) && decide (cir ≤ pir) && decide (1 ≤ cbs) && decide (cbs ≤ pbs))

/-- The meter a LOAD leaves: full buckets, t_last the reading of the write; the counts go on (R459). -/
def FlowMeter.load (m : FlowMeter) (en unitBytes : Bool) (cir pir cbs pbs t : Nat) : FlowMeter :=
  { m with en := en, unitBytes := unitBytes, cir := cir, pir := pir, cbs := cbs, pbs := pbs,
           tc := cbs * 100000, tp := pbs * 100000, last := t }

/-- One flow's meter changed. -/
def Block.setFlow (b : Block) (f : Nat) (m : FlowMeter) : Block :=
  { b with trf := { b.trf with flows := sset {} b.trf.flows f m } }

/-- The flow's meter. -/
def Block.flow (b : Block) (f : Nat) : FlowMeter := sget {} b.trf.flows f

/-- The meter of a client session loaded from the DEF registers when it opens (R452). -/
def Block.loadDefaults (b : Block) (f : Nat) : Block :=
  let en := decide (b.fld pTrf 0x180 0 1 = 1)
  let r (i : Nat) := b.get pTrf (0x184 + 4 * i)
  if meterOk en (r 0) (r 1) (r 2) (r 3) then
    b.setFlow f ((b.flow f).load en (decide (b.fld pTrf 0x180 1 1 = 1)) (r 0) (r 1) (r 2) (r 3) b.meter)
  else b.raiseErr pTrf 17

/-! ## Groups, shapers and buckets -/

/-- The group of an ingress queue: 0 to 4 and 6, and 10 + i for privileged queue 46 + i (R453). -/
def groupOf (q : Nat) : Nat :=
  if q < 36 then q / 9 else if q < 45 then 4 else if q = 45 then 6 else 10 + (q - 46)

/-- The group of an egress queue: 0 to 4 and 6, and 10 + i for privileged queue 70 + i. -/
def egressGroup (q : Nat) : Nat := if q < 69 then q - 64 else if q = 69 then 6 else 10 + (q - 70)

/-- The ingress entries of a group. -/
def Block.groupEntries (b : Block) (g : Nat) : List TrfEntry := b.trf.entries.filter (fun e => decide (groupOf e.queue = g))

/-- A shaper brought up to a reading (R460): `busy` says the group holds an entry. -/
def Shaper.sync (x : Shaper) (slope hi : Nat) (busy : Bool) (now : Nat) : Shaper :=
  let us := (now - x.last) / 100
  let c := x.count + slope * us
  let c := if busy then min c hi else if x.count < 0 then min c 0 else 0
  { count := c, last := if busy ∨ x.count < 0 then x.last + us * 100 else now }

/-- A token bucket brought up to a reading (R461): `count` is what it lacks of BURST, in 1/100,000 byte. -/
def Shaper.refill (x : Shaper) (rate now : Nat) : Shaper :=
  { count := max 0 (x.count - rate * (now - x.last)), last := now }

/-- The shaper of a group (direction 0 ingress, 1 egress) brought up to now: an egress group whose oldest entry has come since was empty
before. -/
def Block.shaper (b : Block) (dir g : Nat) : Shaper :=
  let head := b.egress.find? (fun e => decide (egressGroup e.queue = g))
  let busy := if dir = 0 then decide (b.groupEntries g ≠ []) else head.isSome
  let o := 0x1C0 + 0x20 * dir + 4 * g
  let slope := b.fld pTrf o 0 16
  let hi := b.fld pTrf o 16 16 * 1024
  let x := sget {} b.trf.shapers (8 * dir + g)
  let x := match (if dir = 0 then none else head) with
    | some e => if x.last < e.arrived then x.sync slope hi false e.arrived else x
    | none => x
  x.sync slope hi busy b.meter

/-- The token count of bucket i of a direction, in 1/100,000 byte. -/
def Block.tokens (b : Block) (dir i : Nat) : Int :=
  let o := 0x200 + 0x10 * (4 * dir + i)
  (b.get pTrf (o + 4) * 100000 : Int) - ((sget {} b.trf.buckets (4 * dir + i)).refill (b.get pTrf o) b.meter).count

/-- A group's shaper charged with an entry's size after it is brought up to now. -/
def Block.charge (b : Block) (dir g size : Nat) : Block :=
  let x := b.shaper dir g
  { b with trf := { b.trf with shapers := sset {} b.trf.shapers (8 * dir + g) { x with count := x.count - size } } }

/-- A bucket charged. -/
def Block.chargeBucket (b : Block) (dir i size : Nat) : Block :=
  let o := 0x200 + 0x10 * (4 * dir + i)
  let x := (sget {} b.trf.buckets (4 * dir + i)).refill (b.get pTrf o) b.meter
  let y : Shaper := { x with count := x.count + size * 100000 }
  { b with trf := { b.trf with buckets := sset {} b.trf.buckets (4 * dir + i) y } }

/-- A group's shaper brought up to now and kept, before its entries change. -/
def Block.syncShaper (b : Block) (dir g : Nat) : Block := b.charge dir g 0

/-- A group that has become empty with credit above 0 loses it (R460). -/
def Block.settleShaper (b : Block) (dir g : Nat) : Block :=
  let x := b.shaper dir g
  let busy := if dir = 0 then decide (b.groupEntries g ≠ [])
    else b.egress.any (fun e => decide (egressGroup e.queue = g))
  if !busy ∧ 0 < x.count then
    { b with trf := { b.trf with shapers := sset {} b.trf.shapers (8 * dir + g) { x with count := 0 } } }
  else b

/-! ## Ingress -/

/-- A group is congested (R456). -/
def Block.congested (b : Block) (g : Nat) : Bool :=
  decide (b.fld pTrf 0x10C 16 16 < (b.groupEntries g).length) ||
  decide (65536 * b.fld pTrf 0x10C 0 7 < 100 * b.trf.entries.length)

/-- The groups that are congested now noted; INT_STATUS.CONGESTED rises when one becomes so. -/
def Block.noteCongestion (b : Block) : Block :=
  let now := [0, 1, 2, 3, 4, 6].filter b.congested
  let new := now.filter (fun g => !decide (g ∈ b.trf.congested))
  let b := { b with trf := { b.trf with congested := now } }
  if new = [] then b else b.raiseInt pTrf 16

/-- An entry put at the end of its queue, once the groups that removed entries have left uncongested are noted (R453, R456, R464). -/
def Block.enqueue (b : Block) (e : TrfEntry) : Block :=
  let b := b.noteCongestion.syncShaper 0 (groupOf e.queue)
  let l : List TrfEntry := b.trf.entries ++ [e]
  let t : Trf := { b.trf with entries := l }
  let b := { b with trf := markDepth t e.queue (l.filter (fun (x : TrfEntry) => decide (x.queue = e.queue))).length }
  (b.raiseMark pTrf 0x108 17 l.length).noteCongestion

/-- The first message outside the store let in, where it has room (R457). -/
def Block.admitOne (b : Block) : Block :=
  match b.trf.outside with
  | [] => b
  | e :: l => if b.trf.entries.length < 65536 then { b with trf := { b.trf with outside := l } }.enqueue e else b

/-- Messages outside the store let in while it has room (R457). -/
def Block.admitOutside (b : Block) : Block := b.trf.outside.foldl (fun b _ => b.admitOne) b

/-- A rope or OPEN message put into its queue; it waits outside while the store is full (R457), and passes at once
while TRF is OFF (R467). -/
def Block.enqueueMessage (b : Block) (e : TrfEntry) : Block :=
  if b.pageState pTrf < 2 then { b with trf := { b.trf with handed := b.trf.handed ++ [e.kind] } }
  else
    let b := b.admitOutside
    if b.trf.entries.length < 65536 then b.enqueue e else { b with trf := { b.trf with outside := b.trf.outside ++ [e] } }

/-- The traffic class of a command (R453). -/
def Block.cmdClass (b : Block) (c : Cmd) : Nat :=
  match c.src with
  | .port p => b.fld pHlk (0x800 + 0x20 * p) 16 3
  | .session _ _ => min c.cls 3

/-- A command's size in its meter's unit (R455). -/
def cmdSize (unitBytes : Bool) (c : Cmd) : Nat :=
  if !unitBytes then 1
  else match c.src with
    | .port _ => 64 + (if c.payValid then c.pay.len else 0)
    | .session _ _ => 64 + c.body.length

/-- A command ended POLICED (R456 to R458). -/
def Block.police (b : Block) (id : Nat) (red : Bool) : Block :=
  match b.cmd id with
  | none => b
  | some c =>
    let f := flowOf c.src
    let m := b.flow f
    let b := if red then b.bump pTrf 2
      else (b.setFlow f { m with ydrop := (m.ydrop + 1) % 2 ^ 32 }).bump pTrf 3
    b.finish id stPoliced { lateOk := false }

/-- The most recently queued yellow entry of IG0 to IG3. -/
def newestYellow (l : List TrfEntry) : Option TrfEntry :=
  l.reverse.find? (fun e => e.yellow && decide (e.queue < 36))

/-- A command that has passed the checks before it meets its flow's meter, and enters its queue or ends POLICED
(R455 to R457). -/
def Block.meterCommand (b : Block) (id : Nat) : Block :=
  let b := b.admitOutside
  match b.cmd id with
  | none => b
  | some c =>
    let f := flowOf c.src
    let m := b.flow f
    let (colour, m') := m.arrive b.meter (cmdSize m.unitBytes c)
    let b := b.setFlow f (m'.count colour)
    let pitch := b.pitchFor c.opcode c.deadline
    let q := 9 * b.cmdClass c + (match pitch with | none => 8 | some p => p % 8)
    let e : TrfEntry := ⟨.command id, q, decide (colour = .yellow), cmdSize true c, b.meter, pitch, c.deadline⟩
    let b := b.setCmd id (fun c => { c with pitch := pitch, phase := .queued })
    match colour with
    | .red => b.police id true
    | .yellow =>
      let b := b.bump pTrf 1
      if b.congested (groupOf q) || decide (65536 ≤ b.trf.entries.length) then b.police id false
      else b.enqueue e
    | .green =>
      let (inj, b) := (b.bump pTrf 0).takeInjected pTrf 16
      if inj then (b.raiseErr pTrf 16 c.opcode).police id false
      else if b.trf.entries.length < 65536 then b.enqueue e
      else match newestYellow b.trf.entries with
        | some ⟨.command old, _, _, _, _, _, _⟩ => (b.police old false).enqueue e
        | _ => (b.raiseErr pTrf 16 c.opcode).police id false

/-! ## The schedulers (R462) -/

/-- Whether entry x is taken before entry y within a group: the lane whose pitch is earliest, then lane 8. -/
def laneBefore (x y : TrfEntry) : Bool :=
  match x.pitch, y.pitch with
  | some p, some q => decide (p < q)
  | some _, none => true
  | _, _ => false

/-- The entry a group would serve, among those whose target can take them. -/
def groupHead (l : List TrfEntry) : Option TrfEntry :=
  l.foldl (fun best e => match best with
    | none => some e
    | some x => if laneBefore e x then some e else some x) none

/-- The group that is served: eligible groups first, the highest credit, then the lower number (R462). -/
def bestGroup (credit : Nat → Int) (gs : List Nat) : Option Nat :=
  let pick (l : List Nat) : Option Nat := leastBy (fun x y => decide (credit y < credit x)) l
  match pick (gs.filter (fun g => decide (0 ≤ credit g))) with
  | some g => some g
  | none => pick gs

/-- An entry taken out of the ingress store and handed on, a command to the block that admits it; one whose deadline has passed in the queue
ends LATE, a rope message without a reply (R148, R463). -/
def Block.handOver (b : Block) (e : TrfEntry) : Block :=
  let b := ({ b with trf := { b.trf with entries := b.trf.entries.erase e } }.markDelay e.queue e.arrived).bump pTrf 4
  let b := match e.kind with
    | .command id =>
      if b.passed e.deadline then (b.bump pTrf 6).finish id stLate
      else b.setCmd id (fun c => { c with phase := .handed })
    | k => if b.passed e.deadline then b.bump pTrf 6 else { b with trf := { b.trf with handed := b.trf.handed ++ [k] } }
  b.admitOutside.noteCongestion

/-- One service opportunity of the ingress scheduler; `full` names the queues whose target cannot take an entry. -/
def ingressService (full : List Nat) (b : Block) : Block :=
  let b := b.admitOutside
  let ready := b.trf.entries.filter (fun e => !decide (e.queue ∈ full))
  let priv := [48, 49, 47, 46].filterMap (fun q =>
    if 0 ≤ b.tokens 0 (q - 46) then ready.find? (fun e => decide (e.queue = q)) else none)
  match priv with
  | e :: _ => (b.handOver e).chargeBucket 0 (e.queue - 46) e.size
  | [] =>
    let gs := [0, 1, 2, 3, 4, 6].filter (fun g => ready.any (fun e => decide (groupOf e.queue = g)))
    match bestGroup (fun g => (b.shaper 0 g).count) gs with
    | none => b
    | some g =>
      match groupHead (ready.filter (fun e => decide (groupOf e.queue = g))) with
      | none => b
      | some e => ((b.charge 0 g e.size).handOver e).settleShaper 0 g

/-- INGRESS_SERVICE (R462). -/
def ownIngressService (full : List Nat) (s : State) : Result := .next (s.on (ingressService full))

/-- One service opportunity of the egress scheduler; `full` names the queues whose message no port can take. -/
def egressService (full : List Nat) (b : Block) : Block :=
  let ready := b.egress.filter (fun e => !decide (e.queue ∈ full))
  let serve (b : Block) (e : EgressEntry) : Block :=
    let b := { b with egress := b.egress.erase e }
    ((b.markDelay e.queue e.arrived).bump pTrf 5).transmitBytes e.msg e.bytes
  let priv := [72, 73, 71, 70].filterMap (fun q =>
    if 0 ≤ b.tokens 1 (q - 70) then ready.find? (fun e => decide (e.queue = q)) else none)
  match priv with
  | e :: _ => (serve b e).chargeBucket 1 (e.queue - 70) e.bytes.length
  | [] =>
    let gs := [0, 1, 2, 3, 4, 6].filter (fun g => ready.any (fun e => decide (egressGroup e.queue = g)))
    match bestGroup (fun g => (b.shaper 1 g).count) gs with
    | none => b
    | some g =>
      match ready.find? (fun e => decide (egressGroup e.queue = g)) with
      | none => b
      | some e => (serve (b.charge 1 g e.bytes.length) e).settleShaper 1 g

/-- EGRESS_SERVICE (R462). -/
def execEgressService (full : List Nat) (s : State) : Result := .next (s.on (egressService full))

/-! ## Meter loads and sampling -/

/-- A write of FLOW_CTRL: METER_EN and UNIT are staged, and LOAD applies the staged meter to the selected flow
(R459). -/
def flowCtrlWrite (v : BitVec 32) (b : Block) : Block :=
  let b := b.put pTrf 0x144 (v.toNat % 4)
  if !v.getLsbD 2 then b
  else
    let f := b.fld pTrf 0x140 0 13
    let en := v.getLsbD 0
    let r (i : Nat) := b.get pTrf (0x148 + 4 * i)
    if meterOk en (r 0) (r 1) (r 2) (r 3) ∧ (b.flowKind f = 1 ∨ b.flowKind f = 2) then
      b.setFlow f ((b.flow f).load en (v.getLsbD 1) (r 0) (r 1) (r 2) (r 3) b.meter)
    else b.raiseErr pTrf 17

/-- LOAD (R459): a FLOW_CTRL write. -/
def ownLoad (value : BitVec 32) (s : State) : Result := .next (s.onWrite (flowCtrlWrite value))

/-- Age of a queue's head entry in 100 ns units, saturating; 0 when empty (R465). -/
def Block.headAge (b : Block) (q : Nat) : Nat :=
  let t := if q < 64 then (b.trf.entries.find? (fun e => decide (e.queue = q))).map (·.arrived)
    else (b.egress.find? (fun e => decide (e.queue = q))).map (·.arrived)
  match t with | none => 0 | some a => min ((b.meter - a) / 10) 0xFFFFFFFF

/-- Entries queued in a queue. -/
def Block.depth (b : Block) (q : Nat) : Nat :=
  if q < 64 then (b.trf.entries.filter (fun e => decide (e.queue = q))).length
  else (b.egress.filter (fun e => decide (e.queue = q))).length

/-- The queues selected by SAMPLE_MASK, ascending. -/
def Block.sampled (b : Block) : List Nat :=
  (List.range 128).filter (fun q => decide (b.fld pTrf (0x130 + 4 * (q / 32)) (q % 32) 1 = 1))

/-- One sampling round (R465): all its records, or none when the ring has no room for them. -/
def sampleRound (b : Block) : Block :=
  let qs := b.sampled
  let wr := b.get pTrf 0x124
  let rd := b.get pTrf 0x128
  let n := b.get pTrf 0x120
  let used := (wr + 2 ^ 32 - rd) % 2 ^ 32
  let r := b.trf.round
  let b := { b with trf := { b.trf with round := r + 1 } }
  if n < used + qs.length then (b.bump32 pTrf 0x12C).raiseErr pTrf 18
  else
    let b := (List.range qs.length).foldl (fun b i =>
      let q := qs.getD i 0
      b.hostWrite (b.get pTrf 0x118 + 16 * ((wr + i) % n))
        (toLe r 4 ++ toLe q 4 ++ toLe (b.depth q) 4 ++ toLe (b.headAge q) 4)) b
    let b := (b.bump32 pTrf 0x124 qs.length).bump pTrf 7
    if used < n / 2 ∧ n / 2 ≤ used + qs.length then b.raiseInt pTrf 17 else b

/-- A SAMPLE_CTRL write: EN written 1 starts at round 0 (R465). -/
def sampleCtrlWrite (v : BitVec 32) (b : Block) : Block :=
  let was := b.fld pTrf 0x110 0 1
  let b := b.put pTrf 0x110 (v.toNat % 2)
  if was = 0 ∧ v.getLsbD 0 then
    sampleRound { b with trf := { b.trf with round := 0, roundBase := b.meter } }
  else b

/-- SAMPLE_EN_WRITE (R465). -/
def ownSampleEnWrite (value : BitVec 32) (s : State) : Result := .next (s.onWrite (sampleCtrlWrite value))

/-- SAMPLE_ROUND: round r falls SAMPLE_PERIOD × r after round 0, while EN is 1 (R465). -/
def ownSampleRound (s : State) : Result :=
  .next (s.on (fun b =>
    if b.fld pTrf 0x110 0 1 = 1 ∧ b.trf.roundBase + b.get pTrf 0x114 * 100 * b.trf.round ≤ b.meter then sampleRound b
    else b))

end Sys2Proof.Machine
end

