-- ==== Sys2Proof/Machine/HostPort.lean ====
section
/-! DEFINITION. Command ports and the way in (R46 to R58): port enables, posts, the checks before admission in the order
of R58. Its rows: PORT_ENABLE, PORT_DISABLE, POST. -/

namespace Sys2Proof.Machine

/-- Offset of port p's block in the HLK page (R45). -/
def portOff (p : Nat) : Nat := 0x800 + 0x20 * p

/-! ## Checks before admission (R58) -/

/-- TSTATE of SEC_STATUS (R471): 0 VACANT, 1 SERVING, 2 RELEASING. -/
def Block.tstate (b : Block) : Nat := b.fld pSec 0x100 0 2

/-- Some page of a list is RUNNING. -/
def Block.someRunning (b : Block) (l : List PageRef) : Bool := l.any b.running

/-- The pages of the admitting module an opcode needs; of each list, one page RUNNING suffices (R36, R120, R130, R205,
R369, R381, R413; DEDUCED, log 7); `action` is TBL_SWITCH's ACTION (R338). -/
def neededPages (op action : Nat) : List (List PageRef) :=
  let slus := (List.range 64).map pSlu
  if op ∈ [0x10, 0x11, 0x12] then [[pQpl 0, pQpl 1], [pIdx], slus]
  else if op = 0x13 then [slus]
  else if op = 0x25 then [[pIdx], [pFtl]]
  else if op / 16 = 2 then [[pIdx]]
  else if op = 0x33 ∧ action = 1 then [[pTbl], [pFtl]]
  else if op / 16 = 3 then [[pTbl]]
  else if op = 0x40 then [[pFtl]]
  else if op = 0x54 ∨ op = 0x55 ∨ op / 16 = 6 then [[pFtl]]
  else if op / 16 = 5 then [[pCxp 0]]
  else []

/-- The command is refused for the tenant's state (R471): while TSTATE is not SERVING only driver commands of the index,
table, job, pool, state and discard groups run. -/
def Block.tenantRefuses (b : Block) (c : Cmd) : Bool :=
  decide (b.tstate ≠ 1) &&
    (match c.src with | .port _ => decide (c.opcode / 16 < 2) | .session _ _ => true)

/-- The right a session needs for an opcode's group (R476); SESSION_CLOSE needs none, and SESSION_OPEN and SESSION_PROVE are
not accepted from an open session (R57). -/
def lacksRight (rights op : Nat) : Bool :=
  decide (op = 0x70 ∨ op = 0x71) ||
    (decide (op < 0x70) && (driverOnly op || decide (nbits rights (op / 16 - 1) 1 = 0)))

/-- a is after b as serial numbers (R431). -/
def seqAfter (a b : Nat) : Bool :=
  let d := (a + 2 ^ 32 - b) % 2 ^ 32
  decide (1 ≤ d) && decide (d ≤ 2 ^ 31 - 1)

/-- seq lies in the window HIGH − 65,535 to HIGH (R431). -/
def inWindow (high seq : Nat) : Bool := decide ((high + 2 ^ 32 - seq) % 2 ^ 32 ≤ 65535)

/-- What a check before admission says. -/
inductive Verdict where
  | pass
  | ends (st : Nat) (x : Extra)
  | holds (id : Nat)
deriving DecidableEq, Repr

/-- De-duplication of a mutating command of a session (R236, R431): made when the command arrives, and again as it is admitted,
so that the second of two copies that were both queued finds its SEQ delivered (log 115). -/
def Block.dedupe (b : Block) (c : Cmd) : Verdict :=
  match c.src with
  | .port _ => .pass
  | .session n _ =>
    if !mutating c.opcode then .pass
    else
      let x : Session := sget {} b.sessions n
      if seqAfter c.seq x.high then .pass
      else if inWindow x.high c.seq then
        match x.done.find? (fun e => decide (e.1 = c.seq)) with
        | some e => .ends stDuplicate { orig := e.2.1, cairn := e.2.2 }
        | none =>
          match b.cmds.find? (fun d => d.admitted && decide (d.seq = c.seq) && mutating d.opcode &&
              (match d.src with | .session m _ => decide (m = n) | .port _ => false)) with
          | some d => .holds d.id
          | none => .pass
      else .ends stStale {}

/-- A session's commands are refused: KWT is not RUNNING, or the session is not OPEN (R449, R480). -/
def Block.sessionClosed (b : Block) (c : Cmd) : Bool :=
  match c.src with
  | .port _ => false
  | .session n _ => decide (b.pageState pKwt ≠ 2) || decide ((sget {} b.sessions n : Session).state ≠ .opened)

/-- Some page that the command needs here does not run (R33, R36). -/
def Block.lacksPage (b : Block) (c : Cmd) : Bool :=
  (neededPages c.opcode (c.param 32 2)).any (fun l => !b.someRunning l)

/-- What is checked again as a command is admitted: its SEQ, which another copy may have used (R431), and the pages that it
needs here, which may have left RUNNING while it waited (R33; DEDUCED, log 115). -/
def Block.recheck (b : Block) (c : Cmd) : Verdict :=
  match b.dedupe c with
  | .pass => if b.lacksPage c then .ends stDisabled {} else .pass
  | v => v

/-- The checks of R58 that come before the ingress meter, in order, for a command that came in a message of class `cls`; a
client session may not use the classes 4 to 7 of the rope (R432). -/
def Block.precheck (b : Block) (c : Cmd) (cls : Nat := 0) : Verdict :=
  let rights : Nat := match c.src with
    | .port _ => 0x7F
    | .session n _ => (sget {} b.sessions n).rights
  let isSession := match c.src with | .port _ => false | .session _ _ => true
  if badFormat b c then .ends stBadCommand {}
  else if isSession && (lacksRight rights c.opcode || decide (4 ≤ cls)) then .ends stAuth {}
  else match b.dedupe c with
    | .pass =>
      if b.sessionClosed c || !b.running pTrf || b.tenantRefuses c || b.lacksPage c then .ends stDisabled {}
      else if b.beyondReach c.accepted c.budget then .ends stOutOfRange {}
      else .pass
    | v => v

/-- A verdict acted on: the command ended, held for its original, or taken on. -/
def Block.judge (b : Block) (id : Nat) (v : Verdict) (k : Block → Block) : Block :=
  match v with
  | .ends st x => b.finish id st { x with lateOk := false }
  | .holds d => b.setCmd id (fun c => { c with dupOf := some d, phase := .waiting })
  | .pass => k b

/-- A new command checked and put on its way (R58): ended, held for its original, or metered into its queue. -/
def Block.accept (b : Block) (c : Cmd) (cls : Nat := 0) : Block :=
  let b := { b with cmds := b.cmds ++ [c], nextCmd := b.nextCmd + 1 }
  b.judge c.id (b.precheck c cls) (fun b =>
    (b.setCmd c.id (fun c => { c with deadline := deadlineOf c.accepted c.budget })).meterCommand c.id)

/-- A command as it arrives now. -/
def Block.newCmd (b : Block) (src : Source) (raw body : Bytes) : Cmd :=
  { id := b.nextCmd, src := src, raw := raw, body := body, accepted := b.meter, deadline := none, pitch := none,
    phase := .queued, die := 0, cairn := 0 }

/-- Search, table and job groups, STATE_PUSH and STATE_FETCH are throttled (R82). -/
def throttled (op : Nat) : Bool := decide (op / 16 ∈ [1, 3, 4]) || decide (op = 0x54 ∨ op = 0x55)

/-- HIGH of a delivered command's session raised (R431, R58). -/
def Block.deliver (b : Block) (c : Cmd) : Block :=
  match c.src with
  | .port _ => b
  | .session n _ =>
    let x : Session := sget {} b.sessions n
    if seqAfter c.seq x.high then { b with sessions := sset {} b.sessions n { x with high := c.seq } } else b

/-- A payload that meets a lost page of the pool ends its command TIER_FAULT (R371). -/
def lostPayload (c : Cmd) (b : Block) : Block := b.finish c.id stTierFault

/-- Admission of a command the scheduler has handed to its block (R58, R82): LATE when its deadline has passed, checked again,
THROTTLED when admission is closed on every die of `dies`, else admitted on the first open die and given to `k`: of two
open dies the module takes the lower-numbered (DESIGN CHOICE, log 8). A
payload in the pool is bound then (R382); one that needs a lost page is given to `lost` (R371). -/
def Block.admitCmd (b : Block) (id op : Nat) (dies : List Nat) (k : Cmd → Block → Block)
    (lost : Cmd → Block → Block := lostPayload) : Block :=
  match b.cmd id with
  | none => b
  | some c =>
    if c.phase ≠ .handed ∨ c.opcode ≠ op then b
    else if b.passed c.deadline then b.finish id stLate
    else b.judge id (b.recheck c) (fun b =>
      let allowed := if throttled op then dies.filter (fun d => !b.admitClosed d) else dies
      match allowed with
      | [] => (b.bump pPwr 3).finish id stThrottled
      | die :: _ =>
        let b := b.deliver c
        let b := b.setCmd id (fun c => { c with phase := .working, die := die, admitted := true })
        match b.cmd id with
        | none => b
        | some c =>
          if c.payValid ∧ c.pay.space = 1 then
            match b.poolRead c.who c.pay.addr c.pay.len with
            | none => lost c b
            | some bs => let b := b.setCmd id (fun c => { c with body := bs }); k { c with body := bs } b
          else k c b)

/-! ## Ports -/

/-- A PORT_CTRL write (R46 to R49). CREDITS_M1 and CLASS, and ENABLE 1, apply only while IDLE is 1; CLASS 4 to 7 leaves
the field unchanged; CPL_INT always applies. -/
def portCtrlWrite (p : Nat) (v : BitVec 32) (b : Block) : Block :=
  let o := portOff p
  let w := v.setWidth 64
  let idle := b.portIdle p
  let was := b.fld pHlk o 0 1
  let b := b.setFld pHlk o 1 1 (bits w 1 1)
  let b := if idle then b.setFld pHlk o 8 8 (bits w 8 8) else b
  let b := if idle ∧ bits w 16 3 < 4 then b.setFld pHlk o 16 3 (bits w 16 3) else b
  if was = 0 then
    if bits w 0 1 = 1 ∧ idle then
      (b.setFld pHlk o 0 1 1).setPort p {} |>.hostWrite (b.get pHlk (o + 8)) (toLe 0 8)
    else b
  else if bits w 0 1 = 0 then b.setFld pHlk o 0 1 0 else b

/-- PORT_ENABLE (R48): a PORT_CTRL write. -/
def execPortEnable (port : Fin 64) (value : BitVec 32) (s : State) : Result :=
  .next (s.onWrite (portCtrlWrite port.val value))

/-- PORT_DISABLE (R49): a PORT_CTRL write. -/
def execPortDisable (port : Fin 64) (value : BitVec 32) (s : State) : Result :=
  .next (s.onWrite (portCtrlWrite port.val value))

/-- A post that is dropped: counted at the port and in CNT5, DROPPED_POST set (R50). -/
def Block.dropPost (b : Block) (p : Nat) : Block :=
  ((b.bump32 pHlk (portOff p + 0x18)).bump pHlk 5).raiseErr pHlk 16

/-- A read of the host die in the post aperture: 0, or host memory while POST_BASE is 0 (R50). -/
def postRead (p offset : Nat) (b : Block) : Block :=
  if !b.reachable then { b with out := { b.out with readData := 0xFFFFFFFF } }
  else
    let v := if b.get pHlk 0x108 = 0 then leNat (b.hostRead (0x1000 * p + offset) 8) else 0
    { b with out := { b.out with readData := BitVec.ofNat 64 v } }

/-- A write of the post aperture is a post that its port takes: 64 aligned bytes, to a port that is enabled (R50, R53). -/
def Block.postOk (b : Block) (p offset : Nat) (data : Bytes) : Bool :=
  decide (offset % 64 = 0) && decide (data.length = 64) && decide (b.fld pHlk (portOff p) 0 1 = 1) && !(b.port p).violated

/-- A post counted at its port: the command that it is, and the block. -/
def Block.takePost (b : Block) (p : Nat) (data : Bytes) : Cmd × Block :=
  let x := b.port p
  let b := (b.setPort p { x with posts := x.posts + 1 }).bump pHlk 0
  (b.newCmd (.port p) data [], b)

/-- A post whose command ends at once with a status. -/
def Block.endPost (b : Block) (p st : Nat) (data : Bytes) : Block :=
  let (c, b) := b.takePost p data
  let b := { b with cmds := b.cmds ++ [c], nextCmd := b.nextCmd + 1 }
  b.finish c.id st { lateOk := false }

/-- A write of the host die at an offset of port p's window of the post aperture (R50, R53). -/
def postWrite (p : Nat) (offset : Nat) (data : Bytes) (b : Block) : Block :=
  if !b.reachable then b
  else if b.get pHlk 0x108 = 0 then b.hostWrite (0x1000 * p + offset) data
  else if !b.postOk p offset data then b.dropPost p
  else if b.credits p ≤ b.portInflight p then
    ((b.setPort p { b.port p with violated := true }).bump pHlk 6).raiseErr pHlk 17 (b.newCmd (.port p) data []).opcode
  else if !b.running pHlk then b.endPost p stDisabled data
  else
    let (c, b) := b.takePost p data
    b.accept c

/-- POST (R50). -/
def ownPost (port : Fin 64) (offset : BitVec 12) (data : Option Bytes) (s : State) : Result :=
  .next (s.on (match data with
    | some bs => postWrite port.val offset.toNat bs
    | none => postRead port.val offset.toNat))

end Sys2Proof.Machine
end

