-- ==== Sys2Proof/Machine/IndexOps.lean ====
section
/-! DEFINITION. What a search computes from an index, as functions of the data alone (R150 to R153): visibility, filters,
the distance tables, the first pass, the navigation walk, the merges and the final selection. -/

namespace Sys2Proof.Machine

/-! ## Keys (R142, R146, R216) -/

/-- The fill vector ID. -/
abbrev noId : Nat := 0xFFFFFFFFFFFFFFFF

/-- The first-pass key order: (d, vector ID, partition). -/
def firstPassLt (x y : Entry) : Bool :=
  decide (x.d < y.d) || (decide (x.d = y.d) && (decide (x.vid < y.vid) || (decide (x.vid = y.vid) && decide (x.part < y.part))))

/-- The dedupe key order: vector ID, then the highest cairn, then d, then partition (R216). -/
def dedupeLt (x y : Entry) : Bool :=
  decide (x.vid < y.vid) || (decide (x.vid = y.vid) && (decide (y.cairn < x.cairn) || (decide (x.cairn = y.cairn) &&
    (decide (x.d < y.d) || (decide (x.d = y.d) && decide (x.part < y.part))))))

/-- The refined key order: (k(exact distance), vector ID). -/
def refinedLt (x y : Refined) : Bool :=
  decide ((orderKey x.dist).toNat < (orderKey y.dist).toNat) ||
  (decide (orderKey x.dist = orderKey y.dist) && decide (x.vid < y.vid))

/-- The C entries of lowest first-pass key. -/
def lowest (c : Nat) (l : List Entry) : List Entry := (sortBy firstPassLt l).take c

/-! ## Versions -/

/-- The CURRENT version (R112). -/
def Index.current (x : Index) : Option Version := x.versions.find? (fun y => decide (y.state = .current))

/-- A version changed. -/
def Index.setVersion (x : Index) (v : Nat) (f : Version → Version) : Index :=
  { x with versions := mapIf (fun y => decide (y.root.version = v)) f x.versions }

/-- The bytes of a code: C of R88. -/
def codeSize (m : Nat) (code8 : Bool) : Nat := if code8 then m else m / 2

/-- The shard of a partition (R129). -/
def shardOf (part : Nat) : Nat := part / 2 ^ 24 % 256

/-- A place of a list fixed earlier, or of the rope as it is now while there is no list. -/
def Block.fixedPlace (b : Block) (l : List Nat) (n : Nat) : Nat :=
  if l = [] then b.pickPlace n else l.getD (n % l.length) b.place

/-- The place that holds a shard (R342): the owner map's, or, where no migration has changed the map, the first placement among the
places that the rope had when the index was first mounted. -/
def Block.placeOfShard (b : Block) (ix shard : Nat) : Nat :=
  match b.shardMap.find? (fun e => decide (e.1 = (ix, shard))) with
  | some e => e.2
  | none => b.fixedPlace (b.index ix).owners (Config.shardPlace ix shard)

/-- The index is EXHAUSTED (R111): ASSIGNED is counted by its keeper, so that only the keeper's place shows it (DESIGN CHOICE, log
150). -/
def Index.exhausted (x : Index) : Bool := decide (0xFFFFFFFFFFFE ≤ x.assigned)

/-! ## Visibility (R105) -/

/-- A tombstone of the ID lies above e and at or below q. -/
def tombHides (tombs : List Tombstone) (vid e q : Nat) : Bool :=
  tombs.any (fun t => decide (t.vid = vid) && (match t.cairn with
    | some c => decide (e < c) && decide (c ≤ q)
    | none => false))

/-- A partition entry of ordinal g is visible at cairn q: FLOOR is at or below q and the deletion map names no tombstone
of it at or below q. -/
def Version.sees (v : Version) (g q : Nat) : Bool :=
  decide (v.root.floor ≤ q) && !v.dels.any (fun d => decide (d.1 = g) && decide (d.2 ≤ q))

/-! ## Filters (R101, R124) -/

/-- An attribute field's raw value, by its SCHEMA word. -/
def attrField (schema : Nat) (attr : Bytes) : Nat := nbits (leNat attr) (nbits schema 0 10) (nbits schema 10 6 + 1)

/-- The SCHEMA entry is unused (R101). -/
def schemaUnused (w : Nat) : Bool := decide (nbits w 0 18 = 0)

/-- A field's TYPE (R101). -/
def schemaType (w : Nat) : Nat := nbits w 16 2

/-- One filter term on an attribute row (R124). -/
def termPasses (schema : List Nat) (attr : Bytes) (t : Term) : Bool :=
  let w := schema.getD t.field 0
  let f := attrField w attr
  let x : BitVec 64 := if schemaType w = 1 then BitVec.ofInt 64 (signed (nbits w 10 6 + 1) f) else BitVec.ofNat 64 f
  let v := BitVec.ofNat 64 t.value
  let lt : Bool := if schemaType w = 1 then x.slt v else x.ult v
  let z := BitVec.ofNat 64 f
  match t.op with
  | 0 => decide (x = v)
  | 1 => decide (x ≠ v)
  | 2 => lt
  | 3 => lt || decide (x = v)
  | 4 => !(lt || decide (x = v))
  | 5 => !lt
  | 6 => decide (z &&& v ≠ 0)
  | 7 => decide (z &&& v = v)
  | _ => decide (z &&& v = 0)

/-- All terms hold. -/
def passes (schema : List Nat) (attr : Bytes) (terms : List Term) : Bool := terms.all (termPasses schema attr)

/-! ## Codebooks and distance tables (R94, R141, R319) -/

/-- The sub-vector j of a codebook's centroid c as binary32. -/
def centroid (cb : Bytes) (k dsub j c : Nat) : List F32 :=
  (List.range dsub).map (fun d => bf16 (BitVec.ofNat 16 (le cb (2 * ((j * k + c) * dsub + d)) 2)))

/-- The binary32 distance table of a query against a codebook, entry (j, c) at j × K + c (R294). -/
def distTable (metric dim m k : Nat) (cb : Bytes) (x : List F32) : List F32 :=
  let dsub := dim / m
  (List.range m).flatMap (fun j =>
    (List.range k).map (fun c => tableEntry metric ((x.drop (j * dsub)).take dsub) (centroid cb k dsub j c)))

/-- The 4-bit and 8-bit tables of a query at a version, quantised together (R141, R319). -/
def queryTables (ix : Index) (r : Root) (q : List (BitVec 16)) : List Nat × List Nat :=
  let x := q.map bf16
  let t4 := distTable r.metric r.dim r.m 16 ix.codebook4 x
  let t8 := if r.code8 then distTable r.metric r.dim r.m 256 ix.codebook8 x else []
  let (lo, inv) := tableScale (t4 ++ t8)
  (t4.map (quantise lo inv), t8.map (quantise lo inv))

/-- The PQ distance of a code (R142). -/
def pqSum (table : List Nat) (k : Nat) : Nat → List Nat → Nat
  | _, [] => 0
  | j, c :: cs => table.getD (j * k + c) 0 + pqSum table k (j + 1) cs

/-- The code digits of a vector against a codebook (R231). -/
def encode (dim m k : Nat) (cb : Bytes) (x : List F32) : List Nat :=
  let dsub := dim / m
  (List.range m).map (fun j =>
    let sub := (x.drop (j * dsub)).take dsub
    let keys := (List.range k).map (fun c => ((orderKey (tableEntry 0 sub (centroid cb k dsub j c))).toNat, c))
    match leastBy (fun a b => decide (a.1 < b.1) || (decide (a.1 = b.1) && decide (a.2 < b.2))) keys with
    | some p => p.2
    | none => 0)

/-! ## The first pass (R143, R162, R163, R193) -/

/-- The entry of a partition's slot s, annotated (R163). -/
def slotEntry (v : Version) (p : Part) (table : List Nat) (terms : List Term) (q place s : Nat) (x : Slot) : Entry :=
  { d := pqSum table (if p.code8 then 256 else 16) 0 x.code, vid := x.vid, part := p.number, cairn := v.root.floor,
    visible := v.sees (p.first + s) q, pass := passes v.root.schema x.attr terms, place := place, number := p.first + s }

/-- The entries of slots lo to lo + n − 1 of a partition. -/
def slotEntries (v : Version) (p : Part) (table : List Nat) (terms : List Term) (q place lo n : Nat) : List Entry :=
  ((List.range n).filterMap (fun i => (p.slots[lo + i]?).map (fun x => slotEntry v p table terms q place (lo + i) x)))

/-- The scan of one span of a partition: the C lowest of its entries. -/
def scanSpan (v : Version) (p : Part) (table : List Nat) (terms : List Term) (q place lo n keep : Nat) : List Entry :=
  lowest keep (slotEntries v p table terms q place lo n)

/-- The scan of a whole partition. -/
def scanPart (v : Version) (p : Part) (table : List Nat) (terms : List Term) (q place keep : Nat) : List Entry :=
  scanSpan v p table terms q place 0 p.slots.length keep

/-- A side-list entry of this place as a first-pass entry (R237). -/
def sideEntry (ix : Index) (r : Root) (table : List Nat) (terms : List Term) (q place : Nat) (x : SideEntry) :
    Option Entry :=
  match x.cairn with
  | none => none
  | some e =>
    if r.floor < e ∧ e ≤ q then
      some { d := pqSum table 16 0 x.code, vid := x.vid, part := noPart, cairn := e,
             visible := !tombHides ix.tombs x.vid e q, pass := passes r.schema x.attr terms, place := place, number := x.number }
    else none

/-- Side-list entries of one ID and equal d count as one, the one of highest cairn (R238). -/
def mergeEqual : List Entry → List Entry
  | [] => []
  | x :: xs =>
    let r := mergeEqual xs
    if r.any (fun y => decide (y.vid = x.vid ∧ y.d = x.d ∧ x.cairn < y.cairn)) then r
    else x :: r.filter (fun y => !decide (y.vid = x.vid ∧ y.d = x.d))

/-- The side pool of a place (R144, R237, R238). -/
def sidePool (ix : Index) (r : Root) (table : List Nat) (terms : List Term) (q place keep : Nat) : List Entry :=
  lowest keep (mergeEqual (ix.side.filterMap (sideEntry ix r table terms q place)))

/-! ## Navigation (R139, R140) -/

/-- A node with its navigation key. -/
def navKey (v : Version) (x : List F32) (n : Nat) : Option (Nat × Nat) :=
  (v.nodes[n]?).map (fun nd =>
    ((orderKey (distance v.root.metric x (vec32 v.root.fmt v.root.dim nd.rep))).toNat, n))

/-- Navigation key order. -/
def navLt (a b : Nat × Nat) : Bool := decide (a.1 < b.1) || (decide (a.1 = b.1) && decide (a.2 < b.2))

/-- A node lies in a shard. -/
def Version.inShard (v : Version) (shard n : Nat) : Bool :=
  match v.nodes[n]? with | some nd => decide (shardOf nd.part = shard) | none => false

/-- The entry nodes of a shard: its ENTRY nodes, or its lowest-numbered node (R129). -/
def Version.entries (v : Version) (shard : Nat) : List Nat :=
  let own := nub (v.root.entry.filter (v.inShard shard))
  if own = [] then ((List.range v.nodes.length).filter (v.inShard shard)).take 1 else own

/-- One turn of the walk: the neighbours of u put into S and seen. -/
def walkTurn (v : Version) (x : List F32) (shard : Nat) :
    List Nat → List (Nat × Nat) × List Nat → List (Nat × Nat) × List Nat
  | [], r => r
  | n :: ns, (s, seen) =>
    if v.inShard shard n && !decide (n ∈ seen) then
      match navKey v x n with
      | some k => walkTurn v x shard ns (insertBy navLt k s, n :: seen)
      | none => walkTurn v x shard ns (s, seen)
    else walkTurn v x shard ns (s, seen)

/-- The walk's loop, at most `fuel` turns; every turn adds a node to done, so the number of nodes suffices. -/
def walkLoop (v : Version) (x : List F32) (shard limit : Nat) :
    Nat → List (Nat × Nat) → List Nat → List Nat → List (Nat × Nat)
  | 0, s, _, _ => s
  | fuel + 1, s, seen, done =>
    match s.find? (fun k => !decide (k.2 ∈ done)) with
    | none => s
    | some u =>
      let nbrs := match v.nodes[u.2]? with | some nd => nd.nbrs | none => []
      let r := walkTurn v x shard nbrs (s, seen)
      walkLoop v x shard limit fuel (r.1.take limit) r.2 (u.2 :: done)

/-- The final node list of the walk of R140. -/
def walk (v : Version) (x : List F32) (shard width waves : Nat) : List (Nat × Nat) :=
  let start := (v.entries shard).filterMap (navKey v x)
  let s := sortBy navLt start
  walkLoop v x shard (max 64 (2 * width * waves)) (v.nodes.length + 1) s (s.map (·.2)) []

/-- The ranked partition list of a shard (R140). -/
def rankedParts (v : Version) (x : List F32) (shard width waves : Nat) : List Nat :=
  ((walk v x shard width waves).take (width * waves)).filterMap (fun k => (v.nodes[k.2]?).map (·.part))

/-! ## Merges (R217, R218) -/

/-- Every input list is strictly ascending under its key (R216). -/
def listsOk {α : Type} (lt : α → α → Bool) (ls : List (List α)) : Bool := ls.all (ascending lt)

/-- Of each run of one vector ID in dedupe-key order, the first entry. -/
def firstOfRuns : List Entry → List Entry
  | [] => []
  | x :: xs => x :: (firstOfRuns xs).filter (fun y => decide (y.vid ≠ x.vid))

/-- A pool merge (R217): the entries left in first-pass order, and how many were invisible, duplicates, filtered. -/
def poolMerge (c : Nat) (ls : List (List Entry)) (postings : Option (List Nat)) : List Entry × Nat × Nat × Nat :=
  let ok (e : Entry) : Bool := e.pass && (match postings with | none => true | some l => decide (e.vid ∈ l))
  let p := lowest c ls.flatten
  let p1 := p.filter (·.visible)
  let p2 := firstOfRuns (sortBy dedupeLt p1)
  let p3 := p2.filter ok
  (sortBy firstPassLt p3, p.length - p1.length, p1.length - p2.length, p2.length - p3.length)

/-- The outcome of a final selection: status, rows (vector ID, distance bits, partition), TIE_CUT, FILTER_SHORT. -/
abbrev Selected := Nat × List (Nat × Nat × Nat) × Bool × Bool

/-- The first K of a ranking whose entries are (distance part of the key, row), with the flags of R147. -/
def cut (k : Nat) (filtered : Bool) (l : List (Nat × Nat × Nat × Nat)) : Selected :=
  let n := l.length
  let tie := decide (k < n) && decide (((l[k - 1]?).map (·.1)) = ((l[k]?).map (·.1)))
  (if n < k then stShort else stOk, (l.take k).map (·.2), tie, decide (n < k) && filtered)

/-- Final selection with REFINE 0: the pool by (d, vector ID) (R218). -/
def selectPool (k : Nat) (filtered : Bool) (pool : List Entry) : Selected :=
  cut k filtered ((sortBy firstPassLt pool).map (fun e => (e.d, e.vid, e.d, e.part)))

/-- Final selection of refinement returns by refined key (R218). -/
def selectRefined (k : Nat) (filtered : Bool) (ls : List (List Refined)) : Selected :=
  cut k filtered ((sortBy refinedLt ls.flatten).map (fun e =>
    ((orderKey e.dist).toNat, e.vid, (distanceBits e.dist).toNat, e.part)))

/-- A result row (R127). -/
def rowBytes (r : Nat × Nat × Nat) : Bytes := toLe r.1 8 ++ toLe r.2.1 4 ++ toLe r.2.2 4

/-- K rows, fill rows after the valid ones (R127, R128). -/
def rowsBytes (k : Nat) (rows : List (Nat × Nat × Nat)) : Bytes :=
  (rows ++ List.replicate (k - rows.length) (noId, 0xFFFFFFFF, noPart)).flatMap rowBytes

/-- A batch's block header (R127). -/
def blockHeader (st n : Nat) (tie fs : Bool) : Bytes :=
  toLe st 1 ++ toLe ((if tie then 2 else 0) + (if fs then 4 else 0)) 1 ++ toLe 0 2 ++ toLe n 4 ++ toLe 0 8

/-- A full vector's exact distance to a query (R189, R190). -/
def exactDistance (r : Root) (q : List (BitVec 16)) (vec : Bytes) : F32 :=
  distance r.metric (q.map bf16) (vec32 r.fmt r.dim vec)

/-- The full vector of a first-pass entry held here: by ordinal, or by side-list entry number (R146). -/
def fullVector (ix : Index) (v : Version) (e : Entry) : Option Bytes :=
  if e.part = noPart then (ix.side.find? (fun x => decide (x.number = e.number))).map (·.vec)
  else (v.part e.part).bind (fun p => (p.slots[e.number - p.first]?).map (·.vec))

end Sys2Proof.Machine
end

