-- ==== Sys2Proof/Machine/Selection.lean ====
section
/-! DEFINITION. Selection units (chapter 08): operation slots, and the TOPK command. Its rows: TOPK, OPERATION_START. -/

namespace Sys2Proof.Machine

/-! ## Operation slots (R204, R205) -/

/-- Operations in a unit's slots. -/
def Block.slotsUsed (b : Block) (u : Nat) : Nat := (b.ops.filter (fun o => decide (o.unit = some u))).length

/-- A RUNNING unit with a free slot, of the sender's die before the other; among those of a die the lowest-numbered
(DESIGN CHOICE, log 8: the module chooses and no output depends on it). -/
def Block.freeUnit (b : Block) (die : Nat) : Option Nat :=
  let ok (u : Nat) : Bool := b.unitRuns (pSlu u) && decide (b.slotsUsed u < 4)
  match (span (32 * die) 32).find? ok with
  | some u => some u
  | none => (span (32 * (1 - die)) 32).find? ok

/-- Some SLU page is RUNNING. -/
def Block.anySlu (b : Block) : Bool := (List.range 64).any (fun u => b.unitRuns (pSlu u))

/-- An operation put into a unit's slot. -/
def Block.takeSlot (b : Block) (id u : Nat) : Block :=
  let l := mapIf (fun (o : SluOp) => decide (o.id = id)) (fun o => { o with unit := some u }) b.ops
  let b := { b with ops := l }
  b.raiseMark (pSlu u) 0x108 3 (b.slotsUsed u)

/-- Some operation waits for a slot. -/
def Block.opWaits (b : Block) : Bool := b.ops.any (fun o => decide (o.unit = none))

/-- A new operation: into a free slot, or waiting for one; where others wait already it joins them, since freed slots go in the
order of R205. -/
def Block.startOp (b : Block) (work : OpWork) (die : Nat) (deadline : Option Nat) : Block :=
  let waits := b.opWaits
  let (id, b) := b.fresh
  let b := { b with ops := snoc b.ops ⟨id, work, die, deadline, none⟩ }
  match b.freeUnit die with
  | some u => if waits then b else b.takeSlot id u
  | none => b

/-- A work has its operation, waiting or in a slot. -/
def Block.hasOp (b : Block) (work : OpWork) : Bool := b.ops.any (fun o => decide (o.work = work))

/-- The operation of a work that a slot holds. -/
def Block.opInSlot (b : Block) (work : OpWork) : Option (Nat × SluOp) :=
  match b.ops.find? (fun o => decide (o.work = work)) with
  | some o => match o.unit with | some u => some (u, o) | none => none
  | none => none

/-- An operation that has ended leaves its slot. -/
def Block.endOp (b : Block) (id : Nat) : Block := { b with ops := b.ops.filter (fun o => decide (o.id ≠ id)) }

/-- Waiting operations go in order of deadline, those without one last, then arrival (R205). -/
def opBefore (x y : SluOp) : Bool :=
  match x.deadline, y.deadline with
  | some a, some c => decide (a < c) || (decide (a = c) && decide (x.id < y.id))
  | some _, none => true
  | none, some _ => false
  | none, none => decide (x.id < y.id)

/-- OPERATION_START (R205): the first waiting operation takes a free slot of a RUNNING unit. -/
def operationStart (u : Nat) (b : Block) : Block :=
  if b.running (pSlu u) ∧ b.slotsUsed u < 4 then
    match leastBy opBefore (b.ops.filter (fun o => decide (o.unit = none))) with
    | some o => b.takeSlot o.id u
    | none => b
  else b

/-- OPERATION_START. -/
def execOperationStart (slu : Fin 64) (s : State) : Result := .next (s.on (operationStart slu.val))

/-! ## TOPK (R206 to R215) -/

/-- The parameters of R206. -/
structure TopkParams where
  n : Nat
  rows : Nat
  k : Nat
  format : Nat
  descend : Bool
  output : Nat
  stride : Nat
deriving DecidableEq, Repr

/-- PARAMS as R206 lays them out. -/
def topkParams (c : Cmd) : TopkParams :=
  { n := c.param 0 25, rows := c.param 32 17, k := c.param 64 11, format := c.param 75 3,
    descend := decide (c.param 78 1 = 1), output := c.param 79 2, stride := c.param 96 32 }

/-- Element size of a FORMAT (R207). -/
def topkSize (f : Nat) : Nat := match f with | 0 | 5 | 6 => 4 | 1 | 2 => 2 | _ => 1

/-- Bytes of one row's block (R211). -/
def TopkParams.block (p : TopkParams) : Nat :=
  64 + (if p.output = 2 then 0 else roundUp (4 * p.k) 64) + (if p.output = 1 then 0 else roundUp (topkSize p.format * p.k) 64)

/-- The first check of R213 that fails. -/
def topkCheck (c : Cmd) : Option Nat :=
  let p := topkParams c
  if c.object ≠ 0 ∨ c.param 25 7 ≠ 0 ∨ c.param 49 15 ≠ 0 ∨ c.param 81 15 ≠ 0 ∨ p.output = 3 ∨ p.stride % 64 ≠ 0 ∨ p.stride < p.n * topkSize p.format then some stBadCommand
  else if c.pay.len < p.rows * p.stride ∨ c.res.len < p.rows * p.block then some stBadCommand
  else if p.n = 0 ∨ 16777216 < p.n ∨ p.rows = 0 ∨ 65536 < p.rows ∨ p.k = 0 ∨ 1024 < p.k ∨ p.n < p.k then
    some stOutOfRange
  else none

/-- The element is a NaN of its format. -/
def topkIsNan (format v : Nat) : Bool := decide (format < 5) && decide (topkKey format false v = 0xFFFFFFFF#32)

/-- An element as the value area holds it (R212). -/
def topkValue (format v : Nat) : Nat :=
  if topkIsNan format v then
    (match format with | 0 => 0x7FC00000 | 1 => 0x7FC0 | 2 => 0x7E00 | 3 => 0x7F | _ => 0x7E)
  else match format with
    | 0 => if v = 0x80000000 then 0 else v
    | 1 | 2 => if v = 0x8000 then 0 else v
    | 3 | 4 => if v = 0x80 then 0 else v
    | _ => v

/-- A row ranked by (key, position): entries (key, position, element) (R210). -/
def topkRank (format : Nat) (descend : Bool) (row : List Nat) : List (Nat × Nat × Nat) :=
  sortBy (fun x y => decide (x.1 < y.1) || (decide (x.1 = y.1) && decide (x.2.1 < y.2.1)))
    ((List.range row.length).map (fun i => ((topkKey format descend (row.getD i 0)).toNat, i, row.getD i 0)))

/-- One row's block and its TIE_CUT (R210 to R212). -/
def topkBlock (p : TopkParams) (row : List Nat) : Bytes × Bool :=
  let l := topkRank p.format p.descend row
  let sel := l.take p.k
  let tie := decide (p.k < row.length) && decide ((l[p.k - 1]?).map (·.1) = (l[p.k]?).map (·.1))
  let nans := (sel.filter (fun e => topkIsNan p.format e.2.2)).length
  let head := padTo (toLe (nans + (if tie then 65536 else 0)) 4) 64
  let e := topkSize p.format
  let idx := if p.output = 2 then [] else padTo (sel.flatMap (fun e => toLe e.2.1 4)) (roundUp (4 * p.k) 64)
  let val := if p.output = 1 then []
    else padTo (sel.flatMap (fun x => toLe (topkValue p.format x.2.2) e)) (roundUp (e * p.k) 64)
  (head ++ idx ++ val, tie)

/-- The elements of row r of the payload (R208). -/
def topkRow (b : Block) (c : Cmd) (p : TopkParams) (r : Nat) : List Nat :=
  let e := topkSize p.format
  let bs := b.readInput c (r * p.stride) (p.n * e)
  (List.range p.n).map (fun i => le bs (i * e) e)

/-- The rows of a TOPK that have not started: each takes a slot or waits for one in the order of R205. -/
def startRows (id die : Nat) (deadline : Option Nat) (b : Block) : Block :=
  match b.topks.find? (fun t => decide (t.cmd = id)) with
  | none => b
  | some t =>
    let l := mapIf (fun (t : Topk) => decide (t.cmd = id)) (fun t => { t with next := max t.next t.rows }) b.topks
    (span t.next (t.rows - t.next)).foldl (fun b r => b.startOp (.topkRow id r) die deadline) { b with topks := l }

/-- One row of a TOPK in a slot completed: its block written, its slot freed. -/
def completeRow (c : Cmd) (b : Block) (o : SluOp) : Block :=
  match o.work, o.unit with
  | .topkRow id r, some u =>
    if id ≠ c.id then b
    else
      let p := topkParams c
      let (bs, tie) := topkBlock p (topkRow b c p r)
      let b := b.countInput c (p.n * topkSize p.format)
      let b := (b.writeResult id (r * p.block) bs).endOp o.id
      let l := mapIf (fun (t : Topk) => decide (t.cmd = id))
        (fun t => { t with done := t.done + 1, tie := t.tie || tie }) b.topks
      ({ b with topks := l }.bump (pSlu u) 0).bump (pSlu u) 1 p.n
  | _, _ => b

/-- TOPK (R206 to R214): a handed command is checked and its rows start; a command at work completes the rows its slots
hold and starts more, and ends OK with its last row. -/
def topkStep (id : Nat) (b : Block) : Block :=
  match b.cmd id with
  | none => b
  | some c =>
    if c.phase = .handed then
      b.admitCmd id 0x13 [0, 1] (fun c b =>
        match topkCheck c with
        | some st => b.finish id st
        | none =>
          if b.lacksLease c then b.finish id stNoLease
          else if !b.anySlu then b.finish id stDisabled
          else startRows id c.die c.deadline { b with topks := snoc b.topks { cmd := id, rows := (topkParams c).rows } })
    else if c.phase = .working ∧ c.opcode = 0x13 then
      if b.passed c.deadline then b.finish id stLate
      else
        let b := b.ops.foldl (completeRow c) b
        match b.topks.find? (fun t => decide (t.cmd = id)) with
        | none => b
        | some t =>
          if t.done = t.rows then b.finish id stOk { count := t.rows, tie := t.tie }
          else if t.next < t.rows ∧ !b.anySlu then b.finish id stDisabled
          else startRows id c.die c.deadline b
    else b

/-- TOPK. -/
def execTopk (cmd : Nat) (s : State) : Result := .next (s.on (topkStep cmd))

end Sys2Proof.Machine
end

