-- ==== Sys2Proof/Machine/TableOps.lean ====
section
/-! DEFINITION. What commands read of the table store (R321 to R325): tables, owners of row blocks, bindable versions,
rows. -/

namespace Sys2Proof.Machine

/-- A table defined at this place (R321). -/
def Block.tableOf (b : Block) (t : Nat) : Option Table := b.tables.find? (fun (x : Table) => decide (x.number = t))

/-- A table changed. -/
def Block.setTable (b : Block) (t : Nat) (f : Table → Table) : Block :=
  { b with tables := mapIf (fun (x : Table) => decide (x.number = t)) f b.tables }

/-- The row block of a row (R322). -/
def rowBlock (r : Nat) : Nat := r / 256

/-- The place that owns a row block (R342): the owner map's, or, where no migration has changed the map, the first placement among
the places that the rope had when the table was defined. -/
def Block.blockOwner (b : Block) (t k : Nat) : Nat :=
  match b.plc.blockMap.find? (fun e => decide (e.1 = (t, k))) with
  | some e => e.2
  | none => b.fixedPlace (((b.tableOf t).map (·.owners)).getD []) (Config.blockPlace t k)

/-- The migration in CUTOVER out of this place of an item with a property (R344). -/
def Block.movingOut (b : Block) (p : ItemRef → Bool) : Option Migration :=
  b.plc.moves.find? (fun m => decide (m.source = b.place ∧ m.phase = .cutover) && p m.item)

/-- The place to which an item of this place goes, or has gone, while its migration is in CUTOVER or RETIRE (R344). -/
def Block.movedTo (b : Block) (i : ItemRef) : Option Nat :=
  (b.plc.moves.find? (fun m => decide (m.item = i ∧ m.source = b.place ∧ (m.phase = .cutover ∨ m.phase = .retire)))).map (·.dest)

/-- A shard of an index is in CUTOVER out of this place. -/
def Block.shardMoving (b : Block) (ix shard : Nat) : Bool := (b.movingOut (fun i => decide (i = .shard ix shard))).isSome

/-- The migration in CUTOVER out of this place of some shard of an index. -/
def Block.indexMoving (b : Block) (ix : Nat) : Option Migration :=
  b.movingOut (fun i => match i with | .shard j _ => decide (j = ix) | .rowBlock _ _ => false)

/-- A request held at the source of a migration in CUTOVER, with its arrival (R344). -/
def Block.holdReq (b : Block) (i : ItemRef) (r : ForwardReq) (arrival : Nat) : Block :=
  let l := mapIf (fun m => decide (m.item = i)) (fun m => { m with held := snoc m.held (r, arrival) }) b.plc.moves
  { b with plc := { b.plc with moves := l } }

/-- A request forwarded one hop to the owner in this place's map (R342, R345); TBL counts those of tables. R342 has every place that
receives a request for an item it does not own forward it, one that was forwarded to it as well (DEDUCED, log 155). -/
def Block.forward (b : Block) (toward : Nat) (r : ForwardReq) (deadline : Option Nat := none) : Block :=
  let b := (b.send { toward := .place toward, cls := 4, kind := .forwarded, body := .forward r, deadline := deadline }).bump pPlc 4
  match r with | .table _ | .records _ => b.bump pTbl 7 | .shard _ | .deletions _ _ => b

/-- Work served for an item in the running load window (R343). -/
def Block.countWork (b : Block) (i : ItemRef) (n : Nat) : Block :=
  let c := ((b.plc.counts.find? (fun e => decide (e.1 = i))).map (·.2)).getD 0
  { b with plc := { b.plc with counts := (i, c + n) :: b.plc.counts.filter (fun e => !decide (e.1 = i)) } }

/-- This place owns the row block of a row, or holds a replica of it (R350). -/
def Block.holdsRow (b : Block) (t r : Nat) : Bool :=
  decide (b.blockOwner t (rowBlock r) = b.place) || decide ((t, rowBlock r) ∈ b.plc.replicas)

/-- Of two statuses, the one that an order of statuses has first; 0 is none yet. -/
def firstStatus (order : List Nat) (x y : Nat) : Nat := if x ≠ 0 ∧ order.idxOf x ≤ order.idxOf y then x else y

/-- The order of R329, from STALE on. -/
def gatherOrder : List Nat := [stStale, stDisabled, stPeerLost, stTierFault, stLate]

/-- The order of R336, from STALE on. -/
def scatterOrder : List Nat := [stStale, stOutOfRange, stDisabled, stLate, stAborted, stPeerLost, stTierFault]

/-- The version is CURRENT or RETAINED (R324, R325). -/
def Table.bindable (t : Table) (v : Nat) : Bool :=
  !t.dropping && decide (1 ≤ v ∧ v ≤ t.current ∧ t.current ≤ v + t.retain)

/-- The OPEN version (R324). -/
def Table.openV (t : Table) : Nat := if t.sealing then t.current + 2 else t.current + 1

/-- The oldest bindable version. -/
def Table.oldest (t : Table) : Nat := max 1 (t.current - t.retain)

/-- The bytes of a row at a version; a row not listed is all zero. -/
def Table.row (t : Table) (v r : Nat) : Bytes :=
  match (t.versions.find? (fun (x : TblVersion) => decide (x.version = v))).bind (fun x => x.rows.find? (fun e => decide (e.1 = r))) with
  | some e => e.2
  | none => List.replicate t.rowBytes 0

/-- RSTRIDE (R327). -/
def Table.stride (t : Table) : Nat := roundUp t.rowBytes 64

/-- The table version can be bound (R325). -/
def Block.tableHas (b : Block) (table version : Nat) : Bool :=
  match b.tableOf table with | some t => t.bindable version | none => false

/-- Why a posting list is not read: its search ends with a status, or a row of it is first asked of the place that owns it. -/
inductive Unread where
  | ends (status : Nat)
  | asks (row : Nat)
deriving DecidableEq, Repr

/-- Where flash has a row of a version (R359): in the row tile that the latest fold of it wrote, or in the home copy of version 1;
none while it lies in DRAM alone. -/
def Block.rowSite (b : Block) (t : Table) (version row : Nat) : Option (StripeRow × Member) :=
  match b.foldOf t.number version row with
  | some v => b.pageSite (fun w => match w with
    | .fold n p rows => decide (n = t.number ∧ p = v) && rows.contains row
    | _ => false)
  | none =>
    let k := row / rowsPerTile t.rowBytes
    match t.extents.find? (fun e => decide (e.first ≤ k ∧ k < e.first + e.count ∧ e.source = 2)) with
    | some e => (b.zone e.addr).bind (fun z => b.pageSite (fun w => decide (w = .home z.number (k - z.first))))
    | none => b.homeSite .table t.number 1 k

/-- The row tile that a row of a version lies in, as the DRAM tier knows it: of the version whose fold wrote it, or of version 1. -/
def Block.rowKey (b : Block) (t : Table) (version row : Nat) : CacheKey :=
  .row t.number ((b.foldOf t.number version row).getD 1) (row / rowsPerTile t.rowBytes)

/-- A row is in the DRAM tier: a copy of its tile is there, brought by a read or a prefetch, or flash does not have it yet (R359). -/
def Block.rowInDram (b : Block) (t : Table) (version row : Nat) : Bool :=
  b.cached (b.rowKey t version row) || (b.rowSite t version row).isNone

/-- A row that cannot be read: no copy of it is left, or DRAM does not hold it and its page cannot be read (R195, R329, R394, R445). -/
def Block.rowLost (b : Block) (t : Table) (version row : Nat) : Bool :=
  b.pageGone (.row t.number version row) || !b.rowInDram t version row && (match b.rowSite t version row with | some x => !b.pageReadable x | none => false)

/-- A row of a posting list (R125, R323), read here or from the rows that other places have sent: its IDs and NEXT. -/
def Block.postingRow (b : Block) (fetched : List (Nat × Bytes)) (table version row : Nat) : Except Unread (List Nat × Nat) :=
  match b.tableOf table with
  | none => .error (.ends stTierFault)
  | some t =>
    let parse (bs : Bytes) : Except Unread (List Nat × Nat) :=
      let n := le bs 0 4
      let next := le bs 4 4
      if (t.rowBytes - 8) / 8 < n ∨ (next ≠ 0xFFFFFFFF ∧ t.rows ≤ next) then .error (.ends stOutOfRange)
      else .ok ((List.range n).map (fun i => le bs (8 + 8 * i) 8), next)
    if t.rows ≤ row then .error (.ends stOutOfRange)
    else if b.holdsRow table row then (if b.rowLost t version row then .error (.ends stTierFault) else parse (t.row version row))
    else match fetched.find? (fun e => decide (e.1 = row)) with
      | some e => parse e.2
      | none => .error (.asks row)

/-- A row tile of a table version: its KIND 2, FORM 0x20 header with OBJECT, VERSION and FIRST_ROW, and RPT rows (R322). -/
def Table.rowTile (t : Table) (v n : Nat) : Bytes :=
  let rpt := rowsPerTile t.rowBytes
  let rows := (span (n * rpt) rpt).filter (fun r => decide (r < t.rows))
  let payload := rows.flatMap (t.row v)
  let body := padTo payload 16384
  let head := toLe 2 1 ++ toLe 0x20 1 ++ toLe 1 2 ++ toLe payload.length 4 ++ toLe t.number 2 ++ toLe 0 2 ++ toLe v 4 ++
    toLe n 4 ++ toLe rows.length 4 ++ toLe 0 8 ++ toLe (n * rpt) 4 ++ List.replicate 20 0
  head ++ toLe (crc64 (head ++ body)).toNat 8 ++ body

/-- The size of an element of EFMT (R321). -/
def efmtSize (f : Nat) : Nat := if f = 1 then 4 else if f = 2 ∨ f = 3 then 2 else 1

end Sys2Proof.Machine
end

