-- ==== Sys2Proof/Machine/JobOps.lean ====
section
/-! DEFINITION. Jobs as other subsystems see them (R267 to R273): lookups, and the queue of invocations. -/

namespace Sys2Proof.Machine

/-- The job is a service job that has been loaded (R126, R270). -/
def Block.serviceLoaded (b : Block) (j : Nat) : Bool :=
  match b.job j with
  | some x => x.service && decide (x.st ≠ .loading)
  | none => false

/-! ## Bound units (R255, R306) -/

/-- The cluster can be bound: RUNNING, no fenced core, bound to no job (R255), and no search thread on it (DESIGN CHOICE, log 141). -/
def Block.clusterFree (b : Block) (c : Nat) : Bool :=
  b.servesSearch c && decide (b.fencedCores c = []) && decide (b.searchThreads c = [])

/-- The matrix core can be bound: RUNNING and bound to no job (R268, R307), with no step of a search on it (DESIGN CHOICE, log
141). -/
def Block.mxcFree (b : Block) (m : Nat) : Bool := b.unitRuns (pMxc m) && (b.mxcJob m).isNone && decide ((b.mxc m).steps = [])

/-- The units of one die that can still be bound: those free, in ascending order, at most `most` bound on the die. -/
def freeOnDie (free bound : Nat → Bool) (lo n most : Nat) : List Nat :=
  ((span lo n).filter free).take (most - ((span lo n).filter bound).length)

/-- The clusters a job can bind: at most 192 of each die (R255); the module chooses the lowest-numbered (log 8). -/
def Block.freeClusters (b : Block) : List Nat :=
  let bound (c : Nat) : Bool := (b.clusterJob c).isSome
  freeOnDie b.clusterFree bound 0 256 192 ++ freeOnDie b.clusterFree bound 256 256 192

/-- The matrix cores a job can bind: at most 28 of each die (R306). -/
def Block.freeMxcs (b : Block) : List Nat :=
  let bound (m : Nat) : Bool := (b.mxcJob m).isSome
  freeOnDie b.mxcFree bound 0 32 28 ++ freeOnDie b.mxcFree bound 32 32 28

/-- A job's resources freed: the job is ABSENT, its clusters serve search again (R255), weight SRAM, accumulators and weight
registers of its matrix cores are zeroed (R303), and home copies that are not SEALED yet are freed. -/
def Block.unloadJob (b : Block) (j : Nat) (x : Job) : Block :=
  let b := b.uncache (fun k => match k with | .weight i _ _ => decide (i = j) | _ => false)
  let b := x.clusters.foldl Block.loadCode ((b.putJob j none).freeHome .job j 0)
  x.mxcs.foldl (fun b m => ((b.setMxc m {}).raiseInt (pMxc m) 17).landCodebooks m) b

/-- A load that fails: the job is ABSENT, its resources are freed, and JOB_LOAD ends with a status (R273). -/
def Block.failLoad (b : Block) (j st : Nat) : Block :=
  match b.job j with
  | some x =>
    if x.st ≠ .loading then b
    else
      let b := b.unloadJob j x
      match x.loadCmd with | some id => b.finish id st | none => b
  | none => b

/-- INV_IN of a job. -/
def Block.invIn (b : Block) (j : Nat) : Nat := match b.job j with | some x => x.invIn | none => 0

/-- The job is RUNNING. -/
def Block.jobRunning (b : Block) (j : Nat) : Bool :=
  match b.job j with | some x => decide (x.st = .running) | none => false

/-- The buffer slots of a job in use. -/
def Job.usedSlots (x : Job) : List Nat := x.queue.filterMap (·.slot)

/-- Invocations beyond INV_MAX wait without buffers; the oldest take the free slots (R270). -/
def Job.fillSlots (x : Job) : Job :=
  x.queue.foldl (fun (y : Job) i =>
    match i.slot with
    | some _ => y
    | none =>
      match (List.range y.invMax).find? (fun s => !decide (s ∈ y.usedSlots)) with
      | none => y
      | some s => { y with queue := mapIf (fun (k : Invocation) => decide (k.number = i.number)) (fun k => { k with slot := some s }) y.queue }) x

/-- The die of a job's staging buffers: that of its first cluster (R254). -/
def Job.die (x : Job) : Nat := x.clusters.headD 0 / 256

/-- The staging addresses of a buffer slot: input and output (R270). -/
def Job.buffers (x : Job) (j slot : Nat) : Nat × Nat :=
  let a := (Config.invBase j * 64 + slot * (x.invIn + x.invOut)) % 2 ^ 27
  (a, a + x.invIn)

/-- The inputs of invocations that have just taken a slot copied into their buffers, which are zeroed before (R270, R363). -/
def Block.copyInputs (b : Block) (j : Nat) (old : Job) : Block :=
  match b.job j with
  | none => b
  | some x =>
    (x.queue.filter (fun (i : Invocation) => match i.slot with | some s => !decide (s ∈ old.usedSlots) | none => false)).foldl
      (fun b i => b.putStaging j x.die (x.buffers j (i.slot.getD 0)).1 (padTo i.input (x.invIn + x.invOut))) b

/-- An invocation queued to a job (R270). -/
def Block.queueInvocation (b : Block) (j : Nat) (cmd search : Option Nat) (input : Bytes) (deadline : Option Nat) : Block :=
  match b.job j with
  | none => b
  | some x =>
    let i : Invocation := { number := x.nextInv, cmd := cmd, search := search, input := input, deadline := deadline }
    let l : List Invocation := snoc x.queue i
    let b := b.setJob j (fun x => ({ x with queue := l, nextInv := (x.nextInv + 1) % 2 ^ 32 } : Job).fillSlots)
    b.copyInputs j x

end Sys2Proof.Machine
end

