-- ==== Sys2Proof/Machine/Query.lean ====
section
/-! DEFINITION. The query pipeline (chapter 05): search commands, contexts, shard requests, waves, merges, deadlines and
pitches. Its rows: SEARCH, SEARCH_BATCH, SEARCH_HYBRID, QUERY_ADMISSION, SHARD_REQUEST, NAVIGATION_WALK_END, WAVE_END,
SHARD_POOL_RETURN, POOL_MERGE, SHARD_MERGE, FINAL_SELECTION, DEADLINE, PITCH_CLOSE, PURGE_END. -/

namespace Sys2Proof.Machine

/-! ## The search payload (R122 to R126) -/

/-- PARAMS of the search opcodes (R122). -/
structure SearchParams where
  version : Nat
  cairn : Nat
  k : Nat
  width : Nat
  waves : Nat
  refine : Nat
  encode : Bool
  noSkip : Bool
deriving DecidableEq, Repr

/-- PARAMS as R122 lays them out. -/
def searchParams (c : Cmd) : SearchParams :=
  { version := c.param 0 32, cairn := c.param 32 48, k := c.param 80 11, width := c.param 91 7, waves := c.param 98 4,
    refine := c.param 102 12, encode := decide (c.param 114 1 = 1), noSkip := decide (c.param 115 1 = 1) }

/-- The query header of R123. -/
structure QueryHeader where
  dim : Nat
  terms : Nat
  encJob : Nat
  encLen : Nat
  queries : Nat
  table : Nat
  postings : Nat
  tversion : Nat
deriving DecidableEq, Repr

/-- The header at the start of the payload. -/
def queryHeader (h : Bytes) : QueryHeader :=
  { dim := le h 0 2, terms := nbits (le h 2 2) 0 4, encJob := le h 4 2, encLen := le h 8 4, queries := le h 12 2,
    table := le h 16 2, postings := le h 18 1, tversion := le h 20 4 }

/-- Offset of the query input in the payload (R123). -/
def QueryHeader.input (h : QueryHeader) : Nat := 64 + 16 * h.terms + roundUp (4 * h.postings) 64

/-- Bytes of the payload of R123. -/
def QueryHeader.length (h : QueryHeader) (enc : Bool) : Nat :=
  h.input + (if enc then h.encLen else h.queries * roundUp (2 * h.dim) 64)

/-- Filter term i of the payload (R124). -/
def readTerm (b : Block) (c : Cmd) (i : Nat) : Term :=
  let t := b.readInput c (64 + 16 * i) 16
  ⟨nbits (le t 0 1) 0 4, nbits (le t 0 1) 4 4, le t 8 8⟩

/-- Bytes of a search's result (R127). -/
def resultSize (op k queries : Nat) : Nat := if op = 0x11 then queries * (16 + 16 * k) else 16 * k

/-- The first condition of R126's first pass that holds. -/
def searchCheck (b : Block) (c : Cmd) (p : SearchParams) (h : QueryHeader) (terms : List Term) : Option Nat :=
  let op := c.opcode
  if c.param 116 12 ≠ 0 ∨ (op ≠ 0x11 ∧ h.queries ≠ 1) ∨ (op = 0x11 ∧ p.encode) ∨
     (op ≠ 0x12 ∧ (h.table ≠ 0 ∨ h.postings ≠ 0 ∨ h.tversion ≠ 0)) ∨ (op = 0x12 ∧ h.tversion = 0) then some stBadCommand
  else if c.pay.len < h.length p.encode ∨ c.res.len < resultSize op p.k h.queries then some stBadCommand
  else if terms.any (fun t => decide (8 < t.op)) then some stBadCommand
  else if p.encode ∧ (!b.serviceLoaded h.encJob ∨ b.invIn h.encJob < h.encLen) then some stBadCommand
  else if p.k = 0 ∨ 1024 < p.k ∨ p.width = 0 ∨ 64 < p.width ∨ p.waves = 0 ∨
      (p.refine ≠ 0 ∧ (p.refine < p.k ∨ 2048 < p.refine)) ∨ 8 < h.terms ∨
      (op = 0x12 ∧ (h.postings = 0 ∨ 16 < h.postings)) ∨ h.queries = 0 ∨ 256 < h.queries ∨
      (p.encode ∧ (h.encLen = 0 ∨ 65536 < h.encLen)) ∨ (!p.encode ∧ h.encLen ≠ 0) ∨ 15 < c.object then some stOutOfRange
  else none

/-- The condition of R126 that needs the bound version: a bad term, or a wrong DIM. -/
def boundCheck (r : Root) (dim : Nat) (terms : List Term) : Bool :=
  terms.any (fun t =>
    let w := r.schema.getD t.field 0
    schemaUnused w || (decide (6 ≤ t.op) && decide (schemaType w ≠ 2))) || decide (dim ≠ r.dim)

/-! ## Binding (R110, R112) -/

/-- What binding a query says: a version and a cairn, STALE, or held until the local visible cairn reaches it. -/
inductive Binding where
  | bound (version cairn : Nat)
  | stale
  | held
deriving DecidableEq, Repr

/-- The binding of R110 for a named or unnamed version and cairn. A query that names a version and no cairn while the local
visible cairn is below the version's FLOOR is held until it reaches it (DESIGN CHOICE, log 124). -/
def Index.bind (x : Index) (version cairn : Nat) : Binding :=
  let v := if version = 0 then x.current
    else (x.version version).bind (fun v => if v.state = .mounted ∨ v.state = .current then some v else none)
  match v with
  | none => .stale
  | some v =>
    if cairn = 0 then
      if version ≠ 0 ∧ x.localVc < v.root.floor then .held else .bound v.root.version x.localVc
    else if cairn < v.root.floor then .stale
    else if x.localVc < cairn then .held
    else .bound v.root.version cairn

/-! ## Contexts -/

/-- CTX_USED of a die. -/
def Block.ctxUsed (b : Block) (die : Nat) : Nat := (b.qpl.ctxs.filter (fun x => decide (x.die = die))).length

/-- QPL.WAITING of a die: searches that wait for a context (R130, R155); one that waits for a cairn or for posting rows is not
among them. -/
def Block.waitingCount (b : Block) (die : Nat) : Nat :=
  (b.qpl.searches.filter (fun x => !x.bound && !x.parked &&
    (match b.cmd x.cmd with | some c => decide (c.die = die) | none => false))).length

/-- The compute dies whose QPL page takes work. -/
def Block.qplDies (b : Block) : List Nat := [0, 1].filter (fun d => b.running (pQpl d))

/-- The lane of a pitch is PURGING. -/
def Block.lanePurging (b : Block) (pitch : Option Nat) : Bool :=
  match pitch with | none => false | some p => decide (p % 8 ∈ b.qpl.purging)

/-- What the threads of a context do (R237, R259): one controls an admitted query; of a shard request, one walks each shard, and
where a side pool is asked for, one scans each slice of 4,096 entries and one collects (DESIGN CHOICE, log 140). -/
def Block.ctxRoles (b : Block) (x : Ctx) : List SearchRole :=
  match x.work with
  | .admitted _ q => [.control q]
  | .shard _ =>
    let slices := ((b.index x.index).side.length + 4095) / 4096
    x.shards.map (fun h => .walk h.shard) ++
      (if x.sideDone then [] else (List.range slices).map .slice ++ [.collect slices])

/-- A context taken (R130, R131): CTX_HIGH and CTX_WARN follow CTX_USED, and its threads start (R259). -/
def Block.takeCtx (b : Block) (x : Ctx) : Block :=
  let b := { b with qpl := { b.qpl with ctxs := snoc b.qpl.ctxs x, nextCtx := b.qpl.nextCtx + 1 } }
  let n := b.ctxUsed x.die
  let b := b.raiseMark (pQpl x.die) 0x124 18 n
  let b := if n = b.fld (pQpl x.die) 0x10C 0 18 then b.raiseInt (pQpl x.die) 16 else b
  ((b.ctxRoles x).map (fun r => { ctx := x.id, die := x.die, role := r })).foldl Block.startSearchThread b

/-- One search changed. -/
def Block.setSearch (b : Block) (id : Nat) (f : Search → Search) : Block :=
  { b with qpl := { b.qpl with searches := mapIf (fun x => decide (x.cmd = id)) f b.qpl.searches } }

/-- One context changed. -/
def Block.setCtx (b : Block) (id : Nat) (f : Ctx → Ctx) : Block :=
  { b with qpl := { b.qpl with ctxs := mapIf (fun x => decide (x.id = id)) f b.qpl.ctxs } }

/-- The search of a command. -/
def Block.searchOf (b : Block) (id : Nat) : Option Search := b.qpl.searches.find? (fun x => decide (x.cmd = id))

/-- A context. -/
def Block.ctx (b : Block) (id : Nat) : Option Ctx := b.qpl.ctxs.find? (fun x => decide (x.id = id))

/-- A search ended: the counts of its die's QPL page (R155). -/
def Block.endSearch (b : Block) (id st : Nat) (x : Extra := {}) : Block :=
  match b.cmd id with
  | none => b
  | some c =>
    let late := b.passed c.deadline
    let p := pQpl c.die
    let b := if late ∨ st = stLate then b.bump p 3 else if st = stOk then b.bump p 1
      else if st = stShort then b.bump p 2 else b
    b.finish id st x

/-! ## Shard requests -/

/-- The places a search's shard requests go to: those that hold a shard of the version, and those that may own side-list
entries of the index, since a module knows only its own entries (R131, R239; DESIGN CHOICE, log 128). -/
def Block.searchPlaces (b : Block) (ix : Nat) (v : Version) : List Nat :=
  let own := if (b.index ix).side = [] then [] else [b.place]
  nub (v.shards.map (b.placeOfShard ix) ++ (b.index ix).owners ++ own)

/-- The budget of a shard request (R137); 0 where it is 0 or less. -/
def shardBudget (q hop : Nat) : Nat := q - 2 * hop - (q + 16383) / 16384

/-- A command's remaining budget in 100 ns units: BUDGET less its residence, rounded up (R137). -/
def Block.remaining (b : Block) (c : Cmd) : Nat := c.budget - (b.meter - c.accepted + 9) / 10

/-- One query's shard requests sent (R131): none when R137 leaves no budget. -/
def Block.sendShards (b : Block) (c : Cmd) (x : Search) (v : Version) (qn ctx : Nat) (q : List (BitVec 16)) : Block :=
  let budget := shardBudget (b.remaining c) (b.fld (pQpl 0) 0x108 0 16)
  if budget = 0 then b
  else
    let t := queryTables (b.index x.index) v.root q
    let places := b.searchPlaces x.index v
    let req (p : Nat) : ShardReq :=
      { fromPlace := b.place, reqId := ctx, index := x.index, version := x.version, cairn := x.cairn, query := q,
        table4 := t.1, table8 := t.2, k := x.k, width := x.width, waves := x.waves, refine := x.refine,
        noSkip := x.noSkip, terms := x.terms, budget := BitVec.ofNat 24 budget, op := c.opcode, side := true
        shards := v.shards.filter (fun s => decide (b.placeOfShard x.index s = p)) }
    let b := places.foldl (fun b p =>
      (b.send { toward := .place p, cls := 4, kind := .shardRequest, args := [ctx], body := .shard (req p), deadline := c.deadline }).bump (pQpl c.die) 7) b
    let ask (i : Nat) (r : QueryRun) : QueryRun := if i = qn then { r with places := places, shards := v.shards } else r
    b.setSearch x.cmd (fun s => { s with requested := true, queries := s.queries.mapIdx ask })

/-- The shard requests of a search's queries sent; while a place that they need has no module that serves it the search ends
PEER_LOST (R132). -/
def Block.fanOut (b : Block) (c : Cmd) (x : Search) (v : Version) (vectors : List (List (BitVec 16))) : Block :=
  if (b.searchPlaces x.index v).all b.placeReady then
    (List.range vectors.length).foldl (fun b i => b.sendShards c x v i (x.ctxs.getD i 0) (vectors.getD i [])) b
  else b.endSearch c.id stPeerLost

/-- The IDs of a posting list followed through NEXT, over at most `fuel` rows (R125, R323). -/
def postingIds (b : Block) (fetched : List (Nat × Bytes)) (table version : Nat) : Nat → Nat → Except Unread (List Nat)
  | 0, _ => .error (.ends stOutOfRange)
  | fuel + 1, row =>
    match b.postingRow fetched table version row with
    | .error st => .error st
    | .ok (ids, next) =>
      if next = 0xFFFFFFFF then .ok ids
      else match postingIds b fetched table version fuel next with
        | .error st => .error st
        | .ok l => .ok (ids ++ l)

/-- The IDs that appear in every named posting list; OUT_OF_RANGE when a list breaks R125 or R323, or holds more than
1,048,576 IDs (R126). -/
def postingSet (b : Block) (fetched : List (Nat × Bytes)) (table version : Nat) (rows : List Nat) : Except Unread (List Nat) :=
  let all := rows.foldl (fun (a : Except Unread (List (List Nat))) r =>
    match a, postingIds b fetched table version 65536 r with
    | .error st, _ => .error st
    | _, .error st => .error st
    | .ok ls, .ok l => .ok (snoc ls l)) (.ok [])
  match all with
  | .error st => .error st
  | .ok ls =>
    if ls.any (fun l => decide (1048576 < l.length) || !ascending (fun x y => decide (x < y)) l) then .error (.ends stOutOfRange)
    else match ls with
      | [] => .ok []
      | l :: ls => .ok (l.filter (fun i => ls.all (fun m => decide (i ∈ m))))

/-- A posting row asked of the place that owns it, once (R125, R322): the search waits for it. -/
def Block.askPosting (b : Block) (c : Cmd) (x : Search) (row : Nat) : Block :=
  if x.asked.any (fun e => decide (e.1 = row)) then b
  else
    let p := b.blockOwner x.table (rowBlock row)
    let r : TableReq := { fromPlace := b.place, tag := c.id, table := x.table, version := x.tversion, prefetch := false, rows := [row]
                          budget := BitVec.ofNat 24 (shardBudget (b.remaining c) (b.fld (pQpl 0) 0x108 0 16)) }
    let b := b.setSearch c.id (fun s => { s with asked := snoc s.asked (row, p) })
    (b.send { toward := .place p, cls := 4, kind := .tableRequest, args := [c.id], body := .forward (.table r),
              deadline := c.deadline }).bump pTbl 1

/-- A search that waits for a context, or for its lane: WAITING counts it (R130, R156). -/
def Block.waitCtx (b : Block) (c : Cmd) : Block :=
  let was := b.waitingCount c.die
  let b := b.setSearch c.id (fun x => { x with parked := false })
  if was = 0 ∧ 0 < b.waitingCount c.die then b.raiseInt (pQpl c.die) 17 else b

/-- A search bound to a version and a cairn, with one context per query, and its shard requests sent, or its input given to its
encoder (R131, R150). -/
def Block.bindSearch (b : Block) (c : Cmd) (x : Search) (v : Version) (cairn : Nat) (postings : Option (List Nat)) : Block :=
  let n := x.queries.length
  let first := b.qpl.nextCtx
  let ver := v.root.version
  let b := b.setSearch c.id (fun s => { s with
    version := ver, cairn := cairn, postings := postings, bound := true, ctxs := span first n })
  let b := b.setCmd c.id (fun c => { c with cairn := cairn })
  let b := (List.range n).foldl (fun b i => b.takeCtx
    { id := first + i, die := c.die, work := .admitted c.id i, index := x.index, version := ver, cairn := cairn,
      deadline := c.deadline, pitch := c.pitch }) b
  let b := b.bump (pQpl c.die) 0
  if x.encode then
    let input := b.readInput c x.input.1 x.input.2
    b.queueInvocation x.encJob none (some c.id) input c.deadline
  else
    b.fanOut c { x with version := ver, cairn := cairn, ctxs := span first n } v (x.queries.map (·.vector))

/-- QUERY_ADMISSION (R130, R131): a search that waits is bound, takes one context per query and sends its shard
requests; it goes on waiting while its die has too few contexts, its lane is PURGING, or its named cairn lies above the
local visible cairn, or posting rows that other places own have not come. One whose die's QPL page takes no work any more goes to
the other die, and ends DISABLED when neither does (R33, R130). -/
def queryAdmission (id : Nat) (b : Block) : Block :=
  match b.cmd id, b.searchOf id with
  | some c, some x =>
    if x.bound then b
    else if b.passed c.deadline then b.endSearch id stLate
    else match b.qplDies with
    | [] => b.endSearch id stDisabled
    | d :: ds =>
      let die := if c.die ∈ d :: ds then c.die else d
      let b := if die = c.die then b else b.setCmd id (fun c => { c with die := die })
      let c : Cmd := { c with die := die }
      if !b.running pIdx then b.endSearch id stDisabled
      else if c.opcode = 0x12 ∧ !b.tableHas x.table x.tversion then (b.bump pIdx 5).endSearch id stStale
      else match (b.index x.index).bind x.version x.cairn with
        | .stale => (b.bump pIdx 5).endSearch id stStale
        | .held => b
        | .bound ver cairn =>
          match (b.index x.index).version ver with
          | none => b
          | some v =>
            if boundCheck v.root x.dim x.terms then b.endSearch id stBadCommand
            else if 131072 < b.ctxUsed c.die + x.queries.length ∨ b.lanePurging c.pitch then b.waitCtx c
            else
              let set := if c.opcode = 0x12 then (postingSet b x.fetched x.table x.tversion x.rows).map some else .ok none
              match set with
              | .error (.ends st) => b.endSearch id st
              | .error (.asks row) => (b.setSearch id (fun x => { x with parked := true })).askPosting c x row
              | .ok postings => b.bindSearch c x v cairn postings
  | _, _ => b

/-- QUERY_ADMISSION. -/
def ownQueryAdmission (cmd : Nat) (s : State) : Result := .next (s.on (queryAdmission cmd))

/-- The search of a command that has passed its checks: parameters, terms, posting rows and one run per query (R122 to R125). -/
def Block.newSearch (b : Block) (c : Cmd) : Search :=
  let p := searchParams c
  let h := queryHeader (b.readInput c 0 64)
  let vec (i : Nat) : List (BitVec 16) :=
    let bs := b.readInput c (h.input + i * roundUp (2 * h.dim) 64) (2 * h.dim)
    (List.range h.dim).map (fun j => BitVec.ofNat 16 (le bs (2 * j) 2))
  let queries : List QueryRun := if p.encode then [{ vector := [] }] else (List.range h.queries).map (fun i => { vector := vec i })
  { cmd := c.id, index := c.object, version := p.version, cairn := p.cairn, dim := h.dim, k := p.k, width := p.width,
    waves := p.waves, refine := p.refine, encode := p.encode, encJob := h.encJob, noSkip := p.noSkip,
    terms := (List.range h.terms).map (readTerm b c), postings := none, queries := queries, table := h.table,
    tversion := h.tversion, rows := (List.range h.postings).map (fun i => le (b.readInput c (64 + 16 * h.terms + 4 * i) 4) 0 4),
    input := (h.input, h.encLen) }

/-- A search command handed to the pipeline (R126, R130): checked, then waiting for admission, which follows at once
where it can. -/
def searchStart (op id : Nat) (b : Block) : Block :=
  let dies := b.qplDies
  match b.cmd id with
  | none => b
  | some c =>
    if c.phase = .handed ∧ c.opcode = op ∧ dies = [] then b.endSearch id stDisabled
    else b.admitCmd id op dies (fun c b =>
      let p := searchParams c
      let h := queryHeader (b.readInput c 0 64)
      let b := b.countInput c c.pay.len
      let terms := (List.range h.terms).map (readTerm b c)
      match searchCheck b c p h terms with
      | some st => b.endSearch id st
      | none =>
        if b.lacksLease c then b.endSearch id stNoLease else
        let x := b.newSearch c
        if p.encode ∧ !b.jobRunning h.encJob then b.endSearch id stDisabled else
        queryAdmission id { b with qpl := { b.qpl with searches := snoc b.qpl.searches x } })

/-- SEARCH (R131). -/
def execSearch (cmd : Nat) (s : State) : Result := .next (s.on (searchStart 0x10 cmd))
/-- SEARCH_BATCH (R128). -/
def execSearchBatch (cmd : Nat) (s : State) : Result := .next (s.on (searchStart 0x11 cmd))

/-- SEARCH_HYBRID (R125): started when handed; later events bring the replies of places that own posting rows: a row with
its number, or the status that ends the search. -/
def searchHybrid (id : Nat) (replies : List PeerReply) (b : Block) : Block :=
  match b.cmd id, b.searchOf id with
  | some c, some x =>
    if c.phase ≠ .working ∨ c.opcode ≠ 0x12 ∨ x.bound then b
    else
      let take (b : Block) (r : PeerReply) : Block :=
        if r.status.toNat ≠ stOk then b.endSearch id r.status.toNat
        else match b.tableOf x.table with
        | none => b
        | some t =>
          let rows := (List.range (r.data.length / (4 + t.rowBytes))).map (fun i =>
            (le r.data (i * (4 + t.rowBytes)) 4, slice r.data (i * (4 + t.rowBytes) + 4) t.rowBytes))
          b.setSearch id (fun s => { s with fetched := s.fetched ++ rows })
      queryAdmission id ((replies.filter (fun r => decide (r.place ≠ b.place))).foldl take b)
  | _, _ => searchStart 0x12 id b

/-- SEARCH_HYBRID. -/
def execSearchHybrid (cmd : Nat) (replies : List PeerReply) (s : State) : Result := .next (s.on (searchHybrid cmd replies))

/-! ## At a place -/

/-- The candidate count C of a request (R122). -/
def keepOf (r : ShardReq) : Nat := if r.refine = 0 then r.k else r.refine

/-- A place's answer to a shard request. -/
def Block.answerShard (b : Block) (r : ShardReq) (reply : ShardReply) : Block :=
  let mine (x : Ctx) : Bool := match x.work with | .shard q => decide (q = r) | .admitted _ _ => false
  b.send { toward := .place r.fromPlace, cls := 4, kind := .shardReply, args := [r.reqId, b.place], body := .answer reply,
           deadline := (b.qpl.ctxs.find? mine).bind (·.deadline) }

/-- The stack that sweeps for a segment: its own, or S8 where S8 stands in for it (chapter 06). -/
def Block.sweepable (b : Block) (d : DramPart) : Bool :=
  !d.withdrawn && d.segments.all (fun g => b.running (pPim g.stack) && b.running (pMem g.stack) &&
    !decide (g.stack ∈ b.deadStacks) && !decide (g.unit ∈ (b.stack g.stack).fenced))

/-- The DRAM placement of a partition that near-bank units scan (R143). -/
def Block.dramPart (b : Block) (ix ver part : Nat) : Option DramPart :=
  b.dramParts.find? (fun d => decide (d.index = ix ∧ d.version = ver ∧ d.part = part) && b.sweepable d)

/-- A stack's sweep queue with one more sweep (R165). -/
def Block.queueSweep (b : Block) (x : Ctx) (r : ShardReq) (part : Nat) (g : Segment) : Block :=
  let (id, b) := b.fresh
  let w : Sweep := { id := id, stack := g.stack, unit := g.unit, seg := g, ctx := x.id, part := part, keep := keepOf r,
                     table := r.table4, deadline := x.deadline, state := .queued }
  let k := b.stack g.stack
  b.setStack g.stack { k with sweeps := snoc k.sweeps w }

/-- A shard's run in a context changed. -/
def Ctx.setShard (x : Ctx) (shard : Nat) (f : ShardRun → ShardRun) : Ctx :=
  { x with shards := mapIf (fun h => decide (h.shard = shard)) f x.shards }

/-- A wave's partitions handed on (R143, R164): sweeps for each segment of one held in DRAM; any other partition awaits a
cold-scan item of its home channel's engine. -/
def Block.startWave (b : Block) (x : Ctx) (r : ShardReq) (shard : Nat) (parts : List Nat) : Block :=
  parts.foldl (fun b p =>
    let pieces : Nat × Block := match b.dramPart x.index x.version p with
      | some d => (d.segments.length, d.segments.foldl (fun b g => b.queueSweep x r p g) b)
      | none => (1, b)
    let more (h : ShardRun) : ShardRun := { h with awaiting := h.awaiting ++ List.replicate pieces.1 p }
    pieces.2.setCtx x.id (fun x => x.setShard shard more)) b

/-- A context whose shards have all ended and whose side pool is formed replies with its pools and is freed (R131). -/
def Block.maybeReply (b : Block) (id : Nat) : Block :=
  match b.ctx id with
  | some ⟨_, _, .shard r, _, _, _, _, _, shards, sideDone, side⟩ =>
    if sideDone ∧ shards.all (fun h => h.ended) then
      (b.answerShard r (.pools (shards.map (fun h => (h.shard, h.pool))) (if r.side then some side else none))).freeCtxs [id] stOk
    else b
  | _ => b

/-- The opcode of the search that a context serves (R38). -/
def Block.ctxOp (b : Block) (id : Nat) : Nat :=
  match b.ctx id with
  | some x => match x.work with | .admitted c _ => b.opOf c | .shard r => r.op
  | none => 0

/-- A shard request ended with a failure status: its context is freed and the status sent (R132). -/
def Block.failCtx (b : Block) (ctx st : Nat) : Block :=
  match b.ctx ctx with
  | some ⟨_, _, .shard r, _, _, _, _, _, _, _, _⟩ => (b.answerShard r (.ended (BitVec.ofNat 8 st))).freeCtxs [ctx] st
  | _ => b

/-- An operation of a search or of a context begun; with no SLU page RUNNING its search ends DISABLED (R205). -/
def Block.beginOp (b : Block) (work : OpWork) (die : Nat) (deadline : Option Nat) : Block :=
  if b.anySlu then b.startOp work die deadline
  else match work with
  | .topkRow id _ | .poolMerge id _ | .final id _ => b.endSearch id stDisabled
  | .shardMerge ctx _ => b.failCtx ctx stDisabled
  | .route _ _ _ _ => b

/-- A context for a shard request: its shards' walks begin, and the side pool that it asks for is to be formed (R131, R237). -/
def Block.openShard (b : Block) (r : ShardReq) (die arrival : Nat) : Block :=
  let deadline := some (arrival + 10 * r.budget.toNat)
  let b : Block := r.shards.foldl (fun b s => b.countWork (.shard r.index s) 1) b
  let side := decide ((b.index r.index).side ≠ []) && r.side
  let id := b.qpl.nextCtx
  let b := b.takeCtx
    { id := id, die := die, work := .shard r, index := r.index, version := r.version, cairn := r.cairn,
      deadline := deadline, pitch := deadline.map b.pitchAt, shards := r.shards.map (fun s => { shard := s }),
      sideDone := !side }
  let b := if side then b.beginOp (.shardMerge id none) die deadline else b
  b.maybeReply id

/-- The reading at which a shard request's budget is used up (R137). -/
def shardDue (r : ShardReq) (arrival : Nat) : Nat := arrival + 10 * r.budget.toNat

/-- A shard request served at a place that holds its shards: a context is taken, or the failure answered; `none` where it has
to wait for a context or its lane (R131, R132, R138). Of two dies that take work, the module takes the first that has a free
context; the spec gives no rule for a request that finds none (DESIGN CHOICE, log 153). -/
def Block.serveShard (b : Block) (r : ShardReq) (arrival : Nat) : Option Block :=
  match b.qplDies with
  | [] => some (b.answerShard r (.ended (BitVec.ofNat 8 stDisabled)))
  | d :: ds =>
    let die := ((d :: ds).find? (fun d => decide (b.ctxUsed d < 131072))).getD d
    if !b.running pIdx then some (b.answerShard r (.ended (BitVec.ofNat 8 stDisabled)))
    else match (b.index r.index).version r.version with
      | none => some (b.answerShard r (.ended (BitVec.ofNat 8 stTierFault)))
      | some v =>
        if v.state = .mounting then some (b.answerShard r (.ended (BitVec.ofNat 8 stTierFault)))
        else if 131072 ≤ b.ctxUsed die ∨ b.lanePurging (some (b.pitchAt (shardDue r arrival))) then none
        else some (b.openShard r die arrival)

/-- A shard request passed on for one shard to the place that holds it in this place's map, with the budget of a hop (R131,
R342, R345, R434); with none left it is not sent (R137). -/
def Block.passShard (b : Block) (r : ShardReq) (arrival shard : Nat) : Block :=
  let budget := shardBudget (r.budget.toNat - (b.meter - arrival + 9) / 10) (b.fld (pQpl 0) 0x108 0 16)
  if budget = 0 then b
  else b.forward (b.placeOfShard r.index shard) (.shard { r with shards := [shard], side := false, budget := BitVec.ofNat 24 budget })
    (some (arrival + 10 * r.budget.toNat))

/-- What this place serves of a shard request: a shard in CUTOVER out of it is held, one that another place holds is passed on
(R131, R344, R345); `none` where nothing is left to serve. -/
def Block.splitShard (b : Block) (r : ShardReq) (arrival : Nat) : Block × Option ShardReq :=
  let here (s : Nat) : Bool := decide (b.placeOfShard r.index s = b.place)
  let moving := r.shards.filter (fun s => here s && b.shardMoving r.index s)
  let mine := r.shards.filter (fun s => here s && !b.shardMoving r.index s)
  let b := moving.foldl (fun b s => b.holdReq (.shard r.index s) (.shard { r with shards := [s], side := false }) arrival) b
  let b := (r.shards.filter (fun s => !here s)).foldl (fun b s => b.passShard r arrival s) b
  (b, if mine = [] ∧ !r.side then none else some { r with shards := mine })

/-- A shard request: what this place serves of it is served, or waits for a context or its lane (R131, R138); a request that waits
is tried again as a lane opens, PURGE_END (DESIGN CHOICE, log 153), and dropped at its deadline or as its pitch closes (R148). -/
def shardRequest (r : ShardReq) (arrival : Nat) (b : Block) : Block :=
  match b.splitShard r arrival with
  | (b, none) => b
  | (b, some q) =>
    match b.serveShard q arrival with
    | some b => b
    | none => { b with qpl := { b.qpl with requests := snoc b.qpl.requests (q, arrival) } }

/-- SHARD_REQUEST (R131). -/
def execShardRequest (req : ShardReq) (s : State) : Result := .next (s.on (fun b => shardRequest req b.meter b))

/-- Waiting shard requests of a kind dropped without a reply (R148), each counted as ended LATE. -/
def Block.dropRequests (b : Block) (p : ShardReq × Nat → Bool) : Block :=
  let gone := b.qpl.requests.filter p
  if gone = [] then b
  else ({ b with qpl := { b.qpl with requests := b.qpl.requests.filter (fun e => !p e) } }).bump (pQpl (b.qplDies.headD 0)) 3 gone.length

/-- Waiting shard requests tried again; one whose deadline has passed is dropped without a reply (R148). -/
def Block.retryRequests (b : Block) : Block :=
  let again (b : Block) (e : ShardReq × Nat) : Block :=
    let wait (q : ShardReq) (b : Block) : Block := { b with qpl := { b.qpl with requests := snoc b.qpl.requests (q, e.2) } }
    match b.splitShard e.1 e.2 with
      | (b, none) => b
      | (b, some q) => (b.serveShard q e.2).getD (wait q b)
  let b := b.dropRequests (fun e => b.passed (some (shardDue e.1 e.2)))
  b.qpl.requests.foldl again { b with qpl := { b.qpl with requests := [] } }

/-- Wave w of a ranked list (R140). -/
def waveOf (ranked : List Nat) (width w : Nat) : List Nat := (ranked.drop (w * width)).take width

/-- Wave w of a shard begins, or the shard's scan ends when the ranked list is used up. -/
def Block.nextWave (b : Block) (x : Ctx) (r : ShardReq) (shard w : Nat) (ranked : List Nat) : Block :=
  let parts := if w < r.waves then waveOf ranked r.width w else []
  if parts = [] then (b.setCtx x.id (fun x => x.setShard shard (fun h => { h with ended := true }))).maybeReply x.id
  else
    let b := b.setCtx x.id (fun x => x.setShard shard (fun h =>
      { h with wave := w, merged := false, full := decide (h.pool.length = keepOf r), added := false }))
    b.startWave x r shard parts

/-- NAVIGATION_WALK_END (R140): the shard's ranked list is fixed, its walk's thread ends, and its first wave starts. A walk whose
thread waits for a core has not begun. -/
def navigationWalkEnd (ctx shard : Nat) (b : Block) : Block :=
  match b.ctx ctx with
  | some x =>
    match x.work, (b.index x.index).version x.version, x.shards.find? (fun h => decide (h.shard = shard)) with
    | .shard r, some v, some h =>
      if h.ranked.isSome ∨ b.unstarted ctx (fun r => decide (r = .walk shard)) then b
      else
        let b := b.endSearchThreads (fun y => decide (y.job = ctxOwner ctx ∧ y.role = some (.walk shard))) false
        let ranked := rankedParts v (r.query.map bf16) shard r.width r.waves
        let b := b.setCtx ctx (fun x => x.setShard shard (fun h => { h with ranked := some ranked }))
        b.nextWave x r shard 0 ranked
    | _, _, _ => b
  | none => b

/-- NAVIGATION_WALK_END. -/
def execNavigationWalkEnd (ctx : Nat) (shard : Nat) (s : State) : Result := .next (s.on (navigationWalkEnd ctx shard))

/-- A piece of a partition's scan returned to its context; the shard's merge starts with the wave's last piece. -/
def Block.returnScan (b : Block) (ctx part : Nat) (l : List Entry) : Block :=
  match b.ctx ctx with
  | none => b
  | some x =>
    let shard := shardOf part
    let b := b.setCtx ctx (fun x => x.setShard shard (fun h =>
      if part ∈ h.awaiting then { h with awaiting := h.awaiting.erase part, returns := snoc h.returns l } else h))
    match (b.ctx ctx).bind (fun x => x.shards.find? (fun h => decide (h.shard = shard))) with
    | some h => if h.awaiting = [] ∧ !h.merged ∧ !h.ended then b.beginOp (.shardMerge ctx (some shard)) x.die x.deadline else b
    | none => b

/-- The log pages that hold an index's side list here (R230). -/
def Index.sidePages (x : Index) : List Nat := nub (x.side.map (·.page))

/-- The side list read for a side pool (R239): from the DRAM tier while space allows, else in class 1 through the engines of its
pages' channels, whose bytes count; `none` where a page is lost. -/
def Block.readSide (b : Block) (ix : Nat) : Option Block :=
  let pages := (b.index ix).sidePages
  if !b.dramShort (16384 * pages.length) then some b
  else
    let sites := pages.filterMap (fun n => b.pageSite (fun w => decide (w = .logPage ix n)))
    if sites.any (fun x => !b.pageReadable x) then none
    else some (sites.foldl (fun b x =>
      match (b.siteChannel x).bind b.engineFor with
      | some c => b.countPage c (decide (b.siteChannel x = some c)) x
      | none => b) b)

/-- SHARD_MERGE (R144, R216, R237): the returns of a wave merged into the shard pool, or the side pool formed, once its slices'
threads have started, which then end; a list out of order ends the search TIER_FAULT. -/
def shardMerge (ctx : Nat) (shard : Option Nat) (b : Block) : Block :=
  if shard.isNone ∧ b.unstarted ctx SearchRole.ofSide then b
  else match b.opInSlot (.shardMerge ctx shard), b.ctx ctx with
  | some (u, o), some x =>
    match x.work with
    | .admitted _ _ => b
    | .shard r =>
      let op := b.ctxOp ctx
      let b := b.endOp o.id
      match shard with
      | none =>
        match (b.index x.index).version x.version, b.readSide x.index with
        | none, _ | _, none => b.failCtx ctx stTierFault
        | some v, some b =>
          let b := b.endSearchThreads (fun y => decide (y.job = ctxOwner ctx) && (y.role.any SearchRole.ofSide)) false
          let side := sidePool (b.index x.index) v.root r.table4 r.terms x.cairn b.place (keepOf r)
          ((b.bump (pSlu u) 2).setCtx ctx (fun x => { x with side := side, sideDone := true })).maybeReply ctx
      | some sh =>
        match x.shards.find? (fun h => decide (h.shard = sh)) with
        | none => b
        | some h =>
          if !listsOk firstPassLt h.returns then (b.raiseErr (pSlu u) 17 op).failCtx ctx stTierFault
          else
            let pool := lowest (keepOf r) (h.pool ++ h.returns.flatten)
            (b.bump (pSlu u) 2).setCtx ctx (fun x => x.setShard sh (fun h =>
              { h with pool := pool, returns := [], merged := true, added := decide (pool ≠ h.pool) }))
  | _, _ => b

/-- SHARD_MERGE. -/
def ownShardMerge (ctx : Nat) (shard : Option Nat) (s : State) : Result := .next (s.on (shardMerge ctx shard))

/-- WAVE_END (R144): the wave bound is applied to the merged pool; the next wave starts, or the shard ends with its
remaining waves skipped. -/
def waveEnd (ctx shard : Nat) (b : Block) : Block :=
  match b.ctx ctx with
  | some x =>
    match x.work, x.shards.find? (fun h => decide (h.shard = shard)) with
    | .shard r, some h =>
      match h.ranked with
      | none => b
      | some ranked =>
        if h.ended ∨ !h.merged ∨ h.awaiting ≠ [] then b
        else if !r.noSkip ∧ 1 ≤ h.wave ∧ h.full ∧ !h.added then
          let left := (List.range r.waves).filter (fun w => decide (h.wave < w) && decide (waveOf ranked r.width w ≠ []))
          (b.bump (pQpl x.die) 6 left.length |>.setCtx ctx (fun x => x.setShard shard (fun h => { h with ended := true }))).maybeReply ctx
        else b.nextWave x r shard (h.wave + 1) ranked
    | _, _ => b
  | none => b

/-- WAVE_END. -/
def execWaveEnd (ctx : Nat) (shard : Nat) (s : State) : Result := .next (s.on (waveEnd ctx shard))

/-! ## At the admitting module -/

/-- One query of a search changed. -/
def Search.setQuery (x : Search) (i : Nat) (f : QueryRun → QueryRun) : Search :=
  { x with queries := x.queries.mapIdx (fun j q => if j = i then f q else q) }

/-- Every query of a search has its outcome: the result is written and the command ends (R127, R128, R149). -/
def Block.maybeFinishSearch (b : Block) (id : Nat) : Block :=
  match b.cmd id, b.searchOf id with
  | some c, some x =>
    if x.queries.all (fun q => q.result.isSome) then
      if b.passed c.deadline then b.endSearch id stLate
      else
        let rs : List Selected := x.queries.filterMap (fun q => q.result)
        if c.opcode = 0x11 then
          let b := (List.range rs.length).foldl (fun b i =>
            match rs[i]? with
            | some (st, rows, tie, fs) => b.writeResult id (i * (16 + 16 * x.k))
                (blockHeader st (if st = stTierFault then 0 else rows.length) tie fs ++
                 rowsBytes x.k (if st = stTierFault then [] else rows))
            | none => b) b
          b.endSearch id stOk { count := rs.length, cairn := x.cairn, tie := rs.any (fun r => r.2.2.1),
                                short := rs.any (fun r => r.2.2.2) }
        else match rs with
          | (st, rows, tie, fs) :: _ =>
            if hasResults st then
              (b.writeResult id 0 (rowsBytes x.k rows)).endSearch id st
                { count := rows.length, cairn := x.cairn, tie := tie, short := fs }
            else b.endSearch id st
          | [] => b
    else b
  | _, _ => b

/-- A query of a search ended TIER_FAULT: the whole search, or the query's block of a batch, whose operations go (R128, R132). -/
def Block.faultQuery (b : Block) (id qn : Nat) : Block :=
  match b.cmd id with
  | none => b
  | some c =>
    if c.opcode = 0x11 then
      let b := b.dropOps (fun o => decide (o.work = .poolMerge id qn ∨ o.work = .final id qn))
      (b.setSearch id (fun x => x.setQuery qn (fun q => { q with result := some (stTierFault, [], false, false) }))).maybeFinishSearch id
    else b.endSearch id stTierFault

/-- A context ends with a status: its search here, of a batch only the query that faults (R128), or its place's reply. -/
def Block.endCtx (b : Block) (x : Ctx) (st : Nat) : Block :=
  match x.work with
  | .admitted c q => if st = stTierFault then (b.endCtxThreads [x.id] true).faultQuery c q else b.endSearch c st
  | .shard _ => b.failCtx x.id st

/-- A place's pools taken into a query: of shards and of a side pool that are still outstanding (R131, R239). -/
def QueryRun.takePools (q : QueryRun) (place : Nat) (lists : List (Nat × List Entry)) (side : Option (List Entry)) : QueryRun :=
  let new := lists.filter (fun l => decide (l.1 ∈ q.shards))
  let mine := if place ∈ q.places then side.toList else []
  { q with lists := q.lists ++ new.map (·.2) ++ mine
           shards := q.shards.filter (fun s => !new.any (fun l => decide (l.1 = s)))
           places := if side.isSome then q.places.erase place else q.places }

/-- SHARD_POOL_RETURN (R132, R146): a place's answer at the admitting module; the pool merge starts with the last. A failure
status counts for a query of a batch that has faulted too (R128). -/
def shardPoolReturn (ctx place : Nat) (reply : ShardReply) (b : Block) : Block :=
  match b.ctx ctx with
  | some ⟨_, die, .admitted id qn, _, _, _, deadline, _, _, _, _⟩ =>
    match b.searchOf id with
    | none => b
    | some x =>
      match x.queries[qn]? with
      | none => b
      | some q =>
        if q.places = [] ∧ q.shards = [] then b
        else match reply with
          | .ended st =>
            if st = BitVec.ofNat 8 stAborted then b.endSearch id stAborted
            else
              let b := b.raiseErr (pQpl die) 17 (b.opOf id)
              if st = BitVec.ofNat 8 stTierFault then b.faultQuery id qn else b.endSearch id stDisabled
          | .pools ls side =>
            if q.result.isSome then b
            else if !(decide (place ∈ q.places) && side.isSome) ∧ !ls.any (fun l => decide (l.1 ∈ q.shards)) then b
            else
              let p := q.takePools place ls side
              let b := b.setSearch id (fun x => x.setQuery qn (fun _ => p))
              if p.places = [] ∧ p.shards = [] then b.beginOp (.poolMerge id qn) die deadline else b
  | _ => b

/-- SHARD_POOL_RETURN. -/
def ownShardPoolReturn (req : Nat) (place : Nat) (reply : ShardReply) (s : State) : Result :=
  .next (s.on (shardPoolReturn req place reply))

/-- POOL_MERGE (R146, R217): the global pool after steps 1 to 3; refinement requests go to the places that hold its
entries, or the final selection starts. -/
def poolMergeStep (id qn : Nat) (b : Block) : Block :=
  match b.opInSlot (.poolMerge id qn), b.searchOf id, b.cmd id with
  | some (u, o), some x, some c =>
    match x.queries[qn]? with
    | none => b
    | some q =>
      let b := b.endOp o.id
      if !listsOk firstPassLt q.lists then (b.raiseErr (pSlu u) 17 c.opcode).faultQuery id qn
      else
        let keep := if x.refine = 0 then x.k else x.refine
        let (pool, inv, dup, fil) := poolMerge keep q.lists x.postings
        let b := (((b.bump (pSlu u) 2).bump (pSlu u) 3 inv).bump (pSlu u) 4 dup).bump (pSlu u) 5 fil
        let b := b.setSearch id (fun x => x.setQuery qn (fun q =>
          { q with pool := some pool, filtered := decide (0 < fil), lists := [], asked := decide (x.refine ≠ 0) }))
        if x.refine = 0 ∨ pool = [] then b.beginOp (.final id qn) c.die c.deadline
        else
          let places := nub (pool.map (·.place))
          places.foldl (fun b p => b.send
            { toward := .place p, cls := 4, kind := .refineRequest, args := [id, qn, x.index, x.version],
              body := .cands (pool.filter (fun e => decide (e.place = p))), deadline := c.deadline }) b
  | _, _, _ => b

/-- POOL_MERGE. -/
def ownPoolMerge (cmd : Nat) (query : Nat) (s : State) : Result := .next (s.on (poolMergeStep cmd query))

/-- FINAL_SELECTION (R146 step 5, R147, R218): the refinement returns of every place, those of this module's engines and
`returns` of the others, ranked and cut. -/
def finalSelection (id qn : Nat) (returns : List (List Refined)) (b : Block) : Block :=
  match b.cmd id, b.searchOf id with
  | some c, some x =>
    match x.queries[qn]? with
    | none => b
    | some q =>
      match q.pool with
      | none => b
      | some pool =>
        let lists := q.refined ++ returns
        if q.result.isSome ∨ (x.refine ≠ 0 ∧ lists.flatten.length ≠ pool.length) then b
        else
          -- the operation takes its slot with the last return (R205)
          let b := if b.hasOp (.final id qn) then b else b.beginOp (.final id qn) c.die c.deadline
          match b.opInSlot (.final id qn) with
          | none => b
          | some (u, o) =>
            let b := b.endOp o.id
            if x.refine ≠ 0 ∧ !listsOk refinedLt lists then (b.raiseErr (pSlu u) 17 c.opcode).faultQuery id qn
            else
              let r := if x.refine = 0 then selectPool x.k q.filtered pool else selectRefined x.k q.filtered lists
              ((b.bump (pSlu u) 2).setSearch id (fun x => x.setQuery qn (fun q => { q with result := some r }))).maybeFinishSearch id
  | _, _ => b

/-- FINAL_SELECTION. -/
def ownFinalSelection (cmd : Nat) (query : Nat) (returns : List (List Refined)) (s : State) : Result :=
  .next (s.on (finalSelection cmd query returns))

end Sys2Proof.Machine
end

