-- ==== Sys2Proof/Machine/NearBank.lean ====
section
/-! DEFINITION. Near-bank scan units and the stack controllers (chapter 06). Its rows: SWEEP_TAKEN, SWEEP_START,
SWEEP_YIELD, SWEEP_RESUME, SWEEP_END, SHORTLIST_ANNOTATION, CONTROLLER_REQUEST, UNIT_FENCE, DRAM_REFRESH, PATROL_SCRUB. -/

namespace Sys2Proof.Machine

/-! ## Rows and steps (R157, R160, R161) -/

/-- A row address as ECC_LAST and IDX_WRITE_LAST hold it (R179). -/
def rowAddress (die bank row : Nat) : Nat := die + bank * 8 + row * 2048 + 2 ^ 35

/-! ## Sweeps -/

/-- One sweep of a stack changed. -/
def Stack.setSweep (x : Stack) (id : Nat) (f : Sweep → Sweep) : Stack :=
  { x with sweeps := mapIf (fun (w : Sweep) => decide (w.id = id)) f x.sweeps }

/-- One sweep changed. -/
def Block.setSweep (b : Block) (n id : Nat) (f : Sweep → Sweep) : Block := b.setStack n ((b.stack n).setSweep id f)

/-- A sweep of a stack. -/
def Block.sweep (b : Block) (n id : Nat) : Option Sweep := (b.stack n).sweeps.find? (fun w => decide (w.id = id))

/-- A sweep ended and gone from its stack; requests that waited at its pair are served. -/
def Block.endSweep (b : Block) (n id : Nat) : Block :=
  (b.setStack n { b.stack n with sweeps := (b.stack n).sweeps.filter (fun (w : Sweep) => decide (w.id ≠ id)) }).settleDram n

/-- PIM.ACTIVE: units computing, a yielded sweep's among them (R166). -/
def Stack.active (x : Stack) : Nat :=
  (x.sweeps.filter (fun w => decide (w.state = .stepping ∨ w.state = .yielded))).length

/-- Sweeps that a unit holds (R168). -/
def Stack.held (x : Stack) (unit : Nat) : Nat :=
  (x.sweeps.filter (fun w => decide (w.unit = unit) &&
    decide (w.state = .loaded ∨ w.state = .stepping ∨ w.state = .yielded))).length

/-- Shortlists of a unit that are on their way to the controller: one of its two shortlists each (R168). -/
def Stack.returning (x : Stack) (unit : Nat) : Nat :=
  (x.sweeps.filter (fun w => decide (w.unit = unit ∧ w.state = .returning))).length

/-- Order in a stack's sweep queue: deadline, then arrival (R165). -/
def sweepBefore (x y : Sweep) : Bool :=
  match x.deadline, y.deadline with
  | some a, some c => decide (a < c) || (decide (a = c) && decide (x.id < y.id))
  | some _, none => true
  | none, some _ => false
  | none, none => decide (x.id < y.id)

/-- A sweep that stops after `t` steps and ends TIER_FAULT with its search (R169; CNT6). -/
def Block.faultSweep (b : Block) (w : Sweep) (t : Nat) : Block :=
  (((b.endSweep w.stack w.id).countStop w t).bump (pPim w.stack) 6).failCtx w.ctx stTierFault

/-- A partition of a wave given to a channel engine after all: its sweeps, of which those that step stop and are counted (R181), and the
returns of its other segments go, and the whole partition is awaited once (R22, R143, R176). -/
def Block.toChannel (b : Block) (ctx part : Nat) : Block :=
  let b := b.stackSet.foldl (fun b e =>
    let keep (w : Sweep) : Bool := !decide (w.ctx = ctx ∧ w.part = part)
    if e.2.sweeps.all keep then b
    else
      let gone := e.2.sweeps.filter (fun w => !keep w && decide (w.state ≠ .queued))
      let b := b.setStack e.1 { e.2 with sweeps := e.2.sweeps.filter keep }
      (gone.foldl (fun b w => b.countStop w (w.stopAt b.free)) b).settleDram e.1) b
  b.setCtx ctx (fun x => x.setShard (shardOf part) (fun h =>
    { h with awaiting := part :: h.awaiting.filter (fun p => decide (p ≠ part))
             returns := h.returns.filter (fun l => !l.any (fun e => decide (e.part = part))) }))

/-- The first of some sweeps in the order of their queue (R165). -/
def firstSweep (l : List Sweep) : Option Sweep := leastBy sweepBefore l

/-- The sweep that a parity error of a unit hits: the one that it computes, or else the first that it has loaded. -/
def Stack.hitSweep (x : Stack) (unit : Nat) : Option Sweep :=
  (x.computing unit).or (firstSweep (x.sweeps.filter (fun w => decide (w.unit = unit ∧ w.state = .loaded))))

/-- A parity error in a unit, its LUT banks or its shortlist: the sweep it hits ends TIER_FAULT, those queued for the unit or
loaded in it go to channel engines, and it is fenced (R169, R176). -/
def Block.fenceUnit (b : Block) (n unit : Nat) (list : Bool) (hit : Option Sweep) : Block :=
  let was := decide (unit ∈ (b.stack n).fenced)
  let op := (hit.map (fun w => b.ctxOp w.ctx)).getD 0
  let b := b.raiseErr (pPim n) (if list then 17 else 16) op
  let b := if was then b
    else (b.setStack n { b.stack n with fenced := insertBy (fun x y => decide (x < y)) unit (b.stack n).fenced }).raiseInt (pPim n) 17
  let b := match hit with | some w => b.faultSweep w (w.reached b.free) | none => b
  ((b.stack n).sweeps.filter (fun w => decide (w.unit = unit ∧ (w.state = .queued ∨ w.state = .loaded)))).foldl
    (fun b w => b.toChannel w.ctx w.part) b

/-- UNIT_FENCE (R176). -/
def unitFence (n unit : Nat) (list : Bool) (b : Block) : Block := b.fenceUnit n unit list ((b.stack n).hitSweep unit)

/-- UNIT_FENCE. -/
def execUnitFence (stack : Fin 9) (unit : Fin 1024) (list : Bool) (s : State) : Result :=
  .next (s.on (unitFence stack.val unit.val list))

/-- The page has work in flight that goes on: RUNNING, or DRAINING without an abort. -/
def Block.working (b : Block) (p : PageRef) : Bool :=
  decide (b.pageState p = 2) || (decide (b.pageState p = 3) && !b.aborting p)

/-- SWEEP_TAKEN (R165, R168, R177): the first sweep of the stack's queue whose unit has a free LUT bank takes it, and its
table crosses the stack interface; a table whose CRC fails counts as a parity error. -/
def sweepTaken (n id : Nat) (tableOk : Bool) (b : Block) : Block :=
  match b.sweep n id with
  | none => b
  | some w =>
    let k := b.stack n
    let first := k.sweeps.all (fun v => decide (v.state ≠ .queued ∨ 2 ≤ k.held v.unit ∨ v.id = w.id) || sweepBefore w v)
    if w.state ≠ .queued ∨ !b.working (pPim n) ∨ 2 ≤ k.held w.unit ∨ !first then b
    else
      let (bad, b) := b.takeInjected (pPim n) 16
      let b := (b.setSweep n id (fun w => { w with state := .loaded })).bump (pMem n) 7 w.table.length
      if tableOk ∧ !bad then b else b.fenceUnit n w.unit false (b.sweep n id)

/-- SWEEP_TAKEN. -/
def execSweepTaken (stack : Fin 9) (sweep : Nat) (tableOk : Bool) (s : State) : Result :=
  .next (s.on (sweepTaken stack.val sweep tableOk))

/-- The tile that holds a row withdrawn from the DRAM tier: its partitions count as not in DRAM, and sweeps of it that have
not started go to channel engines (R175). -/
def Block.withdrawRow (b : Block) (n die bank row : Nat) : Block :=
  let hit (g : Segment) : Bool := decide (g.stack = n ∧ dieOfUnit g.unit = die ∧ g.bank = bank ∧ g.row / 2 ≤ row / 2 ∧
    row / 2 ≤ g.rowOf (g.steps - 1) / 2)
  let l := mapIf (fun (d : DramPart) => d.segments.any hit) (fun d => { d with withdrawn := true }) b.dramParts
  let tiles : List DramTile := b.dramTiles.filter (fun t =>
    !decide (t.stack = n ∧ dieOfUnit t.unit = die ∧ t.bank = bank ∧ t.row / 2 = row / 2))
  ((b.stack n).sweeps.filter (fun w => decide (w.state = .queued ∨ w.state = .loaded) && hit w.seg)).foldl
    (fun b w => b.toChannel w.ctx w.part) { b with dramParts := l, dramTiles := tiles }

/-- An uncorrectable on-die ECC error of a row, met by work with an opcode, recorded in the MEM page (R175, R179). -/
def Block.eccError (b : Block) (n die bank row op : Nat) : Block :=
  (b.put (pMem n) 0x110 (rowAddress die bank row)).raiseErr (pMem n) 16 op

/-- An uncorrectable error in step `i` of a sweep: it ends TIER_FAULT and the tile is withdrawn (R169, R175). -/
def Block.sweepError (b : Block) (n : Nat) (w : Sweep) (i : Nat) : Block :=
  let die := dieOfUnit w.unit
  let row := w.seg.rowOf i
  let op := b.ctxOp w.ctx
  (((b.eccError n die w.seg.bank row op).raiseErr (pPim n) 18 op).faultSweep w i).withdrawRow n die w.seg.bank row

/-- An armed SWEEP_UNCORR makes a sweep that steps on meet an error (R39): in the step named, or else in the next one. -/
def Block.stepError (b : Block) (n : Nat) (next : Nat) (uncorrectable : Option Nat) : Option Nat × Block :=
  let (inj, b) := b.takeInjected (pPim n) 18
  (if inj then some (uncorrectable.getD next) else uncorrectable, b)

/-- SWEEP_START (R165 to R169, R175): the first loaded sweep of the stack whose unit computes none and has a shortlist free
takes a token when one is free; an uncorrectable error in one of its steps ends it and withdraws the tile. -/
def sweepStart (n id : Nat) (uncorrectable : Option Nat) (b : Block) : Block :=
  match b.sweep n id with
  | none => b
  | some w =>
    let k := b.stack n
    let ready (v : Sweep) : Bool := decide (v.state = .loaded) && (k.computing v.unit).isNone && decide (k.returning v.unit < 2)
    let first := k.sweeps.all (fun v => !ready v || decide (v.id = w.id) || sweepBefore w v)
    if !ready w ∨ !first then b
    else if b.quota n ≤ k.active then
      if w.waited then b else (b.setSweep n id (fun w => { w with waited := true })).bump (pPim n) 5
    else
      let b := b.setSweep n id (fun w => { w with state := .stepping })
      let b := b.raiseMark (pPim n) 0x110 11 (b.stack n).active
      match b.stepError n 0 uncorrectable with
      | (none, b) => b
      | (some i, b) => b.sweepError n w i

/-- SWEEP_START. -/
def ownSweepStart (stack : Fin 9) (sweep : Nat) (uncorrectable : Option Nat) (s : State) : Result :=
  .next (s.on (sweepStart stack.val sweep uncorrectable))

/-- A stepping sweep stopped at the end of its current column group, with `serve` requests to serve. -/
def Block.yieldSweep (b : Block) (n : Nat) (w : Sweep) (serve : Nat) (closed : Bool) : Block :=
  let toward := w.stopAt b.free
  let b := b.setSweep n w.id (fun w =>
    { w with state := .yielded, step := toward, serve := serve, closed := closed, yieldAt := none })
  ((b.bump (pMem n) 3).bump (pPim n) 4).bump (pPim n) 1 (toward - w.step)

/-- SWEEP_YIELD (R172): a stepping sweep with requests waiting at its pair yields at the end of its column group; up to
8 of them are served in the yield. -/
def sweepYield (n id : Nat) (b : Block) : Block :=
  match b.sweep n id with
  | none => b
  | some w =>
    let m := ((b.stack n).waiting.filter (fun r => decide (pairOf r = w.unit))).length
    if w.state ≠ .stepping ∨ m = 0 ∨ w.seg.steps ≤ w.stopAt b.free then b else b.yieldSweep n w (min m 8) false

/-- SWEEP_YIELD. -/
def execSweepYield (stack : Fin 9) (sweep : Nat) (s : State) : Result := .next (s.on (sweepYield stack.val sweep))

/-- The first `k` requests of a pair out of a list, and the rest. -/
def takePair (unit : Nat) : Nat → List DramReq → List DramReq × List DramReq
  | _, [] => ([], [])
  | 0, l => ([], l)
  | k + 1, r :: l =>
    if pairOf r = unit then let (x, y) := takePair unit k l; (r :: x, y)
    else let (x, y) := takePair unit (k + 1) l; (x, r :: y)

/-- SWEEP_RESUME (R172): the requests of the yield are served in arrival order, the sweep's row is reactivated if one of
them or a refresh closed it, and the sweep steps on, for one column group where requests still wait (R173); an uncorrectable error in
one of its further steps ends it (R169). -/
def sweepResume (n id : Nat) (uncorrectable : Option Nat) (b : Block) : Block :=
  match b.sweep n id with
  | none => b
  | some w =>
    if w.state ≠ .yielded then b
    else
      let k := b.stack n
      let (now, rest) := takePair w.unit w.serve k.waiting
      let row := w.seg.rowOf (w.step - 1)
      let open' (r : DramReq) : Bool := decide (r.bank.val = w.seg.bank ∧ r.row = row)
      let b := b.setStack n { k with waiting := rest }
      let b := now.foldl (fun b r => b.serveDram n r) b
      let b := b.bump (pMem n) 4 (now.takeWhile open').length
      let b := if w.closed || !now.all open' then b.bump (pMem n) 5 else b
      let more := rest.any (fun r => decide (pairOf r = w.unit))
      let b := b.setSweep n id (fun w => { w with
        state := .stepping, serve := 0, closed := false, yieldAt := if more then some (w.seg.groupEnd w.step) else none })
      match b.stepError n w.step (uncorrectable.filter (fun i => decide (w.step ≤ i ∧ i < w.seg.steps))) with
      | (none, b) => b
      | (some i, b) => b.sweepError n w i

/-- SWEEP_RESUME. -/
def execSweepResume (stack : Fin 9) (sweep : Resumed) (s : State) : Result :=
  .next (s.on (sweepResume stack.val sweep.sweep sweep.uncorrectable))

/-- SWEEP_END (R162, R168): the last code is summed, the token is released and the shortlist goes to the controller. A sweep that is to
yield before its last column group ends yields first (R172, R173). -/
def sweepEnd (n id : Nat) (b : Block) : Block :=
  match b.sweep n id with
  | none => b
  | some w =>
    let yields : Bool := match w.yieldAt with | some t => decide (t < w.seg.steps) | none => false
    if w.state ≠ .stepping ∨ yields = true then b
    else
      let b := b.setSweep n id (fun w => { w with state := .returning })
      let b := ((b.bump (pPim n) 0).bump (pPim n) 1 (w.seg.steps - w.step)).bump (pPim n) 2 w.seg.count
      let k := min w.keep w.seg.count
      ((b.bump (pPim n) 7 k).bump (pMem n) 7 (Config.shortlistBytes k)).settleDram n

/-- SWEEP_END. -/
def execSweepEnd (stack : Fin 9) (sweep : Nat) (s : State) : Result := .next (s.on (sweepEnd stack.val sweep))

/-- SHORTLIST_ANNOTATION (R163, R164, R177): a shortlist whose CRC holds is turned into first-pass entries and handed to
its context; a mismatch counts as a parity error. -/
def shortlistAnnotation (n id : Nat) (crcOk : Bool) (b : Block) : Block :=
  match b.sweep n id with
  | none => b
  | some w =>
    if w.state ≠ .returning then b
    else
      let (bad, b) := b.takeInjected (pPim n) 17
      if !crcOk ∨ bad then b.fenceUnit n w.unit true (some w)
      else
        let b := b.endSweep n id
        match b.ctx w.ctx with
        | none => b
        | some x =>
          match x.work, (b.index x.index).version x.version with
          | .shard r, some v =>
            match v.part w.part with
            | some p => b.returnScan w.ctx w.part (scanSpan v p w.table r.terms x.cairn b.place w.seg.slot w.seg.count w.keep)
            | none => b
          | _, _ => b

/-- SHORTLIST_ANNOTATION. -/
def execShortlistAnnotation (stack : Fin 9) (sweep : Nat) (crcOk : Bool) (s : State) : Result :=
  .next (s.on (shortlistAnnotation stack.val sweep crcOk))

/-! ## Controller requests (R170 to R174) -/

/-- The command that a request serves ends TIER_FAULT (R18, R171). -/
def Block.faultCmd (b : Block) (cmd : Option Nat) : Block :=
  match cmd with
  | none => b
  | some id => if (b.searchOf id).isSome then b.endSearch id stTierFault else b.finish id stTierFault

/-- A stepping sweep that a request meets is to yield at the end of the column group it is in (R172). -/
def Stack.meet (k : Stack) (w : Sweep) (n : Nat) : Stack :=
  k.setSweep w.id (fun v => if v.state = .stepping ∧ v.yieldAt = none then { v with yieldAt := some (v.stopAt n) } else v)

/-- CONTROLLER_REQUEST: a write to an index row is refused (R171); an uncorrectable read ends its request (R175); a
request to a pair whose unit computes waits (R172); any other is served. -/
def controllerRequest (n : Nat) (r : DramReq) (b : Block) : Block :=
  let ix := decide ((r.die.val, r.bank.val, r.row) ∈ b.indexRows n)
  let op := (r.cmd.map b.opOf).getD 0
  if b.pageState (pMem n) ≠ 2 ∧ b.pageState (pMem n) ≠ 3 then b.faultCmd r.cmd
  else if ix ∧ r.write.isSome then
    let b := (b.put (pMem n) 0x118 (rowAddress r.die.val r.bank.val r.row)).raiseErr (pMem n) 17 op
    ((b.raiseInt (pMem n) 17).bump (pMem n) 2).faultCmd r.cmd
  else
    let (inj, b) := if r.write.isNone then b.takeInjected (pMem n) 16 else (false, b)
    if r.write.isNone ∧ (r.uncorrectable ∨ inj) then (b.eccError n r.die.val r.bank.val r.row op).faultCmd r.cmd
    else match (b.stack n).computing (pairOf r) with
      | some w =>
        let k := (b.stack n).meet w b.free
        b.setStack n { k with waiting := snoc k.waiting r }
      | none => b.serveDram n r

/-- CONTROLLER_REQUEST. -/
def ownControllerRequest (stack : Fin 9) (req : DramReq) (s : State) : Result :=
  .next (s.on (controllerRequest stack.val req))

/-- A refresh or a scrub read of a bank: a sweep stepping there yields at its next column-group boundary, and the requests
that wait at the pair are served in that yield too (R172, R174). -/
def interruptSweep (n die bank : Nat) (b : Block) : Block :=
  match (b.stack n).computing (die * 128 + bank / 2) with
  | some w =>
    let m := ((b.stack n).waiting.filter (fun r => decide (pairOf r = w.unit))).length
    if w.state = .stepping ∧ w.seg.bank = bank ∧ w.stopAt b.free < w.seg.steps then
      (b.yieldSweep n w (min m 8) true).bump (pMem n) 6
    else b
  | none => b

/-- DRAM_REFRESH (R174). -/
def execDramRefresh (stack : Fin 9) (die : Fin 8) (bank : Fin 256) (s : State) : Result :=
  .next (s.on (interruptSweep stack.val die.val bank.val))

/-- The rows of a stack that patrol scrub visits, 4,096 for each bank of each die (DESIGN CHOICE, log 130), and the number of a
row in the order of a pass. -/
def scrubRows : Nat := 8 * 256 * 4096
def scrubNumber (die bank row : Nat) : Nat := (die * 256 + bank) * 4096 + row

/-- The patrol scrub period in meter units: SCRUB_CFG hours. -/
def Block.scrubPeriod (b : Block) (n : Nat) : Nat := b.fld (pMem n) 0x120 0 8 * 360000000000

/-- PATROL_SCRUB (R174): a scrub read of the row that the running pass comes to next shares the bank as a refresh does; a pass
visits every row once, and the next one begins a period after it began. -/
def patrolScrub (n die bank row : Nat) (b : Block) : Block :=
  let k := b.stack n
  let due := decide (row < 4096 ∧ scrubNumber die bank row = k.scrubbed) && (decide (0 < k.scrubbed) || decide (k.scrubFrom ≤ b.meter))
  if !due then b
  else
    let from' := if k.scrubbed = 0 then b.meter + b.scrubPeriod n else k.scrubFrom
    interruptSweep n die bank (b.setStack n { k with scrubbed := (k.scrubbed + 1) % scrubRows, scrubFrom := from' })

/-- PATROL_SCRUB. -/
def execPatrolScrub (stack : Fin 9) (die : Fin 8) (bank : Fin 256) (row : Nat) (s : State) : Result :=
  .next (s.on (patrolScrub stack.val die.val bank.val row))

end Sys2Proof.Machine
end

