-- ==== Sys2Proof/Machine/Channel.lean ====
section
/-! DEFINITION. Flash channel engines (chapter 07). Its rows: CHANNEL_OPERATION, REFINEMENT_ITEM, COLD_SCAN_ITEM,
CHANNEL_READ_COMPLETE, READ_LIMIT_EXPIRY, RESULT_RETURN, FLC_WINDOW. -/

namespace Sys2Proof.Machine

/-! ## Items -/

/-- One item of an engine changed. -/
def Block.setItem (b : Block) (c id : Nat) (f : Item → Item) : Block :=
  let e := b.engine c
  b.setEngine c { e with items := mapIf (fun (i : Item) => decide (i.id = id)) f e.items }

/-- An item of an engine. -/
def Block.item (b : Block) (c id : Nat) : Option Item := (b.engine c).items.find? (fun i => decide (i.id = id))

/-- An item that has ended leaves its store and returns its credit; a waiting one takes its place (R187). -/
def Block.endItem (b : Block) (c : Nat) (i : Item) : Block :=
  let e := b.engine c
  let e : Engine := { e with items := e.items.filter (fun (j : Item) => decide (j.id ≠ i.id)) }
  (b.setEngine c (e.giveBack i).pull).markItems c

/-- The search or shard request of some work ends with a status; a shard request whose deadline has passed is dropped
without a reply (R58, R195, R196). -/
def Block.failWork (b : Block) (w : ItemWork) (st : Nat) : Block :=
  match w with
  | .refine r =>
    if r.fromPlace = b.place then
      if st = stTierFault then b.faultQuery r.cmd r.query else b.endSearch r.cmd st
    else b.send { toward := .place r.fromPlace, cls := 4, kind := .refineReply, args := [r.cmd, r.query, st],
                   deadline := some r.deadline }
  | .cold c =>
    match b.ctx c.ctx with
    | some x => if b.passed x.deadline then (b.bump (pQpl x.die) 3).freeCtxs [c.ctx] stLate else b.failCtx c.ctx st
    | none => b

/-- An item of an engine ends its search with a status; TIER_FAULT is counted (CNT5), ABORTED too (CNT6). -/
def Block.countEnd (b : Block) (c st : Nat) : Block :=
  if st = stTierFault then b.bump (pFlc c) 5 else if st = stAborted then b.bump (pFlc c) 6 else b

/-- An item that has left its store ends its search with a status. -/
def Block.failItem (b : Block) (c : Nat) (i : Item) (st : Nat) : Block := ((b.endItem c i).countEnd c st).failWork i.work st

/-- The work of an item is still wanted: its search or context is there. -/
def Block.wanted (b : Block) : ItemWork → Bool
  | .refine r => decide (r.fromPlace ≠ b.place) || (b.searchOf r.cmd).isSome
  | .cold c => (b.ctx c.ctx).isSome

/-- Items of an engine that no longer serves them end with a status; none that waited at a sender takes its place here. -/
def Block.failItems (b : Block) (c st : Nat) (p : Item → Bool) : Block :=
  let e := b.engine c
  let gone := e.items.filter p
  let b := (b.setEngine c (gone.foldl Engine.giveBack { e with items := e.items.filter (fun i => !p i), held := [] })).markItems c
  let b := gone.foldl (fun b i => let b := b.countEnd c st; if b.wanted i.work then b.failWork i.work st else b) b
  b.setEngine c { b.engine c with held := e.held.filter (fun i => b.wanted i.work) }

/-- A tile read that fails: the code tile that it was to stage is not in DRAM (R195, R197). -/
def Block.unstage (b : Block) (t : Option (Nat × Nat × Nat)) : Block :=
  match t with
  | none => b
  | some k => (b.dramTiles.filter (fun d => decide ((d.index, d.version, d.tile) = k))).foldl (fun b d =>
      b.withdrawRow d.stack (dieOfUnit d.unit) d.bank d.row) b

/-- Tile reads in an engine's store end with a status (R197, R203). -/
def Block.failTiles (b : Block) (c st : Nat) (p : FlashPage → Bool) : Block :=
  let hit (i : SlowItem) : Bool := match i.work with | .tile q _ => p q | _ => false
  let e := b.engine c
  let gone := e.slow.filter hit
  let b := b.setEngine c { e with slow := e.slow.filter (fun i => !hit i) }
  gone.foldl (fun b i => (b.countEnd c st).unstage (match i.work with | .tile _ t => t | _ => none)) b

/-- Pages that are being programmed wait to be programmed again. -/
def Block.againPrograms (b : Block) (p : Program → Bool) : Block :=
  let again : List FlashWrite := (b.ftl.programs.filter p).map (·.write) ++ b.ftl.writes
  { b with ftl := { b.ftl with programs := b.ftl.programs.filter (fun x => !p x), writes := again } }

/-- Every item of an engine ends with a status, tile reads among them; pages that it programs wait to be programmed again, and media
work waits at its sender. -/
def Block.failEngine (b : Block) (c st : Nat) : Block :=
  let b := (b.failItems c st (fun _ => true)).failTiles c st (fun _ => true)
  let b := b.againPrograms (fun p => decide (p.lun.channel.val = c))
  b.setEngine c { (b.engine c).putBack (fun _ => true) with adrift := [] }

/-- An item sent to the engine that serves its channel, or ended DISABLED when there is none (R184). -/
def Block.sendItem (b : Block) (i : Item) : Block :=
  match b.engineFor i.channel with
  | none => b.failWork i.work stDisabled
  | some e =>
    let b := (b.setEngine e ((b.engine e).push i)).markItems e
    if e = i.channel then b else b.bump (pFlc e) 7

/-- An engine takes no more items: those that wait for it at their senders go to the substitute, and media work that it has not begun
waits at its sender (R184, R410). -/
def Block.leaveEngine (b : Block) (c : Nat) : Block :=
  let held := (b.engine c).held
  let b := held.foldl (fun b i => if b.wanted i.work then b.sendItem i else b) (b.setEngine c { b.engine c with held := [] })
  let e := (b.engine c).putBack (fun i => !i.served && decide (i.work.cls = 4))
  let b := b.setEngine c { e with kept := e.kept.filter (fun i => decide (i.work.cls = 4)) }
  e.kept.foldl (fun b i => match i.work with | .tile p t => b.queueTile p t | _ => b) b

/-- What follows a change of FLC pages or bays: INT_STATUS.SUBSTITUTE of every FLC page whose SUBSTITUTED changed; items go to the
substitute, or come to an engine that takes them again (R184, R203). -/
def Block.settleEngines (old b : Block) : Block :=
  let changed := (List.range 64).filter (fun c => !decide (old.substituted c = b.substituted c))
  let b := changed.foldl (fun b c => b.raiseInt (pFlc c) 17) b
  let b := (changed.filter b.substituted).foldl Block.leaveEngine b
  (changed.filter (fun c => !b.substituted c)).foldl Block.pullSlow b

/-- An item arrives for a channel. -/
def arriveItem (c : Nat) (w : ItemWork) (deadline : Nat) (b : Block) : Block :=
  let (id, b) := b.fresh
  b.sendItem { id := id, work := w, channel := c, deadline := some deadline, state := .waiting }

/-! ## What an item reads (R92, R102, R183, R388) -/

/-- A run of bytes of a tile that an item reads: from DRAM where a copy is cached, or else from the page that holds it. A tile of
the side list has its number above 2³³. `gone`: no copy of the tile is left (R445). -/
structure Run where
  tile : Nat
  off  : Nat
  len  : Nat
  dram : Bool
  site : Option (StripeRow × Member)
  key  : Option CacheKey := none
  gone : Bool := false

/-- The codewords (tile, number) that a run of bytes of an area covers (R388). -/
def codewords (tile off len : Nat) : List (Nat × Nat) :=
  (span (off / 4096) ((off + len - 1) / 4096 + 1 - off / 4096)).map (fun n => (tile + n / 4, n % 4))

/-- The log page that holds a side-list entry. -/
def Block.entrySite (b : Block) (ix number : Nat) : Option (StripeRow × Member) :=
  ((b.index ix).side.find? (fun s => decide (s.number = number))).bind (fun s =>
    b.pageSite (fun w => decide (w = .logPage ix s.page)))

/-- The run of a candidate's full vector. -/
def Block.vectorRun (b : Block) (v : Version) (e : Entry) : Run :=
  let a := vectorAt v.root e
  let ix := v.root.index
  let k := CacheKey.index ix v.root.version a.1
  let side := decide (e.part = noPart)
  { tile := a.1, off := a.2, len := v.root.dim * elemSize v.root.fmt
    dram := if side then !b.dramShort (16384 * (b.index ix).sidePages.length) else b.cached k
    site := if side then b.entrySite ix e.number else b.tileSite v a.1, key := if side then none else some k
    gone := b.pageGone (.tile ix v.root.version a.1) }

/-- The runs of a partition's codes, one for each of its code tiles. -/
def Block.codeRuns (b : Block) (v : Version) (p : Part) : List Run :=
  let n := p.slots.length * codeSize v.root.m p.code8
  let dram := b.dramParts.any (fun d =>
    decide (d.index = v.root.index ∧ d.version = v.root.version ∧ d.part = p.number) && b.dramCopy d)
  (span (p.offset / 16384) ((p.offset + n - 1) / 16384 + 1 - p.offset / 16384)).map (fun i =>
    let from' := max p.offset (i * 16384)
    { tile := p.tile + i, off := from' - i * 16384, len := min (p.offset + n) ((i + 1) * 16384) - from', dram := dram
      site := b.tileSite v (p.tile + i), gone := b.pageGone (.tile v.root.index v.root.version (p.tile + i)) })

/-- The runs that annotating some entries of a partition reads: their vector IDs, and with filter terms their attribute rows
(R163, R194). -/
def Block.noteRuns (b : Block) (v : Version) (terms : List Term) (l : List Entry) : List Run :=
  let run (base size n : Nat) : Run :=
    let per := 16384 / max 1 size
    let t := base + n / max 1 per
    let k := CacheKey.index v.root.index v.root.version t
    { tile := t, off := n % max 1 per * size, len := size, dram := b.cached k, site := b.tileSite v t, key := some k
      gone := b.pageGone (.tile v.root.index v.root.version t) }
  l.flatMap (fun e => run v.root.idTile 8 e.number :: (if terms = [] then [] else [run v.root.attrTile v.root.attrBytes e.number]))

/-- The runs an item's own data lie in. -/
def Block.itemRuns (b : Block) (w : ItemWork) : List Run :=
  match w with
  | .refine r => match (b.index r.index).version r.version with
    | some v => r.cands.map (b.vectorRun v)
    | none => []
  | .cold r => match (b.index r.index).version r.version with
    | some v => match v.part r.part with | some p => b.codeRuns v p | none => []
    | none => []

/-- The flash codewords of some runs, each once (R192), with where the page lies. -/
def flashWords (l : List Run) : List ((Nat × Nat) × Option (StripeRow × Member)) :=
  (l.filter (fun r => !r.dram)).foldl (fun ws r =>
    (codewords r.tile r.off r.len).foldl (fun ws x => if ws.any (fun y => decide (y.1 = x)) then ws else snoc ws (x, r.site)) ws) []

/-- An engine reads a page as that of its own channel (R184). -/
def Block.ownPage (b : Block) (c : Nat) (x : StripeRow × Member) : Bool := decide (b.siteChannel x = some c)

/-- The row and the members that an engine reads each flash codeword of some runs from; none for one that cannot be read (R195,
R394). -/
def Block.wordSources (b : Block) (c : Nat) (l : List Run) : List (Option (StripeRow × List Member)) :=
  (flashWords l).filterMap (fun w => w.2.map (fun x => (b.readFrom (b.ownPage c x) x w.1.2).map (fun m => (x.1, m))))

/-- A codeword that some runs need from flash cannot be read: three or more members of its row are lost, it is known to be
uncorrectable, or no copy of its page is left (R195, R394, R445). -/
def Block.runsLost (b : Block) (c : Nat) (l : List Run) : Bool := (b.wordSources c l).any (·.isNone) || l.any (fun r => r.gone && !r.dram)

/-- Addresses of the pages that an engine reads for some runs and that lie where they were programmed: block, page in it. -/
def Block.runAddresses (b : Block) (c : Nat) (l : List Run) : List (BlockRef × Nat) :=
  (b.wordSources c l).flatMap (fun w => match w with
    | some (s, ms) => ms.filterMap (fun m => b.siteAddress (s, m))
    | none => [])

/-- Some runs read by an engine: bytes from flash, of which a lost page takes those of every member that it is assembled from,
and from DRAM, whose copies are used (CNT3, CNT4; BAY CNT4; R361). -/
def Block.countRuns (b : Block) (c : Nat) (l : List Run) : Block :=
  let near := l.filter (·.dram)
  let b := (b.wordSources c l).foldl (fun b w => match w with | some x => b.countWords c x.2 | none => b) b
  let b := b.bump (pFlc c) 4 (near.foldl (fun n r => n + r.len) 0)
  (near.filterMap (·.key)).foldl Block.touch b

/-! ## Arrival (R183, R192, R193) -/

/-- The home channel of some runs' pages, where flash holds them, is the channel that the item names. -/
def Block.atHome (b : Block) (c : Nat) (l : List Run) : Bool :=
  l.all (fun r => match r.site.bind b.siteChannel with | some h => decide (h = c) | none => true)

/-- The refinement item is one that this place forms (R192): at most 64 distinct candidates that it holds, of one search; for a
search admitted here, entries of its pool whose distances are asked and not yet computed. -/
def Block.refineOk (b : Block) (r : RefineItem) : Bool :=
  let vids := r.cands.map (·.vid)
  decide (r.cands ≠ [] ∧ r.cands.length ≤ 64 ∧ nub vids = vids) && r.cands.all (fun e => decide (e.place = b.place)) &&
  (if r.fromPlace ≠ b.place then true
   else match b.cmd r.cmd, b.searchOf r.cmd with
   | some k, some x =>
     match x.queries[r.query]? with
     | none => false
     | some q =>
       let out := b.engines.flatMap (fun e => (e.2.items ++ e.2.held).flatMap (fun i => match i.work with
         | .refine y => if y.fromPlace = b.place ∧ y.cmd = r.cmd ∧ y.query = r.query then y.cands.map (·.vid) else []
         | .cold _ => []))
       let done := q.refined.flatten.map (·.vid) ++ out
       decide (r.index = x.index ∧ r.version = x.version ∧ k.deadline = some r.deadline ∧ r.op = k.opcode ∧ r.qpl.val = k.die ∧
         r.vector = q.vector) && q.asked && r.cands.all (fun e => decide (e ∈ q.pool.getD [] ∧ e.vid ∉ done))
   | _, _ => false)

/-- REFINEMENT_ITEM (R183, R192): candidates whose full vectors have their home on a channel go to its engine. -/
def refinementItem (c : Nat) (r : RefineItem) (b : Block) : Block :=
  if b.refineOk r ∧ b.atHome c (b.itemRuns (.refine r)) then arriveItem c (.refine r) r.deadline b else b

/-- REFINEMENT_ITEM. -/
def execRefinementItem (channel : Fin 64) (item : RefineItem) (s : State) : Result :=
  .next (s.on (refinementItem channel.val item))

/-- The cold-scan item of a partition that a context awaits and that no sweep and no item scans: the table that its CODE8 names,
C, the deadline and the terms are those of the shard request (R143, R178, R193). -/
def Block.coldItem (b : Block) (ctx part : Nat) : Option ColdItem :=
  match b.ctx ctx with
  | none => none
  | some x =>
    match x.work, (b.index x.index).version x.version with
    | .shard r, some v =>
      let awaited := x.shards.any (fun h => decide (h.shard = shardOf part ∧ part ∈ h.awaiting))
      let swept := b.stackSet.any (fun e => e.2.sweeps.any (fun w => decide (w.ctx = ctx ∧ w.part = part)))
      let sent := b.engines.any (fun e => (e.2.items ++ e.2.held).any (fun i => match i.work with
        | .cold y => decide (y.ctx = ctx ∧ y.part = part)
        | .refine _ => false))
      match v.part part with
      | some p =>
        if awaited ∧ !swept ∧ !sent then
          some { qpl := if x.die = 0 then 0 else 1, ctx := ctx, index := x.index, version := x.version, cairn := x.cairn, part := part
                 table := if p.code8 then r.table8 else r.table4, keep := keepOf r, terms := r.terms, deadline := x.deadline.getD 0 }
        else none
      | none => none
    | _, _ => none

/-- COLD_SCAN_ITEM (R183, R193): a partition of a context goes to the engine of its home channel, that of its first code tile. -/
def coldScanItem (c ctx part : Nat) (b : Block) : Block :=
  match b.coldItem ctx part with
  | some i => if b.atHome c ((b.itemRuns (.cold i)).take 1) then arriveItem c (.cold i) i.deadline b else b
  | none => b

/-- COLD_SCAN_ITEM. -/
def execColdScanItem (channel : Fin 64) (item : ColdOrder) (s : State) : Result :=
  .next (s.on (coldScanItem channel.val item.ctx item.part))

/-! ## Service (R186) -/

/-- The class of an item. -/
def Item.cls (i : Item) : Nat := match i.work with | .refine _ => 0 | .cold _ => 1

/-- SHARE of a class in the window's shares. -/
def shareOf (v : BitVec 64) (n : Nat) : Nat := bits v (6 * n) 6

/-- An item of class 2 or 4 can be served: a read always; media work while writing is not stopped and FTL works, a move, which begins
then, while FTL runs and its block is in no row that is being rebuilt (R391, R395, R413). -/
def Block.slowReady (b : Block) (i : SlowItem) : Bool :=
  !i.served && (match i.work with
    | .tile _ _ => true
    | .move r => b.mediaWork && !b.rebuilding r
    | .erase _ _ | .rebuild => b.mediaGoes)

/-- The item of class 2 or 4 that an engine serves next (R186). -/
def Block.nextSlow (b : Block) (c n : Nat) : Option SlowItem :=
  (b.engine c).slow.find? (fun i => decide (i.work.cls = n) && b.slowReady i)

/-- A class has work at an engine: waiting items, tile reads, pages to send to its channel, media work (R185). -/
def Block.classWork (b : Block) (c n : Nat) : Bool :=
  match n with
  | 0 | 1 => (b.engine c).items.any (fun i => decide (i.cls = n) && decide (i.state = .waiting))
  | 3 => b.ftl.programs.any (fun p => decide (p.lun.channel.val = c) && !p.sent)
  | 2 | 4 => (b.nextSlow c n).isSome
  | _ => false

/-- Order within classes 0 and 1: deadline, then arrival. -/
def itemBefore (x y : Item) : Bool :=
  match x.deadline, y.deadline with
  | some a, some d => decide (a < d) || (decide (a = d) && decide (x.id < y.id))
  | some _, none => true
  | none, some _ => false
  | none, none => decide (x.id < y.id)

/-- The class an engine serves next. -/
def Block.nextClass (b : Block) (c : Nat) : Option Nat :=
  let e := b.engine c
  let total := e.used.foldl (fun n x => n + x.2) 0
  let work := (List.range 5).filter (b.classWork c)
  match work.find? (fun n => decide (64 * sget 0 e.used n < shareOf e.shares n * total)) with
  | some n => some n
  | none => work.head?

/-- A LUN of the channel addressed by TARGET and LUN. -/
def blockAt (c target lun page : Nat) : BlockRef :=
  ⟨⟨Fin.ofNat 64 c, Fin.ofNat 8 target, Fin.ofNat 4 lun⟩, page / 4096⟩

/-- A block scheduled for rewrite, once (R195, R403), by its engine in class 4. -/
def Block.scheduleRewrite (b : Block) (r : BlockRef) : Block :=
  if r ∈ b.ftl.rewrites then b else ({ b with ftl := { b.ftl with rewrites := snoc b.ftl.rewrites r } } : Block).queueMove r

/-- Reads counted for a block since its last refresh (R402). -/
def Block.readCount (b : Block) (r : BlockRef) : Nat :=
  match b.ftl.reads.find? (fun e => decide (e.1 = r)) with | some e => e.2 | none => 0

/-- A block of a zone has reached READ_REFRESH reads (R402). -/
def Block.refreshDue (b : Block) (r : BlockRef) : Bool :=
  decide (1000 * b.fld pFtl 0x124 0 16 ≤ b.readCount r) && (b.zoneAt r).isSome

/-- A read of a block counted; one that reaches READ_REFRESH schedules its refresh (R402). -/
def Block.countRead (b : Block) (r : BlockRef) : Block :=
  let l : List (BlockRef × Nat) := (r, b.readCount r + 1) :: b.ftl.reads.filter (fun e => decide (e.1 ≠ r))
  let b := { b with ftl := { b.ftl with reads := l } }
  if b.refreshDue r then b.queueMove r else b

/-- Blocks whose refresh a change of READ_REFRESH has made due. -/
def Block.queueDue (b : Block) : Block := ((b.ftl.reads.map (·.1)).filter b.refreshDue).foldl Block.queueMove b

/-- The cartridge of a channel can suspend a program or an erase, and MEDIA_CFG.SUSPEND is 1 (R186). -/
def Block.suspends (b : Block) (c : Nat) : Bool := decide (b.fld (pFlc c) 0x114 8 1 = 1) && (b.bay (c / 4)).suspend

/-- A tile read by an engine, its own or as a substitute (CNT7); one that cannot be read ends TIER_FAULT (R195, R394, R402). -/
def Block.readTile (b : Block) (c : Nat) (p : FlashPage) (stages : Option (Nat × Nat × Nat)) : Block :=
  let b := if p.channel = c then b else b.bump (pFlc c) 7
  match b.pageAt p with
  | none => b
  | some x =>
    let own := decide (p.channel = c)
    let ok := (List.range 4).all (fun k => (b.readFrom own x k).isSome)
    let read := b.countPage c own x
    let read := match b.siteAddress x with | some a => if own then read.countRead a.1 else read | none => read
    if ok then read else (read.countEnd c stTierFault).unstage stages

/-- One item of class 2 or 4 served: a tile is read and leaves the store; media work begins. -/
def Block.serveSlow (b : Block) (c : Nat) (i : SlowItem) : Block :=
  let e := b.engine c
  match i.work with
  | .tile p t => ((b.setEngine c { e with slow := e.slow.erase i }).readTile c p t).pullSlow c
  | _ => b.setEngine c { e with slow := mapIf (fun x => decide (x = i)) (fun x => { x with served := true }) e.slow }

/-- A channel's engine is reading from a LUN, for an item or for one dropped meanwhile, so that a program or an erase there is
suspended (R186, R198). -/
def Block.readsLun (b : Block) (l : LunRef) : Bool :=
  let c := l.channel.val
  b.suspends c && ((b.engine c).items.filter (fun i => decide (i.state = .reading)) ++ (b.engine c).adrift).any (fun i =>
    (b.runAddresses c (b.itemRuns i.work)).any (fun a => decide (a.1.lun = l)))

/-- The erases that an engine has begun and that no read suspends have ended by its next operation (R397, R407; DESIGN CHOICE, log
134). -/
def Block.endErases (b : Block) (c : Nat) : Block :=
  let ended (i : SlowItem) : Option (BlockRef × Bool) :=
    match i.work with | .erase r secure => if i.served ∧ !b.readsLun r.lun then some (r, secure) else none | _ => none
  let done := (b.engine c).slow.filterMap ended
  let b := b.endSlow c (fun i => (ended i).isSome)
  done.foldl (fun b e => let b := b.countErase e.1; if e.2 then b.bump pFtl 7 else b) b

/-- One operation of a class at an engine: of class 0 or 1 its first item's reads are issued; of the others the first item in
order of arrival is served: a tile is read, a page sent to its LUN, a block's move or erase begun. -/
def Block.serveClass (b : Block) (c n : Nat) : Block :=
  let e := b.engine c
  match n with
  | 0 | 1 =>
    match leastBy itemBefore (e.items.filter (fun i => decide (i.cls = n) && decide (i.state = .waiting))) with
    | some i => b.setItem c i.id (fun i => { i with state := .reading, issued := b.meter, limit := b.fld (pFlc c) 0x110 0 16 })
    | none => b
  | 3 =>
    match b.ftl.programs.find? (fun p => decide (p.lun.channel.val = c) && !p.sent) with
    | some q =>
      let l : List Program := mapIf (fun p => decide (p.lun = q.lun)) (fun p => { p with sent := true }) b.ftl.programs
      { b with ftl := { b.ftl with programs := l } }
    | none => b
  | _ => match b.nextSlow c n with | some i => b.serveSlow c i | none => b

/-- CHANNEL_OPERATION (R186): the class served takes `timeUsed` of channel time in the window. -/
def channelOperation (c timeUsed : Nat) (b : Block) : Block :=
  if !b.working (pFlc c) then b
  else
  let b := b.endErases c
  match b.nextClass c with
  | none => b
  | some n =>
    let e := b.engine c
    (b.setEngine c { e with used := sset 0 e.used n (sget 0 e.used n + timeUsed) }).serveClass c n

/-- CHANNEL_OPERATION. -/
def execChannelOperation (channel : Fin 64) (timeUsed : Nat) (s : State) : Result :=
  .next (s.on (channelOperation channel.val timeUsed))

/-- FLC_WINDOW (R186, R203): the next 1 ms window of the meter begins; SHARE as it stands applies in it. -/
def flcWindow (c : Nat) (b : Block) : Block :=
  let e := b.engine c
  if b.meter / 100000 = e.window then b
  else b.setEngine c { e with used := [], window := b.meter / 100000, shares := b.reg ((pFlc c).at 0x10C) }

/-- FLC_WINDOW. -/
def execFlcWindow (channel : Fin 64) (s : State) : Result := .next (s.on (flcWindow channel.val))

/-! ## Reads (R192 to R196) -/

/-- Bytes of an item's result: 32 for each entry (DESIGN CHOICE, log 135), and the return credits it takes (R188). -/
def Item.resultBytes (i : Item) : Nat := 32 * (i.refined.length + i.entries.length)
def Item.resultCredits (i : Item) : Nat := (i.resultBytes + 4095) / 4096

/-- An engine's return buffer has room for a further result of its 512 KiB (R182). -/
def Engine.room (e : Engine) (n : Nat) : Bool :=
  decide ((e.items.filter (fun i => decide (i.state = .returning))).foldl (fun k i => k + i.resultBytes) n ≤ 524288)

/-- What the engine computes once an item's data is there: refined entries in refined-key order, or the C lowest codes
annotated; and its counts. A candidate whose full vector cannot be read ends the item TIER_FAULT (R153, R394). -/
def completeItem (c : Nat) (i : Item) (b : Block) : Block :=
  match i.work with
  | .refine r =>
    match (b.index r.index).version r.version with
    | none => b.failItem c i stTierFault
    | some v =>
      let ix := b.index r.index
      let l : List (Option Refined) := r.cands.map (fun e =>
        (fullVector ix v e).map (fun vec => ⟨exactDistance v.root r.vector vec, e.vid, e.part⟩))
      if l.any (·.isNone) then b.failItem c i stTierFault
      else
        (b.setItem c i.id (fun i => { i with state := .returning, refined := sortBy refinedLt (l.filterMap id) })).bump (pFlc c) 0 l.length
  | .cold r =>
    match (b.index r.index).version r.version with
    | none => b.failItem c i stTierFault
    | some v =>
      match v.part r.part with
      | none => b.failItem c i stTierFault
      | some p =>
        let l := scanPart v p r.table r.terms r.cairn b.place r.keep
        let b := b.setItem c i.id (fun i => { i with state := .returning, entries := l })
        (b.bump (pFlc c) 1).bump (pFlc c) 2 p.slots.length

/-- The runs that an item whose data are there has read: its own, and for a cold scan what its annotations needed. -/
def Block.doneRuns (b : Block) (i : Item) : List Run :=
  b.itemRuns i.work ++ (match i.work with
    | .refine _ => []
    | .cold r => match (b.index r.index).version r.version with
      | some v => b.noteRuns v r.terms i.entries
      | none => [])

/-- A program or an erase occupies a LUN that an engine reads some runs from (R186). -/
def Block.lunBusy (b : Block) (c : Nat) (l : List Run) : Bool :=
  (b.runAddresses c l).any (fun a =>
    b.ftl.programs.any (fun p => p.sent && decide (p.lun = a.1.lun)) ||
    (b.engine a.1.lun.channel.val).slow.any (fun i => match i.work with | .erase r _ => i.served && decide (r.lun = a.1.lun) | _ => false))

/-- A program is suspended while its channel's engine reads from its LUN (R186). -/
def Block.programSuspended (b : Block) (p : Program) : Bool := b.readsLun p.lun

/-- The opcode of the search that an item serves (R38). -/
def Block.workOp (b : Block) : ItemWork → Nat
  | .refine r => r.op
  | .cold c => b.ctxOp c.ctx

/-- A codeword that stays uncorrectable: recorded, remembered until its block has been rewritten, and the item ends TIER_FAULT
(R195). -/
def Block.mediaError (b : Block) (c : Nat) (i : Item) (target lun page word : Nat) : Block :=
  let r := blockAt c target lun page
  let b := b.put (pFlc c) 0x128 (target % 16 + lun % 16 * 16 + page % 2 ^ 24 * 256 + word % 65536 * 2 ^ 32 + 2 ^ 63)
  let b := (b.raiseErr (pFlc c) 16 (b.workOp i.work)).scheduleRewrite r
  let b := { b with ftl := { b.ftl with bad := snoc b.ftl.bad (r, page % 4096, word) } }
  b.failItem c i stTierFault

/-- The reads of an item dropped meanwhile complete, and their data are discarded (R198). -/
def Block.driftEnd (b : Block) (c id : Nat) : Block :=
  let e := b.engine c
  match e.adrift.find? (fun i => decide (i.id = id)) with
  | none => b
  | some i => (b.setEngine c { e with adrift := e.adrift.filter (fun i => decide (i.id ≠ id)) }).countRuns c (b.itemRuns i.work)

/-- CHANNEL_READ_COMPLETE: the item's codewords decode, a worn block being scheduled for rewrite (R403), or one stays
uncorrectable after RETRY_MAX retry steps, or is known to be, or lies on a lost page, and the item ends TIER_FAULT (R195, R394).
Where a read decoded only after more steps than RETRY_MAX, or the error is injected, no codeword is named: UNCORR_LAST holds codeword 0
(DESIGN CHOICE, log 156). A read of a LUN that a program or an erase occupies waits for it where it cannot be suspended (R186), and an
item whose result has no room in the return buffer waits for it. -/
def channelReadComplete (c id : Nat) (read : ReadOutcome) (b : Block) : Block :=
  match b.item c id with
  | none => b.driftEnd c id
  | some i =>
    let runs := b.itemRuns i.work
    if i.state ≠ .reading ∨ (b.lunBusy c runs ∧ !b.suspends c) then b
    else if b.runsLost c runs then (b.countRuns c runs).failItem c i stTierFault
    else match read with
    | .uncorrectable target lun page word =>
      ((b.takeInjected (pFlc c) 16).2.countRuns c runs).mediaError c i target lun page word
    | .decoded corrected retries target lun page =>
      let (inj, b) := b.takeInjected (pFlc c) 16
      if inj ∨ b.fld (pFlc c) 0x114 0 4 < retries then (b.countRuns c runs).mediaError c i target lun page 0
      else
        let done := completeItem c i b
        let result := done.item c id
        let all := (result.map b.doneRuns).getD []
        if b.runsLost c all then (b.countRuns c all).failItem c i stTierFault
        else if !(b.engine c).room ((result.map Item.resultBytes).getD 0) then b
        else
          let b := (done.bumpHealth (pFlc c) 0x80 corrected).bumpHealth (pFlc c) 0x88 retries
          let b := b.countRead (blockAt c target lun page)
          let b := if b.fld pFtl 0x128 0 8 < corrected ∨ 0 < retries then b.scheduleRewrite (blockAt c target lun page) else b
          b.countRuns c all

/-- CHANNEL_READ_COMPLETE. -/
def ownChannelReadComplete (channel : Fin 64) (item : Nat) (read : ReadOutcome) (s : State) : Result :=
  .next (s.on (channelReadComplete channel.val item read))

/-- READ_LIMIT_EXPIRY (R196). -/
def readLimitExpiry (c id : Nat) (b : Block) : Block :=
  match b.item c id with
  | none => b.setEngine c { b.engine c with
      adrift := (b.engine c).adrift.filter (fun i => !decide (i.id = id ∧ i.issued + 100 * i.limit ≤ b.meter)) }
  | some i =>
    if i.state = .reading ∧ i.issued + 100 * i.limit ≤ b.meter then
      (b.raiseErr (pFlc c) 17 (b.workOp i.work)).failItem c i stTierFault
    else b

/-- READ_LIMIT_EXPIRY. -/
def execReadLimitExpiry (channel : Fin 64) (item : Nat) (s : State) : Result := .next (s.on (readLimitExpiry channel.val item))

/-- The query pipeline has yet to consume a result: a shard's merge the entries of a partition, a final selection a query's refined
entries (R188). -/
def Block.unread (b : Block) (l : Lent) : Bool :=
  match l.reader with
  | .merge ctx part => (b.ctx ctx).any (fun x => x.shards.any (fun h =>
      decide (h.shard = shardOf part) && !h.merged && !h.ended && h.returns.any (fun r => r.any (fun e => decide (e.part = part)))))
  | .final cmd query => (b.searchOf cmd).any (fun x => (x.queries[query]?).any (fun q => q.result.isNone && decide (q.refined ≠ [])))

/-- An engine's free return credits of a QPL page: 64, less those of results that are not yet consumed (R188). -/
def Block.returnCredit (b : Block) (c q : Nat) : Nat :=
  64 - (((b.engine c).lent.filter (fun l => decide (l.qpl = q) && b.unread l)).map (·.credits)).sum

/-- Who at this place consumes an item's result; one for another place leaves in a message. -/
def Block.consumer (b : Block) : ItemWork → Option Consumer
  | .cold r => some (.merge r.ctx r.part)
  | .refine r => if r.fromPlace = b.place then some (.final r.cmd r.query) else none

/-- RESULT_RETURN (R188): the first result that waits and for which the engine holds enough return credits of its QPL page is sent
to the query pipeline, and takes them until it is consumed there. -/
def resultReturn (c : Nat) (b : Block) : Block :=
  match (b.engine c).items.find? (fun i => decide (i.state = .returning) && decide (i.resultCredits ≤ b.returnCredit c i.sender)) with
  | none => b
  | some i =>
    let lent := (b.engine c).lent.filter b.unread
    let b := b.endItem c i
    let b := b.setEngine c { b.engine c with lent := match b.consumer i.work with
      | some r => snoc lent ⟨i.sender, i.resultCredits, r⟩
      | none => lent }
    match i.work with
    | .cold r => b.returnScan r.ctx r.part i.entries
    | .refine r =>
      if r.fromPlace = b.place then
        b.setSearch r.cmd (fun x => x.setQuery r.query (fun q => { q with refined := snoc q.refined i.refined }))
      else b.send { toward := .place r.fromPlace, cls := 4, kind := .refineReply, args := [r.cmd, r.query, stOk],
                    body := .refined i.refined, deadline := some r.deadline }

/-- RESULT_RETURN. -/
def execResultReturn (channel : Fin 64) (s : State) : Result := .next (s.on (resultReturn channel.val))

end Sys2Proof.Machine
end

