-- ==== Sys2Proof/Machine/Versions.lean ====
section
/-! DEFINITION. Index versions (chapter 04): the root and its tiles, mounting, switching and retiring. Its rows:
INDEX_MOUNT, MOUNT_TILES_PLACED, INDEX_SWITCH, INDEX_RETIRE. -/

namespace Sys2Proof.Machine

/-! ## Tiles and the root (R87 to R101) -/

/-- Bytes of a tile with its header. -/
abbrev tileBytes := 16448

/-- A tile's CHECK holds (R87, R88). -/
def tileOk (t : Bytes) : Bool :=
  decide (t.length = tileBytes) && decide (le t 0x38 8 = (crc64 (slice t 0 0x38 ++ t.drop 64)).toNat)

/-- The version root (R89). -/
def parseRoot (r : Bytes) : Root :=
  { index := le r 0x08 2, version := le r 0x0C 4, floor := le r 0x10 6, dim := le r 0x18 2, fmt := le r 0x1A 1,
    metric := le r 0x1B 1, m := le r 0x1C 1, code8 := decide (nbits (le r 0x1D 1) 0 1 = 1), degree := le r 0x1E 1,
    attrBytes := le r 0x1F 1, partitions := le r 0x20 4, vectors := le r 0x28 8, cb4 := le r 0x30 4, cb8 := le r 0x34 4,
    dir := le r 0x38 4, graph := le r 0x3C 4, idTile := le r 0x40 4, vecTile := le r 0x44 4, attrTile := le r 0x48 4,
    tiles := le r 0x4C 4, entry := (List.range (min 64 (le r 0x24 1))).map (fun i => le r (0x100 + 4 * i) 4),
    schema := (List.range 16).map (fun i => le r (0x200 + 4 * i) 4) }

/-- MAGIC, LAYOUT and CHECK of a root (R89). -/
def rootOk (r : Bytes) : Bool :=
  decide (le r 0 4 = 0x5A495852) && decide (le r 4 2 = 1) && decide (le r 0xFF8 8 = (crc64 (slice r 0 0xFF8)).toNat)

/-- A root field lies outside its range (R89, R90, R119): ENTRY among them, whose used entries name nodes below PARTITIONS and
whose unused ones are 0xFFFF_FFFF. -/
def rootOutOfRange (raw : Bytes) (r : Root) : Bool :=
  decide (15 < r.index) || decide (r.version = 0) || decide (r.dim < 64 ∨ 4096 < r.dim) || decide (4 < r.fmt) ||
  decide (1 < r.metric) || !decide (r.m ∈ [16, 32, 64, 128]) || decide (r.dim % (max 1 r.m) ≠ 0) ||
  decide (256 < r.dim / max 1 r.m) || decide (r.degree < 8 ∨ 64 < r.degree ∨ r.degree % 8 ≠ 0) ||
  !decide (r.attrBytes ∈ [0, 8, 16, 32, 64]) || decide (r.partitions = 0) ||
  decide (le raw 0x24 1 = 0 ∨ 64 < le raw 0x24 1) || r.entry.any (fun n => decide (r.partitions ≤ n)) ||
  (span (min 64 (le raw 0x24 1)) (64 - le raw 0x24 1)).any (fun i => decide (le raw (0x100 + 4 * i) 4 ≠ 0xFFFFFFFF)) || (!r.code8 && decide (r.cb8 ≠ 0)) ||
  (decide (r.attrBytes = 0) && decide (r.attrTile ≠ 0))

/-- An area start lies at or beyond TILES, or a SCHEMA entry breaks R101 (R114). -/
def rootRefused (r : Root) : Bool :=
  [r.cb4, r.cb8, r.dir, r.graph, r.idTile, r.vecTile, r.attrTile].any (fun t => decide (r.tiles ≤ t)) ||
  r.schema.any (fun w => !schemaUnused w && (decide (schemaType w = 3) || decide (nbits w 18 14 ≠ 0) ||
    decide (8 * r.attrBytes < nbits w 0 10 + nbits w 10 6 + 1))) ||
  r.schema.any (fun w => schemaUnused w && decide (w ≠ 0))

/-- Tile n of a version's tiles held here. -/
def tileOf (tiles : List (Nat × Bytes)) (n : Nat) : Option Bytes := (tiles.find? (fun t => decide (t.1 = n))).map (·.2)

/-- `n` payload bytes at an offset counted from the start of a tile's payload, running on into the tiles after it; past the last
tile they read as 0 (DESIGN CHOICE, log 151). -/
def areaBytes (tiles : List (Nat × Bytes)) (tile off n : Nat) : Bytes :=
  let first := off / 16384
  let last := (off + n + 16383) / 16384
  let bs := (span first (last - first)).flatMap (fun i => padTo ((tileOf tiles (tile + i)).getD [] |>.drop 64) 16384)
  slice bs (off % 16384) n

/-- Entry e of an area of fixed-size entries that do not straddle tiles (R92). -/
def entryBytes (tiles : List (Nat × Bytes)) (tile size e : Nat) : Bytes :=
  let per := 16384 / max 1 size
  areaBytes tiles (tile + e / max 1 per) (e % max 1 per * size) size

/-- A codebook's bytes (R94). -/
def codebookBytes (tiles : List (Nat × Bytes)) (tile n : Nat) : Bytes := areaBytes tiles tile 0 n

/-- Bytes of the 4-bit and the 8-bit codebook. -/
def Root.cb4Bytes (r : Root) : Nat := 32 * r.dim
def Root.cb8Bytes (r : Root) : Nat := if r.code8 then 512 * r.dim else 0

/-- The tile numbers a run of bytes takes. -/
def tilesFor (n : Nat) : Nat := (n + 16383) / 16384

/-- A directory entry (R95): partition, count, first ordinal, code tile, code offset in bytes, CODE8. -/
structure DirEntry where
  part : Nat
  count : Nat
  first : Nat
  tile : Nat
  offset : Nat
  code8 : Bool
deriving DecidableEq, Repr

/-- Directory entry n. -/
def dirEntry (tiles : List (Nat × Bytes)) (r : Root) (n : Nat) : DirEntry :=
  let e := entryBytes tiles r.dir 32 n
  ⟨le e 0 4, le e 4 4, le e 8 5, le e 0x10 4, 256 * nbits (le e 0x14 1) 0 6, decide (nbits (le e 0x14 1) 6 1 = 1)⟩

/-- Every directory entry. -/
def directory (tiles : List (Nat × Bytes)) (r : Root) : List DirEntry := (List.range r.partitions).map (dirEntry tiles r)

/-- The digits of a code (R93). -/
def codeDigits (code8 : Bool) (bs : Bytes) : List Nat :=
  if code8 then bs.map (·.toNat) else bs.flatMap (fun x => [x.toNat % 16, x.toNat / 16])

/-- A partition read from its tiles (R91 to R96). -/
def readPart (tiles : List (Nat × Bytes)) (r : Root) (e : DirEntry) : Part :=
  let c := codeSize r.m e.code8
  { number := e.part, code8 := e.code8, first := e.first, tile := e.tile, offset := e.offset
    slots := (List.range e.count).map (fun s =>
      { vid := le (entryBytes tiles r.idTile 8 (e.first + s)) 0 8
        code := codeDigits e.code8 (areaBytes tiles e.tile (e.offset + s * c) c)
        vec := entryBytes tiles r.vecTile (r.dim * elemSize r.fmt) (e.first + s)
        attr := if r.attrBytes = 0 then [] else entryBytes tiles r.attrTile r.attrBytes (e.first + s) }) }

/-- NODE_BYTES (R98). -/
def Root.nodeBytes (r : Root) : Nat := roundUp (16 + 4 * r.degree + r.dim * elemSize r.fmt) 64

/-- Graph node record n (R98): the node, and whether the record keeps R98 and R99. Its PARTITION is not compared with the
directory entry of the same position (DESIGN CHOICE, log 117). -/
def readNode (tiles : List (Nat × Bytes)) (r : Root) (n : Nat) : Node × Bool :=
  let e := entryBytes tiles r.graph r.nodeBytes n
  let used := le e 4 1
  let nbrs := (List.range (min used r.degree)).map (fun i => le e (0x10 + 4 * i) 4)
  let rest := (span (min used r.degree) (r.degree - used)).map (fun i => le e (0x10 + 4 * i) 4)
  ({ part := le e 0 4, repId := le e 8 8, nbrs := nbrs, rep := slice e (0x10 + 4 * r.degree) (r.dim * elemSize r.fmt) },
   decide (used ≤ r.degree) && nbrs.all (fun x => decide (x < r.partitions ∧ x ≠ n)) && rest.all (fun x => decide (x = 0xFFFFFFFF)))

/-- Slots of a partition hold strictly ascending vector IDs, none of them the fill ID (R91). -/
def slotsOk (p : Part) : Bool :=
  ascending (fun x y => decide (x < y)) (p.slots.map (·.vid)) && p.slots.all (fun s => decide (s.vid ≠ noId)) &&
  decide (p.number ≠ noPart)

/-- The deletion map of a version built from the deletes recorded at this place above its FLOOR (R104): lowest cairn per
ordinal. -/
def buildDels (v : Version) (deletes : List (Nat × Nat)) : List (Nat × Nat) :=
  let hits (g vid : Nat) : Option (Nat × Nat) :=
    let cs := deletes.filterMap (fun t => if t.1 = vid ∧ v.root.floor < t.2 then some t.2 else none)
    (leastBy (fun x y => decide (x < y)) cs).map (fun c => (g, c))
  sortBy (fun x y => decide (x.1 < y.1)) (v.parts.flatMap (fun p =>
    (List.range p.slots.length).filterMap (fun s => (p.slots[s]?).bind (fun x => hits (p.first + s) x.vid))))

/-! ## Sources (R114, R400) -/

/-- Extent record n of a manifest (R114); its reserved bits are ignored (R8). -/
def manifestExtent (m : Bytes) (base n : Nat) : Extent :=
  let e := slice m (base + 32 * n) 32
  ⟨le e 0 4, le e 4 4, nbits (le e 8 1) 0 2, le e 0x10 8⟩

/-- The extents cover tiles 0 to n − 1 exactly once; a record of TILE_COUNT 0 covers nothing and makes the manifest refused
(DESIGN CHOICE, log 118). -/
def covers (l : List Extent) (n : Nat) : Bool :=
  (sortBy (fun x y => decide (x.first < y.first)) l).foldl (fun (r : Option Nat) e =>
    match r with
    | some k => if e.first = k ∧ 0 < e.count then some (k + e.count) else none
    | none => none) (some 0) = some n

/-- A tile of an extent list read from its source: host memory, the pool, or a sealed zone. -/
def Block.sourceTile (b : Block) (l : List Extent) (n : Nat) : Option Bytes :=
  match l.find? (fun e => decide (e.first ≤ n ∧ n < e.first + e.count)) with
  | none => none
  | some e =>
    let i := n - e.first
    match e.source with
    | 0 => some (b.hostRead (e.addr + i * tileBytes) tileBytes)
    | 1 => b.poolRead none (e.addr + i * tileBytes) tileBytes
    | _ => b.sealedTile e.addr e.first i

/-- Some extent with SOURCE 2 names a zone that is not SEALED, or runs past its last tile (R400). -/
def Block.badZone (b : Block) (l : List Extent) : Bool :=
  l.any (fun e => decide (e.source = 2) && !(List.range e.count).all (fun i => (b.sealedTile e.addr e.first i).isSome))

/-- A SOURCE 0 extent reaches outside DMA_BASE and DMA_LIMIT. -/
def Block.badDma (b : Block) (l : List Extent) : Bool :=
  l.any (fun e => decide (e.source = 0) &&
    decide (e.addr < b.get pHlk 0x110 ∨ b.get pHlk 0x118 < e.addr + e.count * tileBytes))

/-! ## Placing in DRAM (R158, R170, chapter 06) -/

/-- The lowest pair of consecutive rows, both even-aligned, that a bank of a stack has free. -/
def Block.freeRows (b : Block) (n die bank : Nat) : Nat → Nat → Nat
  | 0, r => r
  | fuel + 1, r =>
    let busy (x : Nat) : Bool := decide ((die, bank, x) ∈ b.indexRows n) ||
      (b.stack n).rows.any (fun y => decide (y.die = die ∧ y.bank = bank ∧ y.row = x))
    if busy r || busy (r + 1) then b.freeRows n die bank fuel (r + 2) else r

/-- The stack that takes a copy meant for a stack: itself, or S8 in its place; none where it holds no new copy (R370,
R513). -/
def Block.copyStack (b : Block) (n : Nat) : Option Nat :=
  let m := if n ∈ b.roles.failed then (if b.roles.standFor = some n ∧ b.roles.spare = 0 then some 8 else none) else some n
  m.filter (fun n => decide (b.bandOf (pMem n) = 0))

/-- One code tile laid into two consecutive rows of the bank the placement engine chose, which become index rows; the chosen
number gives stack, unit and bank. It takes three controller writes, of its header and of each row (DESIGN CHOICE, log 131),
and takes the place of an earlier copy of the tile. -/
def Block.placeTile (b : Block) (ix ver tile n choice : Nat) (payload : Bytes) : Block :=
  let unit := choice / 8 % 1024
  let bank := 2 * (unit % 128) + choice / 8192 % 2
  let die := dieOfUnit unit
  let k := b.stack n
  let r := b.freeRows n die bank ((b.indexRows n).length + k.rows.length + 1) 0
  let k := (k.setRow die bank r (Memory.write [] 0 (slice payload 0 8192))).setRow die bank (r + 1)
    (Memory.write [] 0 (slice payload 8192 8192))
  let t : DramTile := { index := ix, version := ver, tile := tile, stack := n, unit := unit, bank := bank, row := r }
  let rest : List DramTile := b.dramTiles.filter (fun t => !decide (t.index = ix ∧ t.version = ver ∧ t.tile = tile))
  ((({ b with dramTiles := snoc rest t } : Block).setStack n k).bump (pMem n) 1 3).bump (pMem n) 7 16448

/-- The segments of a partition, given where each of its code tiles lies: (tile, stack, unit, bank, row) (R157, R161). -/
def segmentsOf (size : Nat) (p : Part) (places : List (Nat × Nat × Nat × Nat × Nat)) : List Segment :=
  let n := p.slots.length
  let firstTile := p.offset / 16384
  let lastTile := (p.offset + n * size - 1) / 16384
  (span firstTile (lastTile + 1 - firstTile)).foldl (fun (l : List Segment) i =>
    match places.find? (fun x => decide (x.1 = p.tile + i)) with
    | none => l
    | some (_, st, unit, bank, row) =>
      let from' := max (p.offset) (i * 16384)
      let upto := min (p.offset + n * size) ((i + 1) * 16384)
      let byte := from' - i * 16384
      let g : Segment := { stack := st, unit := unit, bank := bank, row := row + byte / 8192, byte := byte % 8192,
                           size := size, slot := (from' - p.offset) / size, count := (upto - from') / size }
      match l.reverse with
      | last :: before =>
        if last.stack = st ∧ last.unit = unit ∧ last.bank = bank ∧
            last.row * 8192 + last.byte + last.count * size = row * 8192 + byte then
          (({ last with count := last.count + g.count } : Segment) :: before).reverse
        else snoc l g
      | [] => [g]) []

/-- IDX.HOT_VECS: vectors whose codes are in DRAM. -/
def Block.hotVecs (b : Block) : Nat :=
  b.dramParts.foldl (fun n d => if b.dramCopy d then d.segments.foldl (fun n g => n + g.count) n else n) 0

/-- The code tiles of a 4-bit partition of a version. -/
def Version.codeTiles (v : Version) (p : Part) : List Nat :=
  let size := codeSize v.root.m false
  span (p.tile + p.offset / 16384) ((p.offset + p.slots.length * size - 1) / 16384 + 1 - p.offset / 16384)

/-- A unit of a working stack that is not fenced (R176). -/
def Block.unitGood (b : Block) (n unit : Nat) : Bool :=
  !decide (n ∈ b.deadStacks) && !decide (unit ∈ (b.stack n).fenced)

/-- The good copies in DRAM of a version's code tiles. -/
def Block.goodTiles (b : Block) (v : Version) : List DramTile :=
  b.dramTiles.filter (fun t => decide (t.index = v.root.index ∧ t.version = v.root.version) && b.unitGood t.stack t.unit)

/-- A code tile put into DRAM where the placement engine chooses, unless a good copy is there already, or the tier has no room
for it (R22, R362); one that comes from flash is read in class 2 (R185). -/
def Block.stageTile (b : Block) (v : Version) (flash : Bool) (choose : Nat → Option Nat) (t : Nat) : Block :=
  if (b.goodTiles v).any (fun d => decide (d.tile = t)) then b
  else match (choose t).bind (fun c => (b.copyStack (c % 8)).map (fun n => (n, c))) with
  | none => b
  | some (n, c) =>
    if b.dramShort 16384 ∨ !b.unitGood n (c / 8 % 1024) then b
    else
      let b := b.evict 16384
      let b := (b.placeTile v.root.index v.root.version t n c (((tileOf v.tiles t).getD []).drop 64)).bump pPlc 7
      if flash then b.readHome (b.tileSite v t) (some (v.root.index, v.root.version, t)) else b

/-- The indexes in the order in which their tiles are staged: those of higher PRIO first, and none of PRIO 0, whose tiles stay on
flash (R352). -/
def Block.byPrio (b : Block) : List (Nat × Index) :=
  sortBy (fun (x y : Nat × Index) => decide (b.indexPrio y.1 < b.indexPrio x.1)) (b.indexes.filter (fun e => decide (0 < b.indexPrio e.1)))

/-- The code tiles of a version's partitions that DRAM does not hold staged where the placement engine chooses; the 4-bit
partitions that then lie wholly there are held, at most 8 × 10⁹ vectors in all (R119, R143, R170). -/
def Block.stageParts (b : Block) (v : Version) (flash : Bool) (choose : Nat → Option Nat) : Block :=
  let mine (d : DramPart) : Bool := decide (d.index = v.root.index ∧ d.version = v.root.version)
  let good (d : DramPart) : Bool := !d.withdrawn && d.segments.all (fun g => b.unitGood g.stack g.unit)
  let parts := v.parts.filter (fun p => !p.code8 && !b.dramParts.any (fun d => mine d && decide (d.part = p.number) && good d))
  let b := (nub (parts.flatMap v.codeTiles)).foldl (fun b t => b.stageTile v flash choose t) b
  let places := (b.goodTiles v).map (fun t => (t.tile, t.stack, t.unit, t.bank, t.row))
  let held := parts.filter (fun p => (v.codeTiles p).all (fun t => places.any (fun x => decide (x.1 = t))))
  let held := (held.foldl (fun (r : Nat × List Part) p =>
    let n := r.1 + p.slots.length
    if 8000000000 < n then r else (n, snoc r.2 p)) (b.hotVecs, [])).2
  let l : List DramPart := held.map (fun p =>
    { index := v.root.index, version := v.root.version, part := p.number,
      segments := segmentsOf (codeSize v.root.m false) p places })
  let rest : List DramPart := b.dramParts.filter (fun d => !(mine d && held.any (fun p => decide (p.number = d.part))))
  { b with dramParts := rest ++ l }

/-- The tiles of a version other than code tiles that the tier manager caches brought into DRAM, as far as it has room (R351,
R362). -/
def Block.stageCopies (b : Block) (v : Version) (flash : Bool) : Block :=
  let code := (v.parts.filter (fun p => !p.code8)).flatMap v.codeTiles
  let hot := (List.range v.root.tiles).filter (fun t => !decide (t ∈ code) && Config.tileCached v.root.index v.root.version t)
  hot.foldl (fun b t =>
    let k := CacheKey.index v.root.index v.root.version t
    if b.cached k ∨ b.dramShort 16384 then b else if flash then b.fetchTile k (b.tileSite v t) else b.stageCopy k) b

/-- A version staged as it is mounted, unless its index has PRIO 0 (R352). -/
def Block.stageVersion (b : Block) (v : Version) : Block :=
  if b.indexPrio v.root.index = 0 then b
  else (b.stageParts v false (Config.codePlace v.root.index v.root.version)).stageCopies v false

/-- What DRAM lacks of the mounted versions staged again from flash: withdrawn tiles, those of fenced units and of failed
stacks (R175, R176, R200). -/
def Block.stageAgain (b : Block) : Block :=
  b.byPrio.foldl (fun b e => e.2.versions.foldl (fun b v =>
    if v.state = .mounting ∨ v.state = .retiring then b
    else ({ b with free := b.free + 1 } : Block).stageParts v true (fun t => Config.restagePlace v.root.index v.root.version t b.free)) b) b

/-- Code tiles that no partition of a version held here has any more leave DRAM (R170). -/
def Block.trimTiles (b : Block) (ix : Nat) : Block :=
  let used (t : DramTile) : Bool := match (b.index ix).version t.version with
    | some v => v.parts.any (fun p => !p.code8 && decide (t.tile ∈ v.codeTiles p))
    | none => false
  { b with dramTiles := b.dramTiles.filter (fun t => decide (t.index ≠ ix) || used t) }

/-! ## Limits (R119) -/

/-- IDX.PARTS_USED: partitions of all mounted versions on this module. -/
def Block.partsUsed (b : Block) : Nat :=
  b.indexes.foldl (fun n e => e.2.versions.foldl (fun n v => n + v.parts.length) n) 0

/-- IDX.VECS_USED. -/
def Block.vecsUsed (b : Block) : Nat :=
  b.indexes.foldl (fun n e => e.2.versions.foldl (fun n v => v.parts.foldl (fun n p => n + p.slots.length) n) n) 0

/-- The partitions of a directory of an index that lie at a place, or are being moved there (R353), and their vectors. -/
def Block.heldAt (b : Block) (ix p : Nat) (d : List DirEntry) : Nat × Nat :=
  let comes (s : Nat) : Bool := b.plc.moves.any (fun m => decide (m.item = .shard ix s ∧ m.dest = p))
  let mine := d.filter (fun e => decide (b.placeOfShard ix (shardOf e.part) = p) || comes (shardOf e.part))
  (mine.length, mine.foldl (fun n e => n + e.count) 0)

/-- Partitions and vectors of every version at a place, those still MOUNTING among them (R119): each version's directory is
rope-wide, and the owner map says where its shards lie. -/
def Block.usedAt (b : Block) (p : Nat) : Nat × Nat :=
  b.indexes.foldl (fun n e => e.2.versions.foldl (fun n v =>
    let k := b.heldAt e.1 p (directory v.tiles v.root)
    (n.1 + k.1, n.2 + k.2)) n) (0, 0)

/-- With a further version of a directory some module would exceed the limits of R119. -/
def Block.overLimits (b : Block) (ix : Nat) (d : List DirEntry) : Bool :=
  b.places.any (fun p =>
    let k := b.heldAt ix p d
    let u := b.usedAt p
    decide (16777216 < u.1 + k.1 ∨ 64000000000 < u.2 + k.2))

/-! ## Mounting (R113 to R115) -/

/-- A V_STATE change noted (INT_STATUS.VERSION_CHANGE). -/
def Block.versionChange (b : Block) : Block := b.raiseInt pIdx 16

/-- A version of an index freed at this place: tiles, DRAM copies, home copies (R113). -/
def Block.freeVersion (b : Block) (ix ver : Nat) : Block :=
  let x := b.index ix
  let b := b.setIndex ix { x with versions := x.versions.filter (fun v => decide (v.root.version ≠ ver)) }
  let b := ({ b with dramParts := b.dramParts.filter (fun d => !decide (d.index = ix ∧ d.version = ver)) } : Block).trimTiles ix
  let b := b.uncache (fun k => match k with | .index i v _ => decide (i = ix ∧ v = ver) | _ => false)
  ((b.freeHome .index ix ver).bump pIdx 4).versionChange

/-- A CHECK mismatch, or a tile that cannot be read, while a version is mounted: TILE_CHECK, and the uncorrectable error as
which it counts (R88, R113). -/
def Block.tileBad (b : Block) (opcode : Nat) : Block := (b.raiseErr pIdx 16 opcode).raiseErr pIdx 2 opcode

/-- The opcode of the command that brings a version in. -/
def Version.opcode (v : Version) : Nat := if v.built then 0x23 else 0x25

/-- A version's codebooks differ from those that the index has from its first mounted version (R90); an 8-bit codebook is held
to that of the first mounted version that has one (DESIGN CHOICE, log 119). -/
def Index.codebooksDiffer (x : Index) (tiles : List (Nat × Bytes)) (r : Root) : Bool :=
  decide (x.codebook4 ≠ []) && (decide (codebookBytes tiles r.cb4 r.cb4Bytes ≠ x.codebook4) ||
    (r.code8 && decide (x.codebook8 ≠ []) && decide (codebookBytes tiles r.cb8 r.cb8Bytes ≠ x.codebook8)))

/-- The codebooks of a version taken as the index's where it has none (R90). -/
def Index.takeCodebooks (x : Index) (tiles : List (Nat × Bytes)) (r : Root) : Index :=
  { x with codebook4 := if x.codebook4 = [] then codebookBytes tiles r.cb4 r.cb4Bytes else x.codebook4
           codebook8 := if x.codebook8 = [] then codebookBytes tiles r.cb8 r.cb8Bytes else x.codebook8 }

/-- The checks of R114 in the order of its table, over a manifest; `none` when every check passes. SOURCE 3, which the rule
does not define, is refused (DESIGN CHOICE, log 118). A codebook or directory that runs past TILES cannot be read (DESIGN CHOICE,
log 151). The limit of four versions is tested for this place here, and by every other place when the mount reaches it
(`indexMount`; DEDUCED, log 152). -/
def mountCheck (b : Block) (c : Cmd) (m : Bytes) : Option Nat :=
  let n := (c.pay.len - 4096) / 32
  let r := parseRoot m
  let l := (List.range n).map (fun i => manifestExtent m 4096 i)
  let x := b.index c.object
  let tile (t : Nat) : Option Bytes := b.sourceTile l t
  let nums (t n : Nat) : List Nat := span t (tilesFor n)
  let cbs := nums r.cb4 r.cb4Bytes ++ (if r.code8 then nums r.cb8 r.cb8Bytes else [])
  let read (ts : List Nat) : Option (List (Nat × Bytes)) :=
    ts.foldl (fun a t => match a, tile t with | some a, some x => if tileOk x then some ((t, x) :: a) else none | _, _ => none) (some [])
  if c.resValid ∨ !c.payValid ∨ c.pay.len < 4128 ∨ (c.pay.len - 4096) % 32 ≠ 0 ∨ !rootOk m ∨
      l.any (fun e => decide (e.source = 3)) ∨ !covers l r.tiles ∨ b.badDma l ∨ b.badZone l ∨ c.param 32 96 ≠ 0 then some stBadCommand
  else if r.index ≠ c.object ∨ r.version ≠ c.param 0 32 then some stBadCommand
  else if rootRefused r then some stBadCommand
  else if x.codebook4 ≠ [] ∧ (read cbs).isNone then some stTierFault
  else if x.codebooksDiffer ((read cbs).getD []) r then some stBadCommand
  else if 15 < c.object ∨ rootOutOfRange m r then some stOutOfRange
  else if r.version ≤ x.high then some stStale
  else if 4 ≤ x.versions.length then some stOutOfRange
  else match read (nums r.dir (32 * r.partitions) ++ cbs) with
  | none => some stTierFault
  | some ts =>
    let d := directory ts r
    if d.any (fun e => (e.code8 && !r.code8) || decide (r.vectors < e.first + e.count) ||
        decide (r.tiles ≤ e.tile + (e.offset + e.count * codeSize r.m e.code8 - 1) / 16384)) then some stBadCommand
    else if d.any (fun e => decide (e.count = 0 ∨ 1048576 < e.count)) ∨ b.overLimits c.object d then some stOutOfRange
    else if 64 < (nub (d.map (fun e => shardOf e.part))).length then some stOutOfRange
    else none

/-- A version enters MOUNTING at this place from a checked manifest: its tiles are read from their sources, a home copy
of those from SOURCE 0 or 1 is queued, and the index takes its keeper and the places of its owners with its first version
(R105, R113, R228, R398). -/
def Block.beginMount (b : Block) (m : Bytes) (len : Nat) (source : List Extent → Nat → Option Bytes) (cmd : Option Nat)
    (fromPlace tag : Nat) (waiting : List Nat) : Block :=
  let r := parseRoot m
  let l := (List.range ((len - 4096) / 32)).map (fun i => manifestExtent m 4096 i)
  let tiles := (List.range r.tiles).filterMap (fun t => (source l t).map (fun x => (t, x)))
  let new := tiles.filter (fun t => l.any (fun e => decide (e.first ≤ t.1 ∧ t.1 < e.first + e.count ∧ e.source ≠ 2)))
  let x := b.index r.index
  let shards := nub ((directory tiles r).map (fun e => shardOf e.part))
  let v : Version := { root := r, state := .mounting, extents := l, tiles := tiles, shards := shards, cmd := cmd,
                       fromPlace := fromPlace, tag := tag, waiting := waiting, busy := true }
  let first := decide (x.high = 0)
  let keepAt := if first then b.pickPlace (Config.keeperOf r.index) else x.keeper
  let l : List Version := snoc x.versions v
  let x : Index := { x with versions := l, high := max x.high r.version, keeper := keepAt,
                             owners := if first then b.places else x.owners }
  ((b.setIndex r.index x).homeTiles .index r.index r.version new).versionChange

/-- A version is still being brought in: MOUNTING, or MOUNTED here while its mount has not ended (R113). -/
def Version.coming (v : Version) : Bool := decide (v.state = .mounting) || (v.busy && decide (v.state = .mounted))

/-- A version's mount or consolidation has ended, as this place knows. -/
def Block.settleVersion (b : Block) (ix ver : Nat) : Block :=
  b.setIndex ix ((b.index ix).setVersion ver (fun v => { v with busy := false }))

/-- A version that another place's mount or consolidation was bringing in freed, unless a switch or a retirement has reached it
already, which shows that it was MOUNTED at every place (R113). -/
def Block.dropVersion (b : Block) (ix : Nat) (v : Version) : Block :=
  if v.coming then b.freeVersion ix v.root.version else b.settleVersion ix v.root.version

/-- A mount or consolidation ended with a failure: the version freed here and everywhere, its command ended; one that a switch or
a retirement has reached was MOUNTED at every place, and its command ends OK (R113, R115). -/
def Block.failMount (b : Block) (ix : Nat) (v : Version) (st : Nat) : Block :=
  if !v.coming then
    let b := b.settleVersion ix v.root.version
    match v.cmd with
    | some id => b.finish id stOk { cairn := if v.built then v.root.floor else 0, lateOk := false }
    | none => b
  else
  let b := b.freeVersion ix v.root.version
  let b := if st = stStale ∧ v.cmd.isSome then b.bump pIdx 5 else b
  match v.cmd with
  | some id =>
    let b := b.others.foldl (fun b p =>
      b.send { toward := .place p, cls := 4, kind := .mountEnd, args := [ix, v.root.version, st] }) b
    b.finish id st
  | none => b.send { toward := .place v.fromPlace, cls := 4, kind := .mountReady, args := [v.tag, st] }

/-- A mount or consolidation whose version is MOUNTED here and at every place it waits for ends OK, and every other place is
told; one whose deadline has passed ends LATE, and its version is freed everywhere (R115, R240, R241). -/
def Block.maybeMounted (b : Block) (ix ver : Nat) : Block :=
  match (b.index ix).version ver with
  | some v =>
    if v.busy ∧ v.state ≠ .mounting ∧ v.waiting = [] then
      match v.cmd with
      | some id =>
        if b.passed ((b.cmd id).bind (·.deadline)) then b.failMount ix v stLate
        else
          let b := b.settleVersion ix ver
          let b := b.others.foldl (fun b p =>
            b.send { toward := .place p, cls := 4, kind := .mountEnd, args := [ix, ver, stOk] }) b
          b.finish id stOk { cairn := if v.built then v.root.floor else 0 }
      | none => b
    else b
  | none => b

/-- A version number used up by a mount or consolidation that fails as its version enters MOUNTING: the version has been MOUNTING for
a moment (R115, R241). -/
def Block.spendVersion (b : Block) (ix ver : Nat) : Block :=
  let x := b.index ix
  ((b.setIndex ix { x with high := max x.high ver }).bump pIdx 4).versionChange

/-- The word of the place that leads a mount or consolidation that it has ended, with its status in PARAMS [7:0]: a version
that did not end OK is freed here too, and its number stays used up (R113, R115, R241). -/
def Block.mountEnded (b : Block) (o : PeerOrder) : Block :=
  let x := b.index o.object
  match x.version o.version with
  | some v =>
    if !v.busy ∨ v.cmd.isSome then b
    else if nbits o.params 0 8 = stOk then b.settleVersion o.object o.version
    else b.dropVersion o.object v
  | none => b.setIndex o.object { x with high := max x.high o.version }

/-- What a mount sends the other places: the manifest's length, the manifest, and every tile in order. -/
def mountData (m : Bytes) (tiles : Nat) (tile : Nat → Option Bytes) : Bytes :=
  toLe m.length 4 ++ m ++ (List.range tiles).flatMap (fun t => (tile t).getD (List.replicate tileBytes 0))

/-- INDEX_MOUNT at the lead: checked and begun; later events bring the other places' outcomes. -/
def indexMountOwn (id : Nat) (replies : List PeerReply) (b : Block) : Block :=
  match b.cmd id with
  | none => b
  | some c =>
    if c.phase = .handed then
      b.admitCmd id 0x25 [0] (fun c b =>
        let m := b.readInput c 0 c.pay.len
        let refused := mountCheck b c m
        let b := if c.payValid then b.countInput c c.pay.len else b
        match refused with
        | some st =>
          let b := if st = stBadCommand then b.raiseErr pIdx 17 c.opcode else if st = stStale then b.bump pIdx 5
            else if st = stTierFault then b.tileBad c.opcode else b
          b.finish id st
        | none =>
          let others := b.others
          if b.noWrites then
            (others.foldl (fun b p =>
              b.send { toward := .place p, cls := 4, kind := .mountEnd, args := [c.object, c.param 0 32, stTierFault] })
              (b.spendVersion c.object (c.param 0 32))).finish id stTierFault
          else
            let b := b.beginMount m c.pay.len b.sourceTile (some id) b.place id others
            let data := mountData m ((parseRoot m).tiles) (b.sourceTile ((List.range ((c.pay.len - 4096) / 32)).map (fun i => manifestExtent m 4096 i)))
            others.foldl (fun b p => 
              b.send { toward := .place p, cls := 6, kind := .mountStart, args := [id, c.object, c.param 0 32], data := data }) b)
    else if c.phase = .working ∧ c.opcode = 0x25 then
      match (b.index c.object).versions.find? (fun v => decide (v.cmd = some id)) with
      | none => b
      | some v =>
        if b.passed c.deadline then b.failMount c.object v stLate
        else match replies.find? (fun r => decide (r.place ∈ v.waiting) && decide (r.status.toNat ≠ stOk)) with
        | some r => b.failMount c.object v r.status.toNat
        | none =>
          let x := (b.index c.object).setVersion v.root.version (fun v =>
            { v with waiting := v.waiting.filter (fun p => !replies.any (fun r => decide (r.place = p))) })
          (b.setIndex c.object x).maybeMounted c.object v.root.version
    else b

/-- INDEX_MOUNT (R114, R115). An order brings another place's mount to this one, with the manifest and the tiles; the
lead has checked the manifest. A place that cannot take its part answers DISABLED while IDX is not RUNNING, STALE for a
version that is not above its HIGH_VERSION, OUT_OF_RANGE while four versions of the index are not ABSENT there (R112, R119), and
BAD_COMMAND for a manifest that does not check (DESIGN CHOICE, log 120). With
bit 127 of its PARAMS set, an order is the lead's word that a mount or consolidation has ended. -/
def indexMount (part : CmdPart) (b : Block) : Block :=
  match part with
  | .own id replies => indexMountOwn id replies b
  | .order o =>
    let n := le o.data 0 4
    let m := slice o.data 4 n
    let fail (st : Nat) : Block := b.send { toward := .place o.fromPlace, cls := 4, kind := .mountReady, args := [o.tag, st] }
    if nbits o.params 127 1 = 1 then b.mountEnded o
    else if !b.running pIdx then fail stDisabled
    else if o.version ≤ (b.index o.object).high then fail stStale
    else if 4 ≤ (b.index o.object).versions.length then fail stOutOfRange
    else if !rootOk m then fail stBadCommand
    else
      let tile (_ : List Extent) (t : Nat) : Option Bytes :=
        if 4 + n + (t + 1) * tileBytes ≤ o.data.length then some (slice o.data (4 + n + t * tileBytes) tileBytes) else none
      b.beginMount m n tile none o.fromPlace o.tag []

/-- INDEX_MOUNT. -/
def ownIndexMount (part : CmdPart) (s : State) : Result := .next (s.on (indexMount part))

/-- MOUNT_TILES_PLACED (R113): the tiles of a MOUNTING version are verified; the version is MOUNTED once its home copies
are sealed, or its mount ends TIER_FAULT or BAD_COMMAND. A directory that is not in ascending partition order ends it
BAD_COMMAND (DESIGN CHOICE, log 121), and so do codebooks that are not those of a version mounted meanwhile (R90). -/
def mountTilesPlaced (i ver : Nat) (b : Block) : Block :=
  match (b.index i).version ver with
  | none => b
  | some v =>
    if v.state ≠ .mounting ∨ !b.homeSealed .index i ver then b
    else
      let r := v.root
      let (inj, b) := b.takeInjected pIdx 16
      let allOk := decide (v.tiles.length = r.tiles) && v.tiles.all (fun t => tileOk t.2)
      if !allOk ∨ inj then (b.tileBad v.opcode).failMount i v stTierFault
      else
        let dir := directory v.tiles r
        let nodes := (List.range r.partitions).map (readNode v.tiles r)
        let parts :=
          (dir.filter (fun e => decide (b.placeOfShard i (shardOf e.part) = b.place))).map (readPart v.tiles r)
        if (!parts.all slotsOk ∨ !nodes.all (·.2) ∨ !ascending (fun x y => decide (x < y)) (dir.map (·.part)) ∨
            (b.index i).codebooksDiffer v.tiles r) then
          (b.raiseErr pIdx 17 v.opcode).failMount i v stBadCommand
        else
          let done (v : Version) : Version :=
            let v : Version := { v with state := .mounted, parts := parts, nodes := nodes.map (·.1) }
            { v with dels := buildDels v (b.index i).deletes }
          let b := Block.landNew b (b.setIndex i (((b.index i).takeCodebooks v.tiles r).setVersion ver done))
          let b := (b.bump pIdx 2).versionChange
          let b := b.stageVersion (done v)
          let b := if v.cmd.isNone then b.send { toward := .place v.fromPlace, cls := 4, kind := .mountReady, args := [v.tag, stOk] } else b
          b.maybeMounted i ver

/-- MOUNT_TILES_PLACED. -/
def execMountTilesPlaced (index : Fin 16) (version : BitVec 32) (s : State) : Result :=
  .next (s.on (mountTilesPlaced index.val version.toNat))

/-! ## Switching and retiring (R116 to R118) -/

/-- A switch applied at this place: the base pointer swapped (R113). -/
def Block.applySwitch (b : Block) (ix ver : Nat) : Block :=
  let x := b.index ix
  let f (v : Version) : Version :=
    if v.root.version = ver then { v with state := .current }
    else if v.state = .current then { v with state := .mounted } else v
  let back := x.versions.any (fun v => decide (v.state = .current ∧ v.root.version ≠ ver))
  let b := if back then b.bump pIdx 2 else b
  ((b.setIndex ix { x with versions := x.versions.map f }).bump pIdx 3).versionChange

/-- A retirement applied at this place: the version RETIRING, and freed at once when nothing is bound to it; a
consolidation of it that is under way ends STALE (R240). A version that is RETIRING already does not change. -/
def Block.applyRetire (b : Block) (ix ver : Nat) : Block :=
  let b := ((b.index ix).versions.filter (fun (v : Version) => v.built && v.busy && decide (v.base = ver ∧
    (v.state = .mounting ∨ v.cmd.isSome = true)))).foldl (fun b v => b.failMount ix v stStale) b
  if ((b.index ix).version ver).map (·.state) = some .retiring then b.reapVersions
  else ((b.setIndex ix ((b.index ix).setVersion ver (fun v => { v with state := .retiring }))).versionChange).reapVersions

/-- The outcome of a switch or retirement told to the one who asked. -/
def Block.answerSwitch (b : Block) (r : SwitchRun) (st cairn : Nat) : Block :=
  let b := if st = stStale then b.bump pIdx 5 else b
  match r.cmd with
  | some id => b.finish id st { cairn := if r.retire then 0 else cairn, lateOk := false }
  | none => b.send { toward := .place r.fromPlace, cls := 4, kind := .switchApplied, args := [r.tag, st, cairn] }

/-- What the keeper finds when it begins a switch or retirement: STALE, or it goes on. -/
def Index.switchStale (x : Index) (r : SwitchRun) : Bool :=
  let st := (x.version r.version).map (·.state)
  if r.retire then decide (st ≠ some .mounted ∧ st ≠ some .retiring)
  else (r.first && x.current.isSome) || (!r.first && decide (x.current.map (fun v => v.root.version) ≠ some r.expect)) ||
    decide (st ≠ some .mounted)

/-- A switch or retirement applied at this place. -/
def Block.applyRun (b : Block) (r : SwitchRun) : Block :=
  if r.retire then b.applyRetire r.index r.version else b.applySwitch r.index r.version

/-- The keeper begins the next switch or retirement of an index that waits, one at a time in the order they came; one
whose deadline has passed ends LATE first (R109, R116). Every other place is asked whether it can apply it before any place
does (R116: STALE where the version is not MOUNTED at every place). While a place has no module that serves it, the run ends
PEER_LOST (R116, R118). -/
def Block.beginSwitch (b : Block) (ix : Nat) : Block :=
  let x := b.index ix
  if b.switching.any (fun r => decide (r.index = ix)) ∨ !b.placeReady b.place then b
  else match x.asks with
  | [] => b
  | r :: rest =>
    let b := b.setIndex ix { x with asks := rest }
    if b.passed r.deadline then b.answerSwitch r stLate 0
    else if x.switchStale r then b.answerSwitch r stStale 0
    else if !b.places.all b.placeReady then b.answerSwitch r stPeerLost 0
    else
      let others := b.others
      let run : SwitchRun := { r with checking := true, waiting := others }
      if others = [] then (b.applyRun r).answerSwitch run stOk x.visible
      else
        let b := { b with switching := snoc b.switching run }
        others.foldl (fun b p => b.send { toward := .place p, cls := 4, kind := .switchCheck,
                                          args := [r.tag, ix, r.version, if r.retire then 1 else 0] }) b

/-- Every place can apply a switch or retirement: it is applied here, and every other place is told to. -/
def Block.applyEverywhere (b : Block) (r : SwitchRun) : Block :=
  let others := b.others
  let x := b.index r.index
  let run : SwitchRun := { r with checking := false, waiting := others, cairn := x.visible }
  let rest : List SwitchRun := b.switching.filter (fun y => !decide (y = r))
  let b := ({ b with switching := rest } : Block).applyRun r
  if others = [] then (b.answerSwitch run stOk run.cairn).beginSwitch r.index
  else
    let b := { b with switching := snoc b.switching run }
    others.foldl (fun b p => b.send { toward := .place p, cls := 4, kind := if r.retire then .retireApply else .switchApply,
                                      args := [r.tag, r.index, r.version] }) b

/-- Replies of places to a switch the keeper has begun. -/
def Block.switchReplies (b : Block) (r : SwitchRun) (replies : List PeerReply) : Block :=
  let drop (b : Block) : Block := { b with switching := b.switching.filter (fun x => !decide (x = r)) }
  match replies.find? (fun y => decide (y.place ∈ r.waiting) && decide (y.status.toNat ≠ stOk)) with
  | some y => ((drop b).answerSwitch r y.status.toNat 0).beginSwitch r.index
  | none =>
    let left := r.waiting.filter (fun p => !replies.any (fun y => decide (y.place = p)))
    if left ≠ [] then
      let l : List SwitchRun := b.switching.map (fun x => if x = r then { x with waiting := left } else x)
      { b with switching := l }
    else if r.checking then b.applyEverywhere r
    else ((drop b).answerSwitch r stOk r.cairn).beginSwitch r.index

/-- The remaining budget that a switch asked of its keeper carries: 0 only where the command has no deadline. -/
def Block.askBudget (b : Block) (c : Cmd) : Nat := if c.deadline = none then 0 else max 1 (b.remaining c)

/-- INDEX_SWITCH and INDEX_RETIRE where they were admitted: checked, and put in the keeper's order. Of INDEX_RETIRE, R118 does not
say that PAY_VALID, RES_VALID and PARAMS [127:32] must be 0: it is refused otherwise, as INDEX_SWITCH is (DESIGN CHOICE, log 149). -/
def switchOwn (op id : Nat) (replies : List PeerReply) (b : Block) : Block :=
  match b.cmd id with
  | none => b
  | some c =>
    let retire := decide (op = 0x26)
    if c.phase = .handed then
      b.admitCmd id op [0] (fun c b =>
        if c.payValid ∨ c.resValid ∨ c.param (if retire then 32 else 65) (if retire then 96 else 63) ≠ 0 then b.finish id stBadCommand
        else if 15 < c.object then b.finish id stOutOfRange
        else
          let r : SwitchRun := { cmd := some id, fromPlace := b.place, tag := id, index := c.object, version := c.param 0 32,
                                 retire := retire, expect := c.param 32 32, first := decide (c.param 64 1 = 1),
                                 deadline := c.deadline }
          let x := b.index c.object
          if x.keeper = b.place ∨ x.high = 0 then
            (b.setIndex c.object { x with asks := snoc x.asks r }).beginSwitch c.object
          else b.send { toward := .place x.keeper, cls := 4, kind := .switchAsk,
                        args := [id, c.object, c.param 0 32, c.param 32 32, c.param 64 1, op, b.askBudget c] })
    else if c.phase = .working ∧ c.opcode = op then
      let x := b.index c.object
      if x.keeper = b.place ∨ x.high = 0 then
        match b.switching.find? (fun r => decide (r.cmd = some id)) with
        | some r => b.switchReplies r replies
        | none => b.beginSwitch c.object
      else match replies.find? (fun r => decide (r.place = x.keeper)) with
        | some r => b.finish id r.status.toNat { cairn := if retire then 0 else r.num, lateOk := false }
        | none => b
    else b

/-- Another place's order for a switch or retirement: at the keeper it joins the order; elsewhere it is applied, or with bit
126 of its PARAMS set only checked. With bit 127 set, it is a place's reply to a run that the keeper has begun: its status, and
a number. A switch asked of the keeper has its remaining budget in bits [95:72]. While IDX is not RUNNING here the answer is
DISABLED (R120). -/
def switchOrder (retire : Bool) (o : PeerOrder) (b : Block) : Block :=
  let x := b.index o.object
  if nbits o.params 127 1 = 1 then
    match b.switching.find? (fun r => decide (r.index = o.object ∧ r.retire = retire)) with
    | some r => b.switchReplies r [⟨o.fromPlace, BitVec.ofNat 8 o.params, o.version, []⟩]
    | none => b
  else if !b.running pIdx then
    b.send { toward := .place o.fromPlace, cls := 4, kind := .switchApplied, args := [o.tag, stDisabled] }
  else if x.keeper = b.place ∧ x.high ≠ 0 then
    let r : SwitchRun := { cmd := none, fromPlace := o.fromPlace, tag := o.tag, index := o.object, version := o.version,
                           retire := retire, expect := nbits o.params 32 32, first := decide (nbits o.params 64 1 = 1),
                           deadline := deadlineOf b.meter (nbits o.params 72 24) }
    (b.setIndex o.object { x with asks := snoc x.asks r }).beginSwitch o.object
  else
    let st : Option VState := (x.version o.version).map (·.state)
    let stale : Bool := if retire then decide (st ≠ some .mounted ∧ st ≠ some .retiring)
      else decide (st ≠ some .mounted)
    let b := if stale ∨ nbits o.params 126 1 = 1 then b
      else if retire then b.applyRetire o.object o.version else b.applySwitch o.object o.version
    b.send { toward := .place o.fromPlace, cls := 4, kind := .switchApplied, args := [o.tag, if stale then stStale else stOk] }

/-- INDEX_SWITCH (R116, R117). -/
def indexSwitch (part : CmdPart) (b : Block) : Block :=
  match part with | .own id replies => switchOwn 0x24 id replies b | .order o => switchOrder false o b

/-- INDEX_SWITCH. -/
def execIndexSwitch (part : CmdPart) (s : State) : Result := .next (s.on (indexSwitch part))

/-- INDEX_RETIRE (R118). -/
def indexRetire (part : CmdPart) (b : Block) : Block :=
  match part with | .own id replies => switchOwn 0x26 id replies b | .order o => switchOrder true o b

/-- INDEX_RETIRE. -/
def execIndexRetire (part : CmdPart) (s : State) : Result := .next (s.on (indexRetire part))

end Sys2Proof.Machine
end

