-- ==== Sys2Proof/Machine/Updates.lean ====
section
/-! DEFINITION. Updates and cairns (chapter 09 and R105 to R111). Its rows: INSERT, DELETE, UPSERT, OWNER_RECORDS,
LOG_PAGE_TIMER, LOG_COPY, CAIRN_REQUEST, CAIRN_RECORD, CONFIRM, VOID_CAIRN, VISIBLE_CAIRN_SEND, VISIBLE_CAIRN_MESSAGE. -/

namespace Sys2Proof.Machine

/-! ## The payload (R224 to R227) -/

/-- The header of an update's payload. -/
structure UpdHeader where
  records : Nat
  dim : Nat
  fmt : Nat
  attr : Nat
  reserved : Bool
deriving DecidableEq, Repr

/-- The header as R224 lays it out. -/
def updHeader (kind : UpdKind) (h : Bytes) : UpdHeader :=
  { records := le h 0 2, dim := le h 2 2, fmt := le h 4 1, attr := le h 5 1
    reserved := decide (le h (if kind = .delete then 2 else 6) (if kind = .delete then 62 else 58) ≠ 0) }

/-- RSTRIDE (R225). -/
def UpdHeader.stride (h : UpdHeader) : Nat := 64 + roundUp h.attr 64 + roundUp (h.dim * elemSize h.fmt) 64

/-- The records of an update. -/
def readRecords (b : Block) (c : Cmd) (kind : UpdKind) (h : UpdHeader) : List UpdRec :=
  (List.range h.records).map (fun i =>
    if kind = .delete then ⟨le (b.readInput c (64 + 8 * i) 8) 0 8, [], []⟩
    else
      let o := 64 + i * h.stride
      ⟨le (b.readInput c o 8) 0 8, b.readInput c (o + 64) h.attr, b.readInput c (o + 64 + roundUp h.attr 64) (h.dim * elemSize h.fmt)⟩)

/-- The place that owns a vector ID of an index: one of the places that the rope had when the index was first mounted, and it
never changes (R228). -/
def Block.ownerOf (b : Block) (ix vid : Nat) : Nat :=
  b.fixedPlace (b.index ix).owners (Config.ownerOf ix vid)

/-- The opcode of an update. -/
def updOpcode : UpdKind → Nat | .insert => 0x20 | .delete => 0x21 | .upsert => 0x22

/-- The checks of R227 that need no other place, in order. -/
def updCheck (b : Block) (c : Cmd) (kind : UpdKind) (h : UpdHeader) (recs : List UpdRec) : Option Nat :=
  let x := b.index c.object
  let v := x.current
  let differs : Bool := match v with
    | some v => kind ≠ .delete && (decide (h.dim ≠ v.root.dim) || decide (h.fmt ≠ v.root.fmt) || decide (h.attr ≠ v.root.attrBytes))
    | none => false
  if !c.payValid ∨ c.resValid ∨ c.param 0 128 ≠ 0 then some stBadCommand
  else if c.pay.len < (if kind = .delete then 64 + 8 * h.records else 64 + h.records * h.stride) then some stBadCommand
  else if h.reserved ∨ differs then some stBadCommand
  else if !ascending (fun x y => decide (x < y)) (recs.map (·.vid)) ∨ recs.any (fun r => decide (r.vid = noId)) then some stBadCommand
  else if 15 < c.object ∨ h.records = 0 ∨ 1024 < h.records then some stOutOfRange
  else if v.isNone then some stStale
  else if x.exhausted then some stOutOfRange
  else none

/-! ## The owner (R229 to R231) -/

/-- Bytes of a side-list entry, with its full vector and attribute row, and of a tombstone (R102, R103). -/
def entryLogBytes (r : Root) : Nat := roundUp (16 + r.m / 2) 16 + r.dim * elemSize r.fmt + r.attrBytes
abbrev tombLogBytes := 16

/-- The bytes of a side-list entry (R102), its code packed as R93 states. -/
def sideEntryBytes (x : SideEntry) : Bytes :=
  let rec pack : List Nat → Bytes
    | a :: c :: l => BitVec.ofNat 8 (a + 16 * c) :: pack l
    | [a] => [BitVec.ofNat 8 a]
    | [] => []
  toLe x.vid 8 ++ toLe (x.cairn.getD 0) 6 ++ toLe 0 2 ++ padTo (pack x.code) (roundUp (16 + (x.code.length + 1) / 2) 16 - 16)

/-- The bytes of a tombstone (R103). -/
def tombBytes (t : Tombstone) : Bytes := toLe t.vid 8 ++ toLe (t.cairn.getD 0) 6 ++ toLe 0 2

/-- The 16 KiB of a log page: the records gathered in it (R230). -/
def Index.pageBytes (x : Index) (page : Nat) : Bytes :=
  padTo ((x.side.filter (fun s => decide (s.page = page))).flatMap (fun s => sideEntryBytes s ++ s.vec ++ s.attr) ++
    (x.tombs.filter (fun t => decide (t.page = page))).flatMap tombBytes) 16384

/-- A log page whose gathering has ended is queued for programming and sent to its two parity places (R230). -/
def Block.closePage (b : Block) (ix page : Nat) : Block :=
  let x := b.index ix
  let bs := x.pageBytes page
  let b := b.queueWrite (.logPage ix page) bs
  (b.parityPlaces (pageKey ix page)).foldl (fun b p =>
    b.send { toward := .place p, cls := 5, kind := .logCopy, args := [ix, page], data := bs }) b

/-- A log page is durable: programmed, and held whole by both parity places (R230). -/
def Block.pageDurable (b : Block) (ix : Nat) (x : Index) (page : Nat) : Bool :=
  match x.logPages.find? (fun p => decide (p.number = page)) with
  | none => true
  | some p =>
    let l := b.parityPlaces (pageKey ix page)
    p.programmed && decide (2 ≤ l.length) && l.all (fun q => decide (q ∈ p.held))

/-- The open log page of an index with room for `n` bytes: the page being gathered, or a new one, the full one being
closed. -/
def Block.openPage (b : Block) (ix n : Nat) : Block × Nat :=
  let x := b.index ix
  let last : Option LogPage := x.logPages.find? (fun p => decide (p.number + 1 = x.nextPage) && decide (0 < p.bytes))
  let fresh (b : Block) : Block × Nat :=
    let x := b.index ix
    let l : List LogPage := snoc x.logPages { number := x.nextPage, since := b.meter, bytes := n }
    (b.setIndex ix { x with logPages := l, nextPage := x.nextPage + 1 }, x.nextPage)
  match last with
  | some p =>
    if p.bytes + n ≤ 16384 then
      let l : List LogPage := mapIf (fun q => decide (q.number = p.number)) (fun q => { q with bytes := q.bytes + n }) x.logPages
      (b.setIndex ix { x with logPages := l }, p.number)
    else fresh (b.closePage ix p.number)
  | none => fresh b

/-- The page being gathered is programmed as soon as it is full (R230). -/
def Block.closeFull (b : Block) (ix : Nat) : Block :=
  let x := b.index ix
  match x.logPages.find? (fun p => decide (p.number + 1 = x.nextPage ∧ p.bytes = 16384)) with
  | some p =>
    let l : List LogPage := mapIf (fun q => decide (q.number = p.number)) (fun q => { q with bytes := 0 }) x.logPages
    (b.setIndex ix { x with logPages := l }).closePage ix p.number
  | none => b

/-- One record appended to the owner's logs, without a cairn (R229 step 2); an inserted vector is laid out as in every version
of the index, whose root is given. -/
def Block.appendRecord (b : Block) (m : OwnerMsg) (root : Option Root) (r : UpdRec) : Block :=
  let ix := m.index.val
  let tag := (m.fromPlace, m.tag)
  let b := if m.kind = .insert then b
    else
      let (b, page) := b.openPage ix tombLogBytes
      let x := b.index ix
      (b.setIndex ix { x with tombs := snoc x.tombs ⟨r.vid, none, page, tag⟩ }).closeFull ix
  match root with
  | none => b
  | some root =>
    if m.kind = .delete then b
    else
      let (b, page) := b.openPage ix (entryLogBytes root)
      let x := b.index ix
      let code := encode root.dim root.m 16 x.codebook4 (vec32 root.fmt root.dim r.vec)
      (b.setIndex ix { x with side := snoc x.side ⟨x.nextEntry, r.vid, none, code, r.vec, r.attr, page, tag⟩,
                              nextEntry := x.nextEntry + 1 }).closeFull ix

/-- SIDE_HIGH when SIDE_COUNT or TOMB_COUNT passes 12,582,912 (R121). -/
def Block.sideHigh (old b : Block) (ix : Nat) : Block :=
  let passes (m n : Nat) : Bool := decide (m ≤ 12582912) && decide (12582912 < n)
  if passes (old.index ix).side.length (b.index ix).side.length || passes (old.index ix).tombs.length (b.index ix).tombs.length
  then b.raiseInt pIdx 17 else b

/-! ## The coordinator's steps (R229, R232 to R235) -/

/-- The update of a command. -/
def Block.updateOf (b : Block) (id : Nat) : Option Update := b.updates.find? (fun u => decide (u.cmd = id))

/-- An update changed. -/
def Block.setUpdate (b : Block) (id : Nat) (f : Update → Update) : Block :=
  { b with updates := mapIf (fun (u : Update) => decide (u.cmd = id)) f b.updates }

/-- The visible cairn of an index at its keeper: every cairn up to it is confirmed or void (R107). -/
def Index.keeperVisible (x : Index) : Nat :=
  match leastBy (fun x y => decide (x < y)) (x.opened.map (·.cairn)) with
  | some c => c - 1
  | none => x.assigned

/-- A place discards its records of void cairns (R233); a deletion map that held one is built anew from the deletes that
remain. -/
def Index.discardVoids (x : Index) (voids : List Nat) : Index :=
  let keep (c : Option Nat) : Bool := match c with | some c => !decide (c ∈ voids) | none => true
  let deletes := x.deletes.filter (fun d => keep (some d.2))
  let del (v : Version) : Version := if v.dels.any (fun d => decide (d.2 ∈ voids)) then { v with dels := buildDels v deletes } else v
  { x with side := x.side.filter (fun s => keep s.cairn), tombs := x.tombs.filter (fun t => keep t.cairn), deletes := deletes,
           versions := x.versions.map del }

/-- A local visible cairn raised (R107). -/
def Index.raiseVc (x : Index) (c : Nat) (voids : List Nat) : Index :=
  { x.discardVoids voids with localVc := max x.localVc c }

/-- The keeper's visible cairn brought up to date; its own local copy follows at once. -/
def Block.advanceVisible (b : Block) (ix : Nat) : Block :=
  let x := b.index ix
  let c := x.keeperVisible
  b.setIndex ix { (x.raiseVc c x.voids) with visible := c }

/-- VOID_CAIRN at the keeper (R108, R233). -/
def voidCairn (ix c : Nat) (b : Block) : Block :=
  let x := b.index ix
  if x.keeper ≠ b.place ∨ !x.opened.any (fun o => decide (o.cairn = c)) then b
  else
    let opened : List OpenCairn := x.opened.filter (fun o => decide (o.cairn ≠ c))
    let b := b.setIndex ix { x with opened := opened, voids := snoc x.voids c, untold := snoc x.untold c,
                                    voided := (x.voided + 1) % 2 ^ 32 }
    ((b.raiseErr pIdx 19).bump pIdx 6).advanceVisible ix

/-- VOID_CAIRN. -/
def execVoidCairn (index : Fin 16) (cairn : BitVec 48) (s : State) : Result :=
  .next (s.on (voidCairn index.val cairn.toNat))

/-- An update that fails while it holds a cairn: the keeper is asked to void it, at once or, where its place has no module that
serves it, as soon as that is ready; the command ends, PEER_LOST where a place could not record it (R109, R232, R233). -/
def Block.voidUpdate (b : Block) (u : Update) (st : Nat := stPeerLost) : Block :=
  let x := b.index u.index
  let k := x.keeper
  let b := if k = b.place then voidCairn u.index u.cairn b
    else if !b.placeReady k then b.setIndex u.index { x with owed := snoc x.owed u.cairn }
    else b.send { toward := .place k, cls := 4, kind := .voidCairn, args := [u.index, u.cairn] }
  b.finish u.cmd st { lateOk := false }

/-- The next step of an update once nothing is awaited in its present one. From the moment it holds a cairn its messages carry
no deadline (R234). -/
def Block.advanceUpdate (b : Block) (id : Nat) : Block :=
  match b.updateOf id with
  | none => b
  | some u =>
    let k := (b.index u.index).keeper
    if u.waiting ≠ [] then b
    else match u.step with
    | .durable =>
      if u.lost then b.finish id stPeerLost
      else
      let b := b.setUpdate id (fun u => { u with step := .cairn, waiting := [k], asked := decide (k ≠ b.place) })
      b.send { toward := .place k, cls := 4, kind := .cairnRequest, args := [u.index, id],
               deadline := (b.cmd id).bind (·.deadline) }
    | .cairn =>
      let places := if u.kind = .insert then u.owners else b.places
      let b := b.setUpdate id (fun u => { u with step := .record, waiting := places })
      let m : CairnMsg := { index := Fin.ofNat 16 u.index, fromPlace := b.place, tag := id, cairn := BitVec.ofNat 48 u.cairn,
                            deleted := if u.kind = .insert then [] else u.ids }
      places.foldl (fun b p => b.send { toward := .place p, cls := 4, kind := .cairnRecord, args := [id], body := .cairn m }) b
    | .record =>
      let b := b.setUpdate id (fun u => { u with step := .confirm, waiting := [k] })
      b.send { toward := .place k, cls := 4, kind := .confirm, args := [u.index, u.cairn] }
    | .confirm => b.finish id stOk { count := u.records, cairn := u.cairn, lateOk := false }

/-- A place's reply to an update: it goes on, or ends as R227 and R233 state. `num` is the cairn the keeper grants. -/
def Block.updateReply (b : Block) (id place st num : Nat) : Block :=
  match b.updateOf id with
  | none => b
  | some u =>
    if !decide (place ∈ u.waiting) then b
    else if st = stOk then
      let b := b.setUpdate id (fun u => { u with waiting := u.waiting.erase place,
                                                 cairn := if u.step = .cairn then num else u.cairn })
      let b := if u.step = .cairn then b.setCmd id (fun c => { c with cairn := num }) else b
      b.advanceUpdate id
    else match u.step with
    | .durable | .cairn => b.finish id st
    | .record => b.voidUpdate u
    | .confirm => b

/-- A reply to the coordinator of some work, here or at another place. -/
def Block.replyUpdate (b : Block) (toward tag : Nat) (kind : MsgKind) (st num : Nat) : Block :=
  if toward = b.place then b.updateReply tag b.place st num
  else b.send { toward := .place toward, cls := 4, kind := kind, args := [tag, st, num] }

/-- Owner groups whose records are all durable reply to their coordinators (R229 step 2). -/
def Block.settleGroups (b : Block) (ix : Nat) : Block :=
  let x := b.index ix
  let ready (g : OwnerGroup) : Bool :=
    let pages := (x.side.filter (fun s => decide (s.tag = (g.fromPlace, g.tag)))).map (·.page) ++
      (x.tombs.filter (fun t => decide (t.tag = (g.fromPlace, g.tag)))).map (·.page)
    pages.all (fun p => b.pageDurable ix x p)
  (x.groups.filter ready).foldl (fun b g => b.replyUpdate g.fromPlace g.tag .ownerReply stOk 0)
    (b.setIndex ix { x with groups := x.groups.filter (fun g => !ready g) })

/-- A log page programmed on flash, or held by a parity place. -/
def Block.pageProgrammed (b : Block) (ix page : Nat) : Block :=
  let x := b.index ix
  let l : List LogPage := mapIf (fun p => decide (p.number = page)) (fun p => { p with programmed := true }) x.logPages
  (b.setIndex ix { x with logPages := l }).settleGroups ix

/-- A parity place has replied that it holds a log page whole (R230). -/
def Block.pageHeld (b : Block) (ix page place : Nat) : Block :=
  let x := b.index ix
  let l : List LogPage := mapIf (fun p => decide (p.number = page)) (fun p => { p with held := nub (place :: p.held) }) x.logPages
  (b.setIndex ix { x with logPages := l }).settleGroups ix

/-- A limit of R119 would be passed at this place by `n` further records of an update. -/
def Index.overSide (x : Index) (kind : UpdKind) (n : Nat) : Bool :=
  decide ((kind ≠ .delete ∧ 16777216 < x.side.length + n) ∨ (kind ≠ .insert ∧ 16777216 < x.tombs.length + n))

/-- An update admitted here begins: its records go to their owners (R229 step 1). Where a place that it touches has no module, the
owners that have one are still asked, for what they answer comes before PEER_LOST in R227. -/
def updateStart (kind : UpdKind) (id : Nat) (b : Block) : Block :=
  b.admitCmd id (updOpcode kind) [0] (fun c b =>
    let h := updHeader kind (b.readInput c 0 64)
    let recs := readRecords b c kind h
    match updCheck b c kind h recs with
    | some st => (if st = stStale then b.bump pIdx 5 else b).finish id st
    | none =>
      let b := b.countInput c c.pay.len
      let owners := nub (recs.map (fun r => b.ownerOf c.object r.vid))
      let touched := if kind = .insert then owners else b.places
      let lost := !touched.all b.placeReady
      let ready := owners.filter b.placeReady
      if lost ∧ ready = [] then b.finish id stPeerLost
      else
        let u : Update := { cmd := id, index := c.object, kind := kind, records := h.records, ids := recs.map (·.vid),
                            step := .durable, waiting := ready, owners := owners, cairn := 0, lost := lost }
        let b := { b with updates := snoc b.updates u }
        ready.foldl (fun b p =>
          let m : OwnerMsg := { index := Fin.ofNat 16 c.object, fromPlace := b.place, tag := id, kind := kind,
                                records := recs.filter (fun r => decide (b.ownerOf c.object r.vid = p)) }
          b.send { toward := .place p, cls := 4, kind := .ownerRecords, args := [id], body := .owner m, deadline := c.deadline }) b)

/-- INSERT, DELETE and UPSERT: started when handed; later events bring other places' replies. -/
def updateRow (kind : UpdKind) (id : Nat) (replies : List PeerReply) (b : Block) : Block :=
  match b.cmd id with
  | none => b
  | some c =>
    if c.phase = .handed then updateStart kind id b
    else if c.phase = .working ∧ c.opcode = updOpcode kind then
      (replies.filter (fun r => decide (r.place ≠ b.place))).foldl (fun b r => b.updateReply id r.place r.status.toNat r.num) b
    else b

/-- INSERT (R229). -/
def execInsert (cmd : Nat) (replies : List PeerReply) (s : State) : Result := .next (s.on (updateRow .insert cmd replies))
/-- DELETE (R229). -/
def execDelete (cmd : Nat) (replies : List PeerReply) (s : State) : Result := .next (s.on (updateRow .delete cmd replies))
/-- UPSERT (R105, R229). -/
def execUpsert (cmd : Nat) (replies : List PeerReply) (s : State) : Result := .next (s.on (updateRow .upsert cmd replies))

/-! ## The other roles' rows -/

/-- The records of an update that has ended without a cairn discarded (R232). -/
def Index.dropTag (x : Index) (tag : Nat × Nat) : Index :=
  let keep (c : Option Nat) (t : Nat × Nat) : Bool := c.isSome || !decide (t = tag)
  { x with side := x.side.filter (fun s => keep s.cairn s.tag), tombs := x.tombs.filter (fun s => keep s.cairn s.tag),
           groups := x.groups.filter (fun g => !decide ((g.fromPlace, g.tag) = tag)) }

/-- OWNER_RECORDS (R229 step 2, R230): with no record, the coordinator's word that the change takes no effect: its records are
discarded, and a keeper voids a cairn that it has assigned to it. Else the records are appended and reported when durable; a
limit of R119, a page that is not RUNNING, or a place that can make nothing durable is reported at once (R227), as it is where
no version here says how an inserted vector is laid out (DESIGN CHOICE, log 122). -/
def ownerRecords (m : OwnerMsg) (b : Block) : Block :=
  let ix := m.index.val
  let x := b.index ix
  let fail (st : Nat) (b : Block) : Block := b.replyUpdate m.fromPlace m.tag .ownerReply st 0
  if m.records = [] then
    if m.fromPlace = b.place then b
    else (x.opened.filter (fun o => decide (o.place = m.fromPlace ∧ o.tag = m.tag))).foldl (fun b o => voidCairn ix o.cairn b)
      (b.setIndex ix (x.dropTag (m.fromPlace, m.tag)))
  else if decide (m.fromPlace = b.place) && (match b.updateOf m.tag with | some u => decide (u.step ≠ .durable) | none => true) then b
  else if x.groups.any (fun g => decide (g.fromPlace = m.fromPlace ∧ g.tag = m.tag)) then b
  else
    let n := m.records.length
    let root := (x.current.or x.versions.head?).map (·.root)
    if x.overSide m.kind n then
      fail stOutOfRange (b.raiseErr pIdx 18 (updOpcode m.kind))
    else if !b.running pIdx then fail stDisabled b
    else if !b.joined ∨ b.noWrites ∨ (m.kind ≠ .delete ∧ root = none) then fail stTierFault b
    else
      let old := b
      let b := m.records.foldl (fun b r => b.appendRecord m root r) b
      let x := b.index ix
      let g : OwnerGroup := { fromPlace := m.fromPlace, tag := m.tag, page := x.nextPage - 1, count := n }
      Block.sideHigh old (b.setIndex ix { x with groups := snoc x.groups g }) ix

/-- OWNER_RECORDS. -/
def ownOwnerRecords (msg : OwnerMsg) (s : State) : Result := .next (s.on (ownerRecords msg))

/-- LOG_PAGE_TIMER (R230): 20 µs after its first record, the page being gathered is programmed. -/
def logPageTimer (ix : Nat) (b : Block) : Block :=
  let x := b.index ix
  match x.logPages.find? (fun p => decide (p.number + 1 = x.nextPage) && decide (0 < p.bytes)) with
  | some p =>
    if p.since + 2000 ≤ b.meter then
      let l : List LogPage := mapIf (fun q => decide (q.number = p.number)) (fun q => { q with bytes := 0 }) x.logPages
      (b.setIndex ix { x with logPages := l }).closePage ix p.number
    else b
  | none => b

/-- LOG_PAGE_TIMER. -/
def execLogPageTimer (index : Fin 16) (s : State) : Result := .next (s.on (logPageTimer index.val))

/-- A page folded into a rope stripe's parity pages (R441). -/
def foldParity (old new : Bytes) (r : RopeParity) (m : Nat) : RopeParity :=
  let d := List.zipWith (· ^^^ ·) (padTo old 16384) (padTo new 16384)
  let g := (List.range m).foldl (fun (x : Bytes) _ => x.map gfDouble) d
  { r with p := List.zipWith (· ^^^ ·) (padTo r.p 16384) d, q := List.zipWith (· ^^^ ·) (padTo r.q 16384) g }

/-- LOG_COPY (R441): a parity place holds a peer's new page whole, says so, and folds it into P and Q; the whole copy is
then released. -/
def logCopy (from_ page : Nat) (data : Bytes) (b : Block) : Block :=
  if !b.joined ∨ from_ = b.place then b
  else
    let c := Config.ropeStripe from_ page
    let r : RopeParity := (b.rope.parity.find? (fun r => decide (r.stripe = c.1))).getD { stripe := c.1, p := [], q := [] }
    let l : List RopeParity := foldParity [] data r c.2.1 :: b.rope.parity.filter (fun r => decide (r.stripe ≠ c.1))
    let b := { b with rope := { b.rope with parity := l } }
    b.send { toward := .place from_, cls := 5, kind := .logCopyHeld, args := [page] }

/-- LOG_COPY. -/
def execLogCopy (fromPlace : Nat) (page : Nat) (data : Bytes) (s : State) : Result := .next (s.on (logCopy fromPlace page data))

/-- CAIRN_REQUEST (R106, R111, R120): the keeper assigns the next cairn, or refuses; asked again for a change that has an open
cairn it grants that cairn (R109). -/
def cairnRequest (ix from_ tag : Nat) (b : Block) : Block :=
  let x := b.index ix
  let mine := decide (from_ = b.place)
  if x.keeper ≠ b.place ∨ !b.placeReady b.place then b
  else if mine && (match b.updateOf tag with | some u => decide (u.step ≠ .cairn ∨ u.index ≠ ix) | none => true) then b
  else match x.opened.find? (fun o => decide (o.place = from_ ∧ o.tag = tag)) with
  | some o => b.replyUpdate from_ tag .cairnGrant stOk o.cairn
  | none =>
  if !b.running pIdx then b.replyUpdate from_ tag .cairnGrant stDisabled 0
  else if x.exhausted then b.replyUpdate from_ tag .cairnGrant stOutOfRange 0
  else
    let c := x.assigned + 1
    let b := b.setIndex ix { x with assigned := c, opened := snoc x.opened ⟨c, from_, tag⟩ }
    let b := b.bump pIdx 0
    let b := if c = 0xFFFEFFFFFFFF then b.raiseInt pIdx 18 else b
    b.replyUpdate from_ tag .cairnGrant stOk c

/-- CAIRN_REQUEST. -/
def execCairnRequest (index : Fin 16) (fromPlace : Nat) (tag : Nat) (s : State) : Result :=
  .next (s.on (cairnRequest index.val fromPlace tag))

/-- The deletion-map entry of an ordinal recorded: the lowest cairn stands, in ordinal order (R104). -/
def addDel (g c : Nat) (dels : List (Nat × Nat)) : List (Nat × Nat) :=
  if dels.any (fun d => decide (d.1 = g ∧ d.2 ≤ c)) then dels
  else insertBy (fun x y => decide (x.1 < y.1)) (g, c) (dels.filter (fun d => decide (d.1 ≠ g)))

/-- The deletion map of a version after a delete of some IDs under a cairn (R104, R229 step 5, R245). -/
def Version.recordDeletes (v : Version) (ids : List Nat) (c : Nat) : Version :=
  if c ≤ v.root.floor then v
  else
    let gs := v.parts.flatMap (fun p => (List.range p.slots.length).filterMap (fun s =>
      (p.slots[s]?).bind (fun x => if x.vid ∈ ids then some (p.first + s) else none)))
    { v with dels := gs.foldl (fun d g => addDel g c d) v.dels }

/-- A recording that this place's own update does not ask for now. -/
def Block.staleRecord (b : Block) (m : CairnMsg) : Bool :=
  decide (m.fromPlace = b.place) &&
    (match b.updateOf m.tag with | some u => decide (u.step ≠ .record ∨ u.cairn ≠ m.cairn.toNat) | none => true)

/-- A change recorded under its cairn, in the logs and in the deletion maps, and the status that its coordinator is told. One whose
cairn is void already is discarded (R233). -/
def recordCairn (m : CairnMsg) (b : Block) : Block × Nat :=
  let ix := m.index.val
  let x := b.index ix
  let c := m.cairn.toNat
  let tag := (m.fromPlace, m.tag)
  if c ∈ x.voids then (b.setIndex ix (x.dropTag tag), stPeerLost)
  else if !b.running pIdx then (b, stDisabled)
  else
    let side : List SideEntry := mapIf (fun s => decide (s.tag = tag ∧ s.cairn = none)) (fun s => { s with cairn := some c }) x.side
    let tombs : List Tombstone := mapIf (fun t => decide (t.tag = tag ∧ t.cairn = none)) (fun t => { t with cairn := some c }) x.tombs
    let vs := x.versions.map (fun v => v.recordDeletes m.deleted c)
    let ds := x.deletes ++ m.deleted.map (fun i => (i, c))
    ((b.setIndex ix { x with side := side, tombs := tombs, deletes := ds, versions := vs }).bump pIdx 1, stOk)

/-- CAIRN_RECORD (R229 step 5): the change is recorded here and its coordinator told; it waits while a shard of the index is in CUTOVER
out of this place (R347). -/
def cairnRecord (m : CairnMsg) (b : Block) : Block :=
  if b.staleRecord m then b
  else match (if m.deleted = [] then none else b.indexMoving m.index.val) with
  | some h => b.holdReq h.item (.deletions m 0) b.meter
  | none =>
    let (b, st) := recordCairn m b
    b.replyUpdate m.fromPlace m.tag .cairnRecorded st 0

/-- CAIRN_RECORD. -/
def execCairnRecord (msg : CairnMsg) (s : State) : Result := .next (s.on (cairnRecord msg))

/-- CONFIRM (R106, R107): the keeper records the confirmation, its visible cairn advances, and it replies. -/
def confirm (ix c : Nat) (b : Block) : Block :=
  let x := b.index ix
  if x.keeper ≠ b.place ∨ !b.placeReady b.place then b
  else match x.opened.find? (fun o => decide (o.cairn = c)) with
  | none => b
  | some o =>
    if decide (o.place = b.place) && (match b.updateOf o.tag with | some u => decide (u.step ≠ .confirm) | none => true) then b
    else
      let opened : List OpenCairn := x.opened.filter (fun y => decide (y.cairn ≠ c))
      ((b.setIndex ix { x with opened := opened }).advanceVisible ix).replyUpdate o.place o.tag .confirmed stOk 0

/-- CONFIRM. -/
def execConfirm (index : Fin 16) (cairn : BitVec 48) (s : State) : Result := .next (s.on (confirm index.val cairn.toNat))

/-- VISIBLE_CAIRN_SEND (R107, R233): the keeper tells every member, the spare among them, the visible cairn that has advanced, and the cairns
voided since the last message, at most once per VC_PERIOD. -/
def visibleCairnSend (ix : Nat) (b : Block) : Block :=
  let x := b.index ix
  let due := match x.lastSend with | some t => decide (t + 100 * b.fld pIdx 0x104 0 16 ≤ b.meter) | none => true
  if x.keeper ≠ b.place ∨ x.visible ≤ x.sentVc ∨ !due then b
  else
    let b := b.setIndex ix { x with lastSend := some b.meter, sentVc := x.visible, untold := [] }
    let spares := (b.rope.members.filter (fun m => m.spare && decide (m.place = 63) && !m.lost)).map (fun m => Dest.module m.id)
    (b.others.map Dest.place ++ spares).foldl (fun b p =>
      b.send { toward := p, cls := 7, kind := .visibleCairn, args := ix :: x.visible :: x.untold }) b

/-- VISIBLE_CAIRN_SEND. -/
def execVisibleCairnSend (index : Fin 16) (s : State) : Result := .next (s.on (visibleCairnSend index.val))

/-- VISIBLE_CAIRN_MESSAGE (R107, R233). -/
def visibleCairnMessage (ix c : Nat) (voided : List Nat) (b : Block) : Block :=
  let x := b.index ix
  let x : Index := { x.raiseVc c voided with voids := nub (x.voids ++ voided), voided := (x.voided + voided.length) % 2 ^ 32 }
  if (b.index ix).keeper = b.place then b else (b.setIndex ix x).bump pIdx 7

/-- VISIBLE_CAIRN_MESSAGE. -/
def execVisibleCairnMessage (index : Fin 16) (cairn : BitVec 48) (voided : List Nat) (s : State) : Result :=
  .next (s.on (visibleCairnMessage index.val cairn.toNat voided))

end Sys2Proof.Machine
end

