-- ==== Sys2Proof/Machine/Consolidate.lean ====
section
/-! DEFINITION. Consolidation (R240 to R245): the entries a new version keeps, its repaired graph, and its tiles. Its row:
CONSOLIDATE. -/

namespace Sys2Proof.Machine

/-! ## What is kept (R242, R243) -/

/-- A side-list entry as another place reports it for a consolidation: ID, cairn, then the code, vector and attribute
row, packed without gaps. -/
def sideRecordBytes (r : Root) : Nat := 16 + r.m / 2 + r.dim * elemSize r.fmt + r.attrBytes

/-- One reported entry. -/
def readSideRecord (r : Root) (bs : Bytes) : SideEntry :=
  let c := r.m / 2
  let n := r.dim * elemSize r.fmt
  { number := 0, vid := le bs 0 8, cairn := some (le bs 8 6), code := codeDigits false (slice bs 16 c), vec := slice bs (16 + c) n
    attr := slice bs (16 + c + n) r.attrBytes, page := 0, tag := (0, 0) }

/-- The entries another place reports. -/
def readSideRecords (r : Root) (bs : Bytes) : List SideEntry :=
  (List.range (bs.length / max 1 (sideRecordBytes r))).map (fun i =>
    readSideRecord r (slice bs (i * sideRecordBytes r) (sideRecordBytes r)))

/-- The codes of a 4-bit code packed as R93 states. -/
def packNibbles : List Nat → Bytes
  | a :: c :: l => BitVec.ofNat 8 (a + 16 * c) :: packNibbles l
  | [a] => [BitVec.ofNat 8 a]
  | [] => []

/-- This place's side-list entries that are visible at the cut above the base's FLOOR (R242). -/
def Index.visibleSide (x : Index) (floor cut : Nat) : List SideEntry :=
  x.side.filter (fun s => match s.cairn with
    | some e => decide (floor < e) && decide (e ≤ cut) && !tombHides x.tombs s.vid e cut
    | none => false)

/-- Of the entries of each ID, the one of highest cairn (R242). -/
def newestSide : List SideEntry → List SideEntry
  | [] => []
  | x :: xs =>
    let r := newestSide xs
    if r.any (fun y => decide (y.vid = x.vid ∧ x.cairn.getD 0 ≤ y.cairn.getD 0)) then r
    else x :: r.filter (fun y => decide (y.vid ≠ x.vid))

/-- The partition a side-list entry is assigned to (R243). -/
def Version.assign (v : Version) (x : SideEntry) : Option Nat :=
  let q := vec32 v.root.fmt v.root.dim x.vec
  let heads := (nub (v.nodes.map (fun n => shardOf n.part))).filterMap (fun s => (walk v q s 1 1).head?)
  (leastBy navLt heads).bind (fun k => (v.nodes[k.2]?).map (·.part))

/-- A partition of the new version: the base's entries that stay and the side-list entries assigned to it, in ascending
ID (R242). -/
def keptPart (x : Index) (v : Version) (cut : Nat) (moved : List (SideEntry × Option Nat)) (p : Part) : Part :=
  let stay := (List.range p.slots.length).filterMap (fun s => (p.slots[s]?).bind (fun e =>
    if v.sees (p.first + s) cut && !moved.any (fun m => decide (m.1.vid = e.vid)) then some e else none))
  let come := (moved.filter (fun m => decide (m.2 = some p.number))).map (fun m =>
    ({ vid := m.1.vid, vec := m.1.vec, attr := m.1.attr
       code := if p.code8 then encode v.root.dim v.root.m 256 x.codebook8 (vec32 v.root.fmt v.root.dim m.1.vec) else m.1.code } : Slot))
  { p with slots := sortBy (fun a b => decide (a.vid < b.vid)) (stay ++ come) }

/-! ## The graph (R244) -/

/-- The METRIC 0 distance of two full vectors as an order key. -/
def vecKey (r : Root) (x y : Bytes) : Nat := (orderKey (distance 0 (vec32 r.fmt r.dim x) (vec32 r.fmt r.dim y))).toNat

/-- A node of the new version before its edges: the representative of R244. -/
def keptRep (r : Root) (parts : List Part) (n : Node) : Node :=
  match parts.find? (fun p => decide (p.number = n.part)) with
  | none => n
  | some p =>
    match p.slots.find? (fun s => decide (s.vid = n.repId)) with
    | some s => { n with rep := s.vec }
    | none =>
      match leastBy navLt (p.slots.map (fun s => (vecKey r s.vec n.rep, s.vid))) with
      | some k => match p.slots.find? (fun s => decide (s.vid = k.2)) with
        | some s => { n with repId := s.vid, rep := s.vec }
        | none => n
      | none => n

/-- The new number of a node: its place among those kept. -/
def newNumber (kept : List Nat) (n : Nat) : Option Nat := kept.findIdx? (fun m => decide (m = n))

/-- The nodes of the new version, in their old order, with the edges of R244. -/
def keptNodes (r : Root) (nodes : List Node) (kept : List Nat) (parts : List Part) : List Node :=
  let reps := nodes.map (keptRep r parts)
  let nbrs (n : Nat) : List Nat := match nodes[n]? with | some x => x.nbrs | none => []
  let part (n : Nat) : Nat := match nodes[n]? with | some x => x.part | none => noPart
  let rep (n : Nat) : Bytes := match reps[n]? with | some x => x.rep | none => []
  kept.filterMap (fun n => (reps[n]?).map (fun x =>
    let gone := (nbrs n).filter (fun m => !decide (m ∈ kept))
    if gone = [] then { x with nbrs := (nbrs n).filterMap (newNumber kept) }
    else
      let cands := nub (((nbrs n) ++ gone.flatMap nbrs).filter (fun m =>
        decide (m ∈ kept ∧ m ≠ n ∧ shardOf (part m) = shardOf (part n))))
      let ranked := sortBy navLt (cands.filterMap (fun m => (newNumber kept m).map (fun k => (vecKey r (rep n) (rep m), k))))
      { x with nbrs := (ranked.take r.degree).map (·.2) }))

/-! ## The tiles (R87 to R99) -/

/-- One tile with its header and CHECK (R87); CAIRN is the highest cairn held, in the tiles that hold cairns. -/
def mkTile (kind form object version tile count : Nat) (payload : Bytes) (cairn : Nat := 0) : Bytes :=
  let body := padTo payload 16384
  let head := toLe kind 1 ++ toLe form 1 ++ toLe 1 2 ++ toLe payload.length 4 ++ toLe object 2 ++ toLe 0 2 ++ toLe version 4 ++
    toLe tile 4 ++ toLe count 4 ++ toLe cairn 6 ++ List.replicate 26 0
  head ++ toLe (crc64 (head ++ body)).toNat 8 ++ body

/-- A list cut into runs of n. -/
def chunks {α : Type} (n : Nat) : Nat → List α → List (List α)
  | 0, _ => []
  | _ + 1, [] => []
  | fuel + 1, l => l.take n :: chunks n fuel (l.drop n)

/-- The tiles of an area of fixed-size entries (R88, R92). -/
def entryTiles (kind form object version size : Nat) (l : List Bytes) : List Bytes :=
  let cs := chunks (16384 / max 1 size) (l.length + 1) l
  (List.range cs.length).map (fun i => mkTile kind form object version i (cs.getD i []).length (cs.getD i []).flatten)

/-- The tiles of a run of bytes whose entries have a size. -/
def runTiles (kind form object version size : Nat) (bs : Bytes) : List Bytes :=
  let cs := chunks 16384 (bs.length + 1) bs
  (List.range cs.length).map (fun i => mkTile kind form object version i ((cs.getD i []).length / max 1 size) (cs.getD i []))

/-- The code bytes of some partitions, each from a 256 B boundary, and their offsets (R96). -/
def codeRun (parts : List Part) : Bytes × List (Nat × Nat) :=
  parts.foldl (fun r p =>
    let start := roundUp r.1.length 256
    let bs := p.slots.flatMap (fun s => if p.code8 then s.code.map (BitVec.ofNat 8) else packNibbles s.code)
    (padTo r.1 start ++ bs, snoc r.2 (p.number, start))) ([], [])

/-- The code tiles of some partitions (R88, R96); COUNT is the codes that a tile holds. -/
def codeTiles (form object version size : Nat) (parts : List Part) : List Bytes :=
  let (bs, starts) := codeRun parts
  let cs := chunks 16384 (bs.length + 1) bs
  let held (i : Nat) : Nat := (parts.zip starts).foldl (fun n e =>
    n + ((List.range e.1.slots.length).filter (fun s => decide ((e.2.2 + s * size) / 16384 = i))).length) 0
  (List.range cs.length).map (fun i => mkTile 1 form object version i (held i) (cs.getD i []))

/-- A directory entry's bytes (R95). -/
def dirBytes (part count first tile offset : Nat) (code8 : Bool) : Bytes :=
  toLe part 4 ++ toLe count 4 ++ toLe first 5 ++ toLe 0 3 ++ toLe tile 4 ++
  toLe (offset / 256 + if code8 then 64 else 0) 4 ++ toLe 0 8

/-- A node record's bytes (R98). -/
def nodeBytesOf (r : Root) (n : Node) : Bytes :=
  padTo (toLe n.part 4 ++ toLe n.nbrs.length 1 ++ toLe 0 3 ++ toLe n.repId 8 ++ n.nbrs.flatMap (fun x => toLe x 4) ++
    (List.replicate (r.degree - n.nbrs.length) (toLe 0xFFFFFFFF 4)).flatten ++ n.rep) r.nodeBytes

/-! ## The tiles of the side list, the tombstones and the deletion map (R88, R102 to R104) -/

/-- Bytes of a side-list entry in its block (R88). -/
def Root.sideBytes (r : Root) : Nat := roundUp (16 + r.m / 2) 16

/-- The tiles of entries by number, each with its cairn; COUNT is the entries held and CAIRN the highest of them. A number whose
entry is gone holds the fill ID (DESIGN CHOICE, log 126). -/
def cairnTiles (kind form object size : Nat) (l : List (Option (Nat × Bytes))) : List Bytes :=
  let cs := chunks (16384 / max 1 size) (l.length + 1) l
  let bytes (e : Option (Nat × Bytes)) : Bytes :=
    match e with | some e => padTo e.2 size | none => padTo (toLe noId 8) size
  (List.range cs.length).map (fun i =>
    let c := cs.getD i []
    let held := c.filterMap id
    mkTile kind form object 0 i held.length (c.flatMap bytes) (held.foldl (fun m e => max m e.1) 0))

/-- The side-list entry of each number, with what a function takes of it. -/
def Index.byNumber (x : Index) (f : SideEntry → Bytes) : List (Option (Nat × Bytes)) :=
  (List.range x.nextEntry).map (fun n => (x.side.find? (fun s => decide (s.number = n))).map (fun s => (s.cairn.getD 0, f s)))

/-- The side-list blocks, and the tiles of the side list's full vectors and attribute rows: entry n of each is that of entry
number n (R102). -/
def Index.sideTiles (x : Index) (ix : Nat) (r : Root) : List Bytes :=
  cairnTiles 1 3 ix r.sideBytes (x.byNumber sideEntryBytes)
def Index.sideVecTiles (x : Index) (ix : Nat) (r : Root) : List Bytes :=
  cairnTiles 2 3 ix (r.dim * elemSize r.fmt) (x.byNumber (·.vec))
def Index.sideAttrTiles (x : Index) (ix : Nat) (r : Root) : List Bytes :=
  if r.attrBytes = 0 then [] else cairnTiles 2 4 ix r.attrBytes (x.byNumber (·.attr))

/-- The tombstone blocks, in append order (R103). -/
def Index.tombTiles (x : Index) (ix : Nat) : List Bytes :=
  cairnTiles 1 4 ix 16 (x.tombs.map (fun t => some (t.cairn.getD 0, tombBytes t)))

/-- The deletion-map blocks of a version: ordinal and lowest cairn, in ordinal order (R104). -/
def Version.delTiles (v : Version) : List Bytes :=
  let cs := chunks 1024 (v.dels.length + 1) v.dels
  (List.range cs.length).map (fun i =>
    let c := cs.getD i []
    mkTile 1 5 v.root.index v.root.version i c.length (c.flatMap (fun d => toLe d.1 5 ++ toLe 0 3 ++ toLe d.2 6 ++ toLe 0 2))
      (c.foldl (fun m d => max m d.2) 0))

/-- Tiles by their numbers. -/
def numbered (l : List Bytes) : List (Nat × Bytes) := (List.range l.length).map (fun i => (i, l.getD i []))

/-- The side-list entry of a number read from its tiles; none where the number holds the fill ID, or an entry that no cairn
records. -/
def readSideTiles (r : Root) (side vecs attrs : List Bytes) (n : Nat) : Option SideEntry :=
  let e := entryBytes (numbered side) 0 r.sideBytes n
  if le e 0 8 = noId ∨ le e 8 6 = 0 then none
  else some { number := n, vid := le e 0 8, cairn := some (le e 8 6), code := codeDigits false (slice e 16 (r.m / 2))
              vec := entryBytes (numbered vecs) 0 (r.dim * elemSize r.fmt) n
              attr := if r.attrBytes = 0 then [] else entryBytes (numbered attrs) 0 r.attrBytes n
              page := 0, tag := (0, 0) }

/-- The tombstones read from their tiles. -/
def readTombTiles (tombs : List Bytes) : List Tombstone :=
  let n := tombs.foldl (fun n t => n + le t 0x14 4) 0
  (List.range n).filterMap (fun i =>
    let e := entryBytes (numbered tombs) 0 16 i
    if le e 8 6 = 0 then none else some ⟨le e 0 8, some (le e 8 6), 0, (0, 0)⟩)

/-- A version root's bytes with its CHECK (R89). -/
def rootBytes (r : Root) : Bytes :=
  let b := toLe 0x5A495852 4 ++ toLe 1 2 ++ toLe 0 2 ++ toLe r.index 2 ++ toLe 0 2 ++ toLe r.version 4 ++ toLe r.floor 6 ++
    toLe 0 2 ++ toLe r.dim 2 ++ toLe r.fmt 1 ++ toLe r.metric 1 ++ toLe r.m 1 ++ toLe (if r.code8 then 1 else 0) 1 ++
    toLe r.degree 1 ++ toLe r.attrBytes 1 ++ toLe r.partitions 4 ++ toLe r.entry.length 1 ++ toLe 0 3 ++ toLe r.vectors 8 ++
    [r.cb4, r.cb8, r.dir, r.graph, r.idTile, r.vecTile, r.attrTile, r.tiles].flatMap (fun x => toLe x 4)
  let b := padTo b 256 ++ r.entry.flatMap (fun x => toLe x 4)
  let b := b ++ (List.replicate (64 - r.entry.length) (toLe 0xFFFFFFFF 4)).flatten ++ r.schema.flatMap (fun x => toLe x 4)
  let b := padTo b 0xFF8
  b ++ toLe (crc64 b).toNat 8

/-- A version with every partition of it, whichever place holds it, and the deletion map over them all: its tiles and the
deletes recorded here are rope-wide, so every place consolidates it to the same new version. -/
def Version.whole (v : Version) (deletes : List (Nat × Nat)) : Version :=
  let w : Version := { v with parts := (directory v.tiles v.root).map (readPart v.tiles v.root) }
  { w with dels := buildDels w deletes }

/-- The outcome of building the whole new version from its base and the side-list entries of every place: a status, or the new
root and tiles (R241 to R244). -/
def buildVersion (x : Index) (base : Version) (ver cut : Nat) (foreign : List SideEntry) : Except Nat (Root × List Bytes) :=
  let v := base.whole x.deletes
  let r := v.root
  let moved := (newestSide (x.visibleSide r.floor cut ++ foreign)).map (fun s => (s, v.assign s))
  let all := v.parts.map (keptPart x v cut moved)
  let parts := all.filter (fun p => decide (p.slots ≠ []))
  let kept := (List.range v.nodes.length).filter (fun n => match v.nodes[n]? with
    | some nd => parts.any (fun p => decide (p.number = nd.part))
    | none => false)
  if parts.any (fun p => decide (1048576 < p.slots.length)) ∨ kept = [] then .error stOutOfRange
  else
    let nodes := keptNodes r v.nodes kept parts
    let total := parts.foldl (fun n p => n + p.slots.length) 0
    let slots := parts.flatMap (·.slots)
    let parts4 := parts.filter (fun p => !p.code8)
    let parts8 := parts.filter (·.code8)
    let cb4 := runTiles 0 1 r.index ver 2 x.codebook4
    let code8 := decide (parts8 ≠ [])
    let cb8 := if code8 then runTiles 0 2 r.index ver 2 x.codebook8 else []
    let graph := entryTiles 2 1 r.index ver r.nodeBytes (nodes.map (nodeBytesOf r))
    let c4 := codeTiles 0 r.index ver (codeSize r.m false) parts4
    let c8 := codeTiles 1 r.index ver (codeSize r.m true) parts8
    let starts := (codeRun parts4).2 ++ (codeRun parts8).2
    let ids := entryTiles 1 2 r.index ver 8 (slots.map (fun s => toLe s.vid 8))
    let vecs := entryTiles 2 0 r.index ver (r.dim * elemSize r.fmt) (slots.map (·.vec))
    let attrs := if r.attrBytes = 0 then [] else entryTiles 2 2 r.index ver r.attrBytes (slots.map (·.attr))
    let tCb8 := cb4.length
    let tDir := tCb8 + cb8.length
    let tGraph := tDir + tilesFor (32 * nodes.length)
    let tC4 := tGraph + graph.length
    let tC8 := tC4 + c4.length
    let tId := tC8 + c8.length
    let tVec := tId + ids.length
    let tAttr := tVec + vecs.length
    let entry (n : Node) : Bytes :=
      match parts.find? (fun p => decide (p.number = n.part)) with
      | some p =>
        let first := (parts.filter (fun y => decide (y.number < p.number))).foldl (fun n y => n + y.slots.length) 0
        let off := (starts.find? (fun y => decide (y.1 = p.number))).map (·.2) |>.getD 0
        dirBytes p.number p.slots.length first ((if p.code8 then tC8 else tC4) + off / 16384) (off % 16384) p.code8
      | none => []
    let dir := entryTiles 1 6 r.index ver 32 (nodes.map entry)
    let tiles := cb4 ++ cb8 ++ dir ++ graph ++ c4 ++ c8 ++ ids ++ vecs ++ attrs
    .ok ({ r with version := ver, floor := cut, code8 := code8, partitions := nodes.length, vectors := total, cb4 := 0,
                  cb8 := if code8 then tCb8 else 0, dir := tDir, graph := tGraph, idTile := tId, vecTile := tVec,
                  attrTile := if r.attrBytes = 0 then 0 else tAttr, tiles := tiles.length,
                  entry := r.entry.filterMap (newNumber kept) }, tiles)

/-- A tile of a version lies in a codebook area. -/
def Root.isCodebook (r : Root) (t : Nat) : Bool :=
  decide (r.cb4 ≤ t ∧ t < r.cb4 + tilesFor r.cb4Bytes) || (r.code8 && decide (r.cb8 ≤ t ∧ t < r.cb8 + tilesFor r.cb8Bytes))

/-- A tile of a base version cannot be read: it does not check, or its flash page is lost and no DRAM copy is cached (R240). -/
def Block.baseLost (b : Block) (v : Version) : Bool :=
  decide (v.tiles.length ≠ v.root.tiles) || v.tiles.any (fun t => !tileOk t.2 || b.pageGone (.tile v.root.index v.root.version t.1) ||
    (!b.cached (.index v.root.index v.root.version t.1) && (match b.tileSite v t.1 with | some x => !b.pageReadable x | none => false)))

/-- The new version built here and MOUNTING, its home copy queued (R241, R398), as the base's tiles that DRAM does not hold are read in
class 2 (R245);
with it no module may exceed the limits of R119, and a base tile that cannot be read ends it (R240). -/
def Block.beginBuilt (b : Block) (ix base ver cut : Nat) (foreign : List SideEntry) (cmd : Option Nat) (fromPlace tag : Nat)
    (waiting : List Nat) : Except Nat Block :=
  let x := b.index ix
  match x.version base with
  | none => .error stStale
  | some v =>
    match buildVersion x v ver cut foreign with
    | .error st => .error st
    | .ok (r, ts) =>
      let tiles := numbered ts
      if b.overLimits ix (directory tiles r) then .error stOutOfRange
      else if b.baseLost v then .error stTierFault
      else
      let read (t : Nat) : Bool := !v.root.isCodebook t && !b.cached (.index ix base t)
      let b := ((List.range v.root.tiles).filter read).foldl (fun b t => b.readHome (b.tileSite v t)) b
      let w : Version := { root := r, state := .mounting, tiles := tiles,
                           shards := nub ((directory tiles r).map (fun e => shardOf e.part)), cmd := cmd, fromPlace := fromPlace,
                           tag := tag, waiting := waiting, built := true, base := base, busy := true }
      let l : List Version := snoc x.versions w
      .ok (((b.setIndex ix { x with versions := l, high := max x.high ver }).homeTiles .index ix ver tiles).versionChange)

/-- The checks of R240 before any tile moves, in order. -/
def consolidateCheck (b : Block) (c : Cmd) : Option Nat :=
  let x := b.index c.object
  let cut := if c.param 64 48 = 0 then x.localVc else c.param 64 48
  if c.payValid ∨ c.resValid ∨ c.param 112 16 ≠ 0 then some stBadCommand
  else if 15 < c.object then some stOutOfRange
  else match x.current with
  | none => some stStale
  | some v =>
    if v.root.version ≠ c.param 32 32 ∨ c.param 0 32 ≤ x.high ∨ x.localVc < cut ∨ cut < v.root.floor ∨
        x.versions.any (fun v => v.built && v.busy) then some stStale
    else if 4 ≤ x.versions.length then some stOutOfRange
    else if !b.places.all b.placeReady then some stPeerLost
    else none

/-- The visible side-list entries of this place that a consolidation elsewhere needs. -/
def Block.sideReport (b : Block) (ix base cut : Nat) : Bytes :=
  let x := b.index ix
  match x.version base with
  | none => []
  | some v => (x.visibleSide v.root.floor cut).flatMap (fun s =>
      toLe s.vid 8 ++ toLe (s.cairn.getD 0) 6 ++ toLe 0 2 ++ packNibbles s.code ++ s.vec ++ s.attr)

/-- CONSOLIDATE at its coordinator: when it is handed over it is checked and the new version built, `replies` bringing
the side-list entries that other places report, which go on to every place; later replies say how the other places' mounts went. -/
def consolidateOwn (id : Nat) (replies : List PeerReply) (b : Block) : Block :=
  match b.cmd id with
  | none => b
  | some c =>
    if c.phase = .handed then
      b.admitCmd id 0x23 [0] (fun c b =>
        match consolidateCheck b c with
        | some st => (if st = stStale then b.bump pIdx 5 else b).finish id st
        | none =>
            let ix := c.object
            let x := b.index ix
            let others := b.others
            let spent (st : Nat) : Block :=
              (others.foldl (fun b p => b.send { toward := .place p, cls := 4, kind := .mountEnd, args := [ix, c.param 0 32, st] })
                (b.spendVersion ix (c.param 0 32))).finish id st
            if b.noWrites then spent stTierFault else
            let cut := if c.param 64 48 = 0 then x.localVc else c.param 64 48
            let base := c.param 32 32
            let foreign := match x.version base with
              | some v => replies.flatMap (fun r => readSideRecords v.root r.data)
              | none => []
            match b.beginBuilt ix base (c.param 0 32) cut foreign (some id) b.place id others with
            | .error st => spent st
            | .ok b =>
              let report := b.sideReport ix base cut ++ replies.flatMap (·.data)
              others.foldl (fun b p =>
                b.send { toward := .place p, cls := 4, kind := .mountStart, args := [id, ix, c.param 0 32, base, cut], data := report }) b)
    else if c.phase = .working ∧ c.opcode = 0x23 then
      match (b.index c.object).versions.find? (fun v => decide (v.cmd = some id)) with
      | none => b
      | some v =>
        if b.passed c.deadline then b.failMount c.object v stLate
        else match replies.find? (fun r => decide (r.place ∈ v.waiting) && decide (r.status.toNat ≠ stOk)) with
        | some r => b.failMount c.object v r.status.toNat
        | none =>
          let x := (b.index c.object).setVersion v.root.version (fun v =>
            { v with waiting := v.waiting.filter (fun p => !replies.any (fun r => decide (r.place = p))) })
          (b.setIndex c.object x).maybeMounted c.object v.root.version
    else b

/-- CONSOLIDATE (R240 to R245). An order names the base and the cut in the bits of PARAMS and carries the side-list entries of
every other place; with bit 126 set it asks for this place's own (log 123). A place that has four versions of the index which are
not ABSENT answers OUT_OF_RANGE (R112, R119; DEDUCED, log 152). -/
def consolidate (part : CmdPart) (b : Block) : Block :=
  match part with
  | .own id replies => consolidateOwn id replies b
  | .order o =>
    let base := nbits o.params 32 32
    let cut := nbits o.params 64 48
    let foreign := match (b.index o.object).version base with
      | some v => readSideRecords v.root o.data
      | none => []
    let fail (st : Nat) : Block := b.send { toward := .place o.fromPlace, cls := 4, kind := .mountReady, args := [o.tag, st] }
    if nbits o.params 126 1 = 1 then
      b.send { toward := .place o.fromPlace, cls := 4, kind := .sideReport, args := [o.tag, stOk], data := b.sideReport o.object base cut }
    else if !b.running pIdx then fail stDisabled
    else if o.version ≤ (b.index o.object).high then fail stStale
    else if 4 ≤ (b.index o.object).versions.length then fail stOutOfRange
    else match b.beginBuilt o.object base o.version cut foreign none o.fromPlace o.tag [] with
      | .error st => (b.spendVersion o.object o.version).send
          { toward := .place o.fromPlace, cls := 4, kind := .mountReady, args := [o.tag, st] }
      | .ok b => b

/-- CONSOLIDATE. -/
def execConsolidate (part : CmdPart) (s : State) : Result := .next (s.on (consolidate part))

end Sys2Proof.Machine
end

