-- ==== Sys2Proof/Machine/Pool.lean ====
section
/-! DEFINITION. The DRAM tier, context state and the shared pool (chapter 14). Its rows: ACQUIRE, RENEW, CREATE,
POOL_PUBLISH, POOL_RELEASE, POOL_DISCARD, LEASE_EXPIRY, CXL_READ, CXL_WRITE, CXL_LINK_CHANGE, MAILBOX_COMMAND, LD_BINDING,
DIRTY_WRITE_BACK, STATE_PUSH, STATE_FETCH, STACK_FAILURE, SPARE_REBUILD_END. -/

namespace Sys2Proof.Machine

/-! ## Leases (R375, R376, R380) -/

/-- The working copy and its mark discarded. -/
def Region.discardWc (r : Region) : Region :=
  { r with wc := [], lease := r.lease.map (fun l => { l with lostWc := false }) }

/-- A lease ended with its working copy. -/
def Region.endLease (r : Region) : Region := { r with wc := [], lease := none }

/-- A durable publish of a region that has not swapped ends with a status; nothing is published (R381). -/
def Block.cancelPublish (b : Block) (region st : Nat) : Block :=
  let runs := b.publishes.filter (fun (p : PublishRun) => decide (p.region = region))
  let rest : List PublishRun := b.publishes.filter (fun p => decide (p.region ≠ region))
  let writes : List FlashWrite := b.ftl.writes.filter (fun w =>
    match w.what with | .poolPage r _ _ => decide (r ≠ region) | _ => true)
  let b := { b with publishes := rest, ftl := { b.ftl with writes := writes } }
  runs.foldl (fun b p => b.finish p.cmd st { lateOk := false }) b

/-- A lease that ends by itself: its term has passed, or its session has closed (R380). -/
def Block.expireLease (b : Block) (region : Nat) : Block :=
  let b := b.setRegion region Region.endLease
  (b.raiseInt (pCxp 0) 17).bump (pCxp 0) 4

/-- Every lease a session holds ends (R380). -/
def Block.endLeases (b : Block) (session : Nat) : Block :=
  (b.regions.filter (fun r => r.heldBy (some session))).foldl (fun b r =>
    (b.cancelPublish r.number stAborted).expireLease r.number) b

/-- LEASE_EXPIRY (R375, R380): a swap that has begun completes first. -/
def leaseExpiry (region : Nat) (b : Block) : Block :=
  match (b.region region).bind (·.lease) with
  | some l =>
    if l.ends ≤ b.meter ∧ !b.publishes.any (fun p => decide (p.region = region)) then b.expireLease region else b
  | none => b

/-- LEASE_EXPIRY. -/
def execLeaseExpiry (region : BitVec 12) (s : State) : Result := .next (s.on (leaseExpiry region.toNat))

/-- The lease record of R376. -/
def leaseRecord (r : Region) : Bytes :=
  padTo (toLe r.number 4 ++ toLe ((r.lease.map (·.id)).getD 0) 4 ++ toLe r.current 4 ++ toLe r.durable 4 ++ toLe r.pages 4) 64

/-- A fresh lease ID: ascending, never 0 (R375). -/
def Block.newLease (b : Block) : Nat × Block :=
  (b.nextLease, { b with nextLease := if b.nextLease = 2 ^ 32 - 1 then 1 else b.nextLease + 1 })

/-- The first condition of R381 that a POOL_LEASE meets. -/
def leaseCheck (b : Block) (c : Cmd) : Option Nat :=
  let action := c.param 0 2
  let term := c.param 16 16
  let lease := c.param 32 32
  let pages := c.param 64 21
  let r := b.region c.object
  let held : Bool := match r with
    | some r => r.heldBy c.who && decide ((r.lease.map (·.id)) = some lease)
    | none => false
  if c.payValid ∨ !c.resValid ∨ c.res.len < 64 ∨ action = 3 ∨ c.param 2 6 ≠ 0 ∨ c.param 14 2 ≠ 0 ∨ c.param 85 43 ≠ 0 ∨
     (action ≠ 1 ∧ lease ≠ 0) ∨ (action ≠ 2 ∧ pages ≠ 0) then some stBadCommand
  else if c.object = 0 ∨ 4095 < c.object ∨ term = 0 ∨ b.fld (pCxp 0) 0x110 0 16 < term ∨
     (action = 2 ∧ (pages = 0 ∨ 1048576 < pages ∨ b.poolSize < b.poolUsed + pages)) then some stOutOfRange
  else if b.lacksLease c then some stNoLease
  else if action = 2 ∧ r.isSome then some stStale
  else if decide (action = 0) && (match r with | some r => r.lease.isSome | none => true) then some stNoLease
  else if action = 1 ∧ !held then some stNoLease
  else if !b.running (pCxp 0) then some stDisabled
  else none

/-- POOL_LEASE (R376). -/
def poolLease (action id : Nat) (b : Block) : Block :=
  match b.cmd id with
  | none => b
  | some c =>
    if c.param 0 2 ≠ action ∧ !(action = 0 ∧ c.param 0 2 = 3) then b
    else b.admitCmd id 0x50 [0, 1] (fun c b =>
      match leaseCheck b c with
      | some st => b.finish id st
      | none =>
        let ends := b.meter + c.param 16 16 * 100000
        let writer := if c.param 13 1 = 1 then none else some (c.param 8 5)
        let b :=
          if action = 1 then
            b.setRegion c.object (fun r => { r with lease := r.lease.map (fun l => { l with writer := writer, ends := ends }) })
          else
            let (n, b) := b.newLease
            let l : Lease := { id := n, holder := c.who, writer := writer, ends := ends }
            if action = 2 then
              let rs : List Region := snoc b.regions { number := c.object, pages := c.param 64 21, lease := some l }
              { b with regions := rs }
            else b.setRegion c.object (fun r => { r with lease := some l })
        let rec' : Bytes := match b.region c.object with | some r => leaseRecord r | none => []
        (b.writeResult id 0 rec').finish id stOk)

/-- ACQUIRE (R376). -/
def execAcquire (cmd : Nat) (s : State) : Result := .next (s.on (poolLease 0 cmd))
/-- RENEW (R376). -/
def execRenew (cmd : Nat) (s : State) : Result := .next (s.on (poolLease 1 cmd))
/-- CREATE (R376). -/
def execCreate (cmd : Nat) (s : State) : Result := .next (s.on (poolLease 2 cmd))

/-! ## Publishing (R377 to R381) -/

/-- DURABLE follows CURRENT once every page of CURRENT is clean (R374, R377). -/
def Region.settle (r : Region) : Region :=
  if r.map.all (fun p => !p.tier.dirty) then { r with durable := r.current, saved := r.map } else r

/-- The working copy's pages become CURRENT in one swap (R377). -/
def Region.swap (r : Region) (clean : Bool) : Region :=
  let new : List PoolPage := r.wc.map (fun p =>
    { p with tier := if clean then { p.tier with dirty := false, mirror := none } else p.tier, version := r.current + 1 })
  let old : List PoolPage := r.map.filter (fun p => !new.any (fun q => decide (q.page = p.page)))
  let r : Region := { r with map := old ++ new, wc := [], current := r.current + 1 }
  r.settle

/-- A publish carried out: the swap, and the lease's end when RELEASE asks for it. -/
def Block.publish (b : Block) (id region : Nat) (clean release : Bool) : Block :=
  let b := b.setRegion region (fun r => r.swap clean)
  let b := if release then b.setRegion region Region.endLease else b
  (b.bump (pCxp 0) 3).finish id stOk { lateOk := false }

/-- The sender does not hold the lease it names (R381). -/
def lacksRegion (b : Block) (c : Cmd) : Bool :=
  match b.region c.object with
  | some r => !(r.heldBy c.who && decide ((r.lease.map (·.id)) = some (c.param 0 32)))
  | none => true

/-- POOL_PUBLISH (R377). -/
def poolPublish (id : Nat) (b : Block) : Block :=
  b.admitCmd id 0x51 [0, 1] (fun c b =>
    let durable := decide (c.param 64 1 = 1)
    let release := decide (c.param 65 1 = 1)
    if c.payValid ∨ c.resValid ∨ c.param 66 62 ≠ 0 then b.finish id stBadCommand
    else if c.object = 0 ∨ 4095 < c.object then b.finish id stOutOfRange
    else match b.region c.object with
    | none => b.finish id stNoLease
    | some r =>
      if r.current = 2 ^ 32 - 1 then b.finish id stOutOfRange
      else if lacksRegion b c then b.finish id stNoLease
      else if c.param 32 32 ≠ r.current + 1 then b.finish id stStale
      else if (match r.lease with | some l => l.lostWc | none => false) then
        (b.setRegion c.object Region.discardWc).finish id stOutOfRange
      else if !b.running (pCxp 0) then b.finish id stDisabled
      else if r.wc.any (fun p => p.tier.lost) ∨ (durable ∧ r.wc ≠ [] ∧ b.noWrites) then b.finish id stTierFault
      else if durable ∧ r.wc ≠ [] then
        let run : PublishRun := { cmd := id, region := c.object, release := release, left := r.wc.map (·.page) }
        let b := { b with publishes := snoc b.publishes run }
        r.wc.foldl (fun b p => b.queueWrite (.poolPage c.object (r.current + 1) p.page) (Memory.read p.data 0 poolPageBytes)) b
      else b.publish id c.object false release)

/-- POOL_PUBLISH. -/
def execPoolPublish (cmd : Nat) (s : State) : Result := .next (s.on (poolPublish cmd))

/-- A page of a durable publish has been programmed; with the last one, the swap (R377). -/
def Block.poolProgrammed (b : Block) (region version page : Nat) : Block :=
  match b.publishes.find? (fun p => decide (p.region = region) && decide (page ∈ p.left)) with
  | none => b
  | some p =>
    match b.region region with
    | none => b
    | some r =>
      if r.current + 1 ≠ version then b
      else
        let left := p.left.erase page
        let b := b.bump (pCxp 0) 6 poolPageBytes
        if left ≠ [] then
          { b with publishes := mapIf (fun (q : PublishRun) => decide (q.cmd = p.cmd)) (fun q => { q with left := left }) b.publishes }
        else
          { b with publishes := b.publishes.filter (fun q => decide (q.cmd ≠ p.cmd)) }.publish p.cmd region true p.release

/-- POOL_RELEASE (R377). -/
def poolRelease (id : Nat) (b : Block) : Block :=
  b.admitCmd id 0x52 [0, 1] (fun c b =>
    let delete := decide (c.param 64 1 = 1)
    let force := decide (c.param 65 1 = 1)
    if c.payValid ∨ c.resValid ∨ c.param 32 32 ≠ 0 ∨ c.param 66 62 ≠ 0 ∨ (force ∧ c.who.isSome) then b.finish id stBadCommand
    else if c.object = 0 ∨ 4095 < c.object then b.finish id stOutOfRange
    else if (b.region c.object).isNone ∨ (!force ∧ lacksRegion b c) then b.finish id stNoLease
    else if !b.running (pCxp 0) then b.finish id stDisabled
    else
      let b := b.cancelPublish c.object stNoLease
      let b := if delete then { b with regions := b.regions.filter (fun r => decide (r.number ≠ c.object)) }
        else b.setRegion c.object Region.endLease
      b.finish id stOk)

/-- POOL_RELEASE. -/
def execPoolRelease (cmd : Nat) (s : State) : Result := .next (s.on (poolRelease cmd))

/-- POOL_DISCARD (R377). -/
def poolDiscard (id : Nat) (b : Block) : Block :=
  b.admitCmd id 0x53 [0, 1] (fun c b =>
    if c.payValid ∨ c.resValid ∨ c.param 32 96 ≠ 0 then b.finish id stBadCommand
    else if c.object = 0 ∨ 4095 < c.object then b.finish id stOutOfRange
    else if lacksRegion b c then b.finish id stNoLease
    else if !b.running (pCxp 0) then b.finish id stDisabled
    else ((b.cancelPublish c.object stNoLease).setRegion c.object Region.discardWc).finish id stOk)

/-- POOL_DISCARD. -/
def execPoolDiscard (cmd : Nat) (s : State) : Result := .next (s.on (poolDiscard cmd))

/-! ## The CXL ports (R372 to R374, R378, R384, R385) -/

/-- The directory entry of region r (R374). -/
def Block.directoryEntry (b : Block) (r : Nat) : Bytes :=
  match b.region r with
  | some x => padTo (toLe (1 + if x.lease.isSome then 2 else 0) 4 ++ toLe x.current 4 ++ toLe x.durable 4 ++ toLe x.pages 4) 64
  | none => List.replicate 64 0

/-- The LD is the writer of a region's lease. -/
def Region.writtenBy (r : Region) (ld : Nat) : Bool :=
  match r.lease with | some l => decide (l.writer = some ld) | none => false

/-- The 64 bytes a CXL read of an LD finds; `none` where the page is lost (R378). -/
def Block.cxlBytes (b : Block) (ld addr : Nat) : Option Bytes :=
  let a := addr / 64 * 64
  if a < 0x40000 then some (b.directoryEntry (a / 64))
  else
    match b.region (poolPlace a).1 with
    | none => some (List.replicate 64 0)
    | some r =>
      let o := (poolPlace a).2
      let wc := r.writtenBy ld
      if lostPage (r.page wc (o / poolPageBytes)) then none
      else some ((List.range 64).map (fun i => r.byte wc (o + i)))

/-- CXL_READ (R378, R384). -/
def cxlRead (port ld addr : Nat) (b : Block) : Block :=
  let st := b.pageState (pCxp port)
  let answer (b : Block) (x : Option Bytes) : Block := { b with out := { b.out with cxl := x } }
  if st = 3 then (answer b none).raiseErr (pCxp port) 17
  else if st ≠ 2 ∨ b.halted then b
  else
    let b := (b.bump (pCxp port) 0).bump (pCxp port) 7 64
    match b.cxlBytes (16 * port + ld) addr with
    | some bs => answer b (some bs)
    | none => (answer b none).raiseErr (pCxp port) 17

/-- CXL_READ. -/
def ownCxlRead (port : Fin 2) (ld : Fin 16) (addr : BitVec 46) (s : State) : Result :=
  .next (s.on (cxlRead port.val ld.val addr.toNat))

/-- CXL_WRITE (R374, R378, R384). -/
def cxlWrite (port ld addr : Nat) (data : Bytes) (b : Block) : Block :=
  let st := b.pageState (pCxp port)
  let n := 16 * port + ld
  let p := poolPlace addr
  if st ≠ 2 ∨ b.halted then b
  else
    let b := b.bump (pCxp port) 7 data.length
    let mine : Bool := match b.region p.1 with
      | some r => r.writtenBy n && decide (p.2 + data.length ≤ r.pages * poolPageBytes)
      | none => false
    if addr < 0x40000 then b
    else if !mine then
      let b := b.put (pCxp port) 0x118 (addr + n * 2 ^ 46 + 2 ^ 63)
      (b.raiseErr (pCxp port) 16).bump (pCxp port) 5
    else
      let marked (b : Block) : Bool :=
        match (b.region p.1).bind (·.lease) with | some l => l.lostWc | none => false
      let full : Bool := match b.region p.1 with
        | some r => (pageIn r.wc (p.2 / poolPageBytes)).isNone && decide (b.poolSize ≤ b.poolUsed)
        | none => false
      let pages := span (p.2 / poolPageBytes) ((p.2 + data.length + poolPageBytes - 1) / poolPageBytes - p.2 / poolPageBytes)
      let b := (b.poolWrite p.1 p.2 data).republish p.1 pages
      if full ∧ marked b then b.bump (pCxp port) 5 else b.bump (pCxp port) 1

/-- CXL_WRITE. -/
def ownCxlWrite (port : Fin 2) (ld : Fin 16) (addr : BitVec 46) (data : Bytes) (s : State) : Result :=
  .next (s.on (cxlWrite port.val ld.val addr.toNat data))

/-- Viral is signalled on a port whose CXP page has entered FAULT (R372). -/
def Block.viral (b : Block) (port : Nat) : Bool := decide (b.pageState (pCxp port) = 4)

/-- CXL_LINK_CHANGE (R385, R523): the link of a port goes up or down; at OFF it stays down. -/
def cxlLinkChange (port : Nat) (up : Bool) (width rate : Nat) (b : Block) : Block :=
  let p := pCxp port
  let up := up && decide (b.pageState p ≠ 0)
  let was := decide (b.fld p 0x100 8 1 = 1)
  let b := b.put p 0x100 (if up then width % 32 + rate % 8 * 32 + 256 else 0)
  if up ≠ was then b.raiseInt p 16 else b

/-- CXL_LINK_CHANGE. -/
def execCxlLinkChange (port : Fin 2) (up : Bool) (width : BitVec 5) (rate : BitVec 3) (s : State) : Result :=
  .next (s.on (cxlLinkChange port.val up width.toNat rate.toNat))

/-- The number by which `Config.mailbox` knows a supported command. -/
def mailboxNumber : MailboxCmd → Option Nat
  | .identify => some 0
  | .supportedLogs => some 1
  | .getLog => some 2
  | .healthInfo => some 3
  | .other _ => none

/-- MAILBOX_COMMAND (R372): a supported command is answered, its bytes not being stated; any other is not supported. -/
def mailboxCommand (port ld : Nat) (c : MailboxCmd) (b : Block) : Block :=
  if !b.running (pCxp port) then b
  else match mailboxNumber c with
  | some n => { b with free := b.free + 1, out := { b.out with cxl := some (Config.mailbox n (16 * port + ld) b.free) } }
  | none => { b with out := { b.out with cxl := none } }

/-- MAILBOX_COMMAND. -/
def execMailboxCommand (port : Fin 2) (ld : Fin 16) (command : MailboxCmd) (s : State) : Result :=
  .next (s.on (mailboxCommand port.val ld.val command))

/-- LD_BINDING (R372, R385). -/
def execLdBinding (port : Fin 2) (ld : Fin 16) (bound : Bool) (s : State) : Result :=
  .next (s.on (fun b => b.setFld (pCxp port.val) 0x104 ld.val 1 (if bound then 1 else 0)))

/-! ## Write-back (R360, R377) -/

/-- An item that holds what its flash copy holds: its mirror is freed. -/
def Tier.clean (t : Tier) : Tier := { t with dirty := false, mirror := none }

/-- The newest push of a layer. -/
def Block.layer (b : Block) (object layer : Nat) : Option Layer :=
  b.layers.find? (fun l => decide (l.object = object ∧ l.layer = layer))

/-- A page queued for class 3, unless it waits or is being programmed already. -/
def Block.queueBack (b : Block) (what : WriteWhat) (data : Bytes) : Block :=
  if (b.ftl.programs.map (·.write) ++ b.ftl.writes).any (fun w => decide (w.what = what)) then b else b.queueWrite what data

/-- DIRTY_WRITE_BACK (R360): a dirty item's bytes go to flash in class 3; it waits while no flash write can start (R391). -/
def dirtyWriteBack (item : DirtyRef) (b : Block) : Block :=
  if b.noWrites then b
  else match item with
  | .poolPage region page version =>
    match b.region region with
    | none => b
    | some r =>
      match r.map.find? (fun p => decide (p.page = page) && p.tier.dirty && !p.tier.lost) with
      | some p =>
        if r.current ≠ version then b
        else b.queueBack (.poolBack region p.version page) (Memory.read p.data 0 poolPageBytes)
      | none => b
  | .stateTile object layer tile =>
    match (b.layer object layer).bind (fun l => l.tiles[tile]?.map (fun t => (l, t))) with
    | some (l, t) => if t.tier.dirty ∧ !t.tier.lost then b.queueBack (.stateBack object layer l.gen tile) t.data else b
    | none => b

/-- DIRTY_WRITE_BACK. -/
def execDirtyWriteBack (item : DirtyRef) (s : State) : Result := .next (s.on (dirtyWriteBack item))

/-- A published page has been written back, and its mirror is freed; DURABLE may rise (R360, R377). -/
def Block.poolWritten (b : Block) (region version page : Nat) : Block :=
  let hit (p : PoolPage) : Bool := decide (p.page = page ∧ p.version = version) && p.tier.dirty && !p.tier.lost
  match b.region region with
  | none => b
  | some r =>
    if !r.map.any hit then b
    else
      let map : List PoolPage := mapIf hit (fun p => { p with tier := p.tier.clean }) r.map
      (b.setRegion region (fun r => ({ r with map := map } : Region).settle)).bump (pCxp 0) 6 poolPageBytes

/-- A state tile has been written back: it stays in DRAM as a clean copy, and its mirror is freed (R360). -/
def Block.stateWritten (b : Block) (object layer gen tile : Nat) : Block :=
  let hit (t : StateTile) : Bool := t.tier.dirty && !t.tier.lost
  match b.layer object layer with
  | none => b
  | some l =>
    if l.gen ≠ gen ∨ !(l.tiles[tile]?).any hit then b
    else
      let clean (l : Layer) : Layer := { l with tiles := l.tiles.mapIdx (fun i t =>
        if i = tile then { t with tier := t.tier.clean } else t) }
      let mine (x : Layer) : Bool := decide (x.object = object ∧ x.layer = layer)
      ({ b with layers := mapIf mine clean b.layers } : Block).addCopy (.state object layer gen tile)

/-! ## Context state (R365 to R369) -/

/-- The last written-back generation of a layer (R498). -/
def Layer.written (l : Layer) : Option (Nat × Nat × List Bytes) :=
  if l.tiles.all (fun t => !t.tier.dirty) then some (l.gen, l.prio, l.tiles.map (·.data)) else l.saved

/-- A layer's base pointer swapped to new tiles; the generation rises by 1 (R366). -/
def Block.swapLayer (b : Block) (l : Layer) : Block :=
  let gen := match b.layer l.object l.layer with | some o => (o.gen + 1) % 2 ^ 32 | none => 1
  let saved : Option (Nat × Nat × List Bytes) := (b.layer l.object l.layer).bind Layer.written
  let ls : List Layer := { l with gen := gen, saved := saved } ::
    b.layers.filter (fun x => !decide (x.object = l.object ∧ x.layer = l.layer))
  ({ b with layers := ls } : Block).uncache (fun k => match k with
    | .state o y g _ => decide (o = l.object ∧ y = l.layer ∧ g ≠ gen)
    | _ => false)

/-- STATE_PUSH (R366, R369): its tiles lie in the DRAM tier, mirrored, clean items being evicted for them, and are written to flash
before it ends where DURABLE asks for it, or written through to flash alone where that tier runs short (R361, R362). -/
def statePush (id : Nat) (b : Block) : Block :=
  b.admitCmd id 0x54 [0, 1] (fun c b =>
    let n := c.param 32 13
    if c.resValid ∨ !c.payValid ∨ c.param 10 6 ≠ 0 ∨ c.param 16 11 ≠ 0 ∨ c.param 27 5 ≠ 0 ∨ c.param 48 80 ≠ 0 ∨
        c.pay.len < n * 16384 then b.finish id stBadCommand
    else if n = 0 ∨ 4096 < n ∨ b.flashRoom < n then b.finish id stOutOfRange
    else if !b.running pFtl then b.finish id stDisabled
    else
      let through := b.dramShort (n * 32768)
      let b := b.countInput c (n * 16384)
      let data := (List.range n).map (fun i => b.readInput c (i * 16384) 16384)
      let durable := decide (c.param 47 1 = 1) || through
      let (tiles, b) := data.foldl (fun (r : List StateTile × Block) bs =>
        let t := r.2.freshTier
        (snoc r.1 { data := bs, tier := t }, { r.2 with free := r.2.free + 1 })) ([], b)
      let l : Layer := { object := c.object, layer := c.param 0 10, gen := 0, prio := c.param 45 2, tiles := tiles }
      if !durable then ((b.evict (n * 32768)).swapLayer l).finish id stOk { lateOk := false }
      else if b.noWrites then b.finish id stTierFault
      else
        let b := { b with pushes := snoc b.pushes { cmd := id, layer := l, left := List.range n, through := through } }
        (List.range n).foldl (fun b i =>
          b.queueWrite (.stateTile l.object l.layer id i) ((data[i]?).getD [])) b)

/-- STATE_PUSH. -/
def execStatePush (cmd : Nat) (s : State) : Result := .next (s.on (statePush cmd))

/-- A tile of a durable push has been programmed; with the last one, the layer is swapped, unless the deadline has passed
(R366, R369); its tiles stay in DRAM too, unless they were written through. -/
def Block.tileProgrammed (b : Block) (id tile : Nat) : Block :=
  match b.pushes.find? (fun (p : PushRun) => decide (p.cmd = id) && decide (tile ∈ p.left)) with
  | none => b
  | some p =>
    let left := p.left.erase tile
    if left ≠ [] then
      { b with pushes := mapIf (fun (q : PushRun) => decide (q.cmd = id)) (fun q => { q with left := left }) b.pushes }
    else if (match b.cmd id with | some c => b.passed c.deadline | none => false) then b.finish id stLate
    else
      let clean (t : StateTile) : StateTile := { t with tier := t.tier.clean }
      let l : Layer := { p.layer with tiles := p.layer.tiles.map clean, push := some id }
      let b := ({ b with pushes := b.pushes.filter (fun q => decide (q.cmd ≠ id)) } : Block).swapLayer l
      let gen := ((b.layer l.object l.layer).map (·.gen)).getD 0
      let b := if p.through then b
        else (List.range l.tiles.length).foldl (fun b i => b.addCopy (.state l.object l.layer gen i)) b
      b.finish id stOk { lateOk := false }

/-- The 64 B layer header of a fetch (R367). -/
def layerHeader (l : Layer) : Bytes := padTo (toLe l.tiles.length 4 ++ toLe l.gen 4) 64

/-- Where flash has a clean tile of a layer. -/
def Block.stateSite (b : Block) (l : Layer) (i : Nat) : Option (StripeRow × Member) :=
  match l.tiles[i]? with
  | some t => if t.tier.dirty then none else b.pageSite (fun w => match w with
      | .stateTile o k c j => decide (o = l.object ∧ k = l.layer ∧ j = i ∧ l.push = some c)
      | .stateBack o k g j => decide (o = l.object ∧ k = l.layer ∧ j = i ∧ g = l.gen)
      | _ => false)
  | none => none

/-- A tile of a layer as the DRAM tier knows a clean copy of it. -/
def Layer.key (l : Layer) (i : Nat) : CacheKey := .state l.object l.layer l.gen i

/-- A layer that cannot be read: a tile is lost, or DRAM holds none of it and its page cannot be read (R195, R371, R394). -/
def Block.layerLost (b : Block) (l : Layer) : Bool :=
  l.tiles.any (fun t => t.tier.lost) ||
  (List.range l.tiles.length).any (fun i => !b.cached (l.key i) &&
    (match b.stateSite l i with | some x => !b.pageReadable x | none => false))

/-- A layer read: a tile that is clean and not in DRAM comes from flash in class 2, which stages it (R185, R360, R368). -/
def Block.readLayer (b : Block) (l : Layer) : Block :=
  (List.range l.tiles.length).foldl (fun b i =>
    if (l.tiles[i]?).any (fun t => t.tier.dirty) then b else b.fetchTile (l.key i) (b.stateSite l i)) b

/-- STATE_FETCH (R367, R369). -/
def stateFetch (id : Nat) (b : Block) : Block :=
  b.admitCmd id 0x55 [0, 1] (fun c b =>
    let first := c.param 0 10
    let n := c.param 16 11
    let ls := (span first n).map (b.layer c.object)
    let got := ls.filterMap (fun l => l)
    let bytes := got.foldl (fun k l => k + 64 + 16384 * l.tiles.length) 0
    if c.payValid ∨ !c.resValid ∨ c.param 10 6 ≠ 0 ∨ c.param 27 5 ≠ 0 ∨ c.param 32 13 ≠ 0 ∨ c.param 48 80 ≠ 0 ∨
        (first + n ≤ 1024 ∧ c.res.len < bytes) then b.finish id stBadCommand
    else if n = 0 ∨ 1024 < n ∨ 1024 < first + n ∨ ls.any (·.isNone) then b.finish id stOutOfRange
    else if b.lacksLease c then b.finish id stNoLease
    else if !b.running pFtl then b.finish id stDisabled
    else if got.any b.layerLost then b.finish id stTierFault
    else
      let b := ((span first (n + 1)).filterMap (b.layer c.object)).foldl Block.readLayer b
      let all := got.flatMap (fun l => layerHeader l ++ l.tiles.flatMap (·.data))
      (b.writeResult id 0 all).finish id stOk { count := got.foldl (fun k l => k + l.tiles.length) 0 })

/-- STATE_FETCH. -/
def execStateFetch (cmd : Nat) (s : State) : Result := .next (s.on (stateFetch cmd))

/-! ## Stack failure (R370, R371) -/

/-- MEM ROLE of a stack changed. -/
def Block.setRole (b : Block) (n role : Nat) : Block :=
  let b := (b.setFld (pMem n) 0x104 0 3 role).raiseInt (pMem n) 16
  if role = 3 then b.forceBand (pMem n) else b

/-- What a further failure leaves of a dirty item's two copies: nothing, both, or one without a mirror; a copy that S8 is about
to take over is left to the rebuild (R371). -/
def Block.afterFailure (b : Block) (t : Tier) : Tier :=
  if !t.dirty ∨ t.lost then t
  else
    let waits (n : Nat) : Bool := decide (b.roles.spare = 2) && decide (b.roles.standFor = some n)
    let gone (n : Nat) : Bool := decide (n ∈ b.deadStacks)
    match t.mirror with
    | none => if gone t.stack then { t with lost := true } else t
    | some m =>
      if gone t.stack ∧ gone m then { t with lost := true }
      else if gone t.stack then (if waits t.stack then t else { t with stack := m, mirror := none })
      else if gone m then (if waits m then t else { t with mirror := none })
      else t

/-- Dirty items without a mirror mirrored again in the stacks that remain, clean items being evicted, as far as there is
room (R371). -/
def Block.remirror (b : Block) : Block :=
  b.mapTiersAcc (fun room t =>
    if t.dirty ∧ !t.lost ∧ t.mirror = none ∧ 0 < room ∧ (b.otherStack t.stack).isSome
    then (room - 1, { t with mirror := b.otherStack t.stack }) else (room, t)) b.dramRoom

/-- The DRAM tier after a failure: lost items are counted (CXP.LOST), and the others are mirrored again. -/
def Block.settleItems (b : Block) : Block :=
  let was := b.dirtyItems.length
  let b := b.mapTiers b.afterFailure
  let lost := was - b.dirtyItems.length
  let b := { b.remirror.evict 0 with free := b.free + 1 }
  if lost = 0 then b else (b.bump32 (pCxp 0) 0x120 lost).raiseErr (pCxp 0) 18

/-- The work of a failed stack ends TIER_FAULT: the searches of its sweeps, but for shortlists that are on their way to the
controller, and its requests (R21, R169). -/
def Block.leaveStack (b : Block) (n : Nat) : Block :=
  let waiting := (b.stack n).waiting
  let b := b.setStack n { b.stack n with waiting := [] }
  let hit := nub (((b.stack n).sweeps.filter (fun w => decide (w.state ≠ .returning))).map (·.ctx))
  let b := hit.foldl (fun b c => b.failCtx c stTierFault) b
  waiting.foldl (fun b r => b.faultCmd r.cmd) b

/-- The tiles of a failed stack read from flash in class 2, to be staged into S8 (R200, R370). -/
def Block.readStack (b : Block) (n : Nat) : Block :=
  (b.dramTiles.filter (fun t => decide (t.stack = n))).foldl (fun b t =>
    match (b.index t.index).version t.version with
    | some v => b.readHome (b.tileSite v t.tile) (some (t.index, t.version, t.tile))
    | none => b) b

/-- STACK_FAILURE (R370, R371). -/
def stackFailure (n : Nat) (b : Block) : Block :=
  if n ∈ b.deadStacks then b
  else
    let b := (b.setRole n 3).raiseErr (pMem n) 18
    let b := b.leaveStack n
    if n = 8 then
      let was := b.roles.spare
      let b := { b with roles := { b.roles with spare := 3 } }
      if was = 1 then b else b.settleItems
    else if b.roles.spare = 1 then
      let roles : Roles := { failed := n :: b.roles.failed, spare := 2, standFor := some n }
      let b := { b with roles := roles }
      (((b.setRole 8 2).setFld (pMem 8) 0x104 4 4 n).readStack n).evict 0
    else { b with roles := { b.roles with failed := n :: b.roles.failed } }.settleItems

/-- STACK_FAILURE. -/
def execStackFailure (stack : Fin 9) (s : State) : Result := .next (s.on (stackFailure stack.val))

/-- SPARE_REBUILD_END (R370): S8 becomes ACTIVE in the place of the failed stack. -/
def spareRebuildEnd (b : Block) : Block :=
  match b.roles.spare, b.roles.standFor with
  | 2, some n =>
    let move (x : Nat) : Nat := if x = n then 8 else x
    let b := b.mapTiers (fun t => { t with stack := move t.stack, mirror := t.mirror.map move })
    let k := b.stack n
    let b := (b.setStack 8 { b.stack 8 with rows := k.rows }).setStack n { fenced := k.fenced }
    let part (d : DramPart) : DramPart :=
      { d with segments := d.segments.map (fun g => { g with stack := move g.stack }) }
    let tiles := b.dramTiles.map (fun t => { t with stack := move t.stack })
    let b := { b with dramParts := b.dramParts.map part, dramTiles := tiles, roles := { b.roles with spare := 0 } }
    b.setRole 8 0
  | _, _ => b

/-- SPARE_REBUILD_END. -/
def execSpareRebuildEnd (s : State) : Result := .next (s.on spareRebuildEnd)

end Sys2Proof.Machine
end

