-- ==== Sys2Proof/Machine/Tables.lean ====
section
/-! DEFINITION. The table store (chapter 13). Its rows: TBL_GATHER, TBL_PREFETCH, TBL_SCATTER_SET, TBL_SCATTER_ADD,
TBL_SWITCH_PUBLISH, TBL_SWITCH_DEFINE, TBL_SWITCH_DROP, TENTATIVE_RECORDS, COMMIT, TABLE_REQUEST, PF_HOLD_EXPIRY. -/

namespace Sys2Proof.Machine

/-! ## Rows as bytes (R322, R333) -/

/-- An element of EFMT converted exactly to binary32 (R333). -/
def elemOf (f v : Nat) : F32 :=
  match f with
  | 1 => BitVec.ofNat 32 v
  | 2 => bf16 (BitVec.ofNat 16 v)
  | 3 => fp16 v
  | 4 => e4m3 v
  | 5 => e5m2 v
  | _ => numTo32 .int8 v

/-- A binary32 value converted to EFMT (R312, R333). -/
def elemBits (f : Nat) (x : F32) : Nat :=
  match f with
  | 1 => if f32Real x = .nan then nan32.toNat else x.toNat
  | 2 => toBf16 x
  | 3 => toFp16 x
  | 4 => toE4m3 x
  | 5 => toE5m2 x
  | _ => toInt8 x

/-- The elements of a row. -/
def rowElems (f : Nat) (bs : Bytes) : List F32 :=
  (List.range (bs.length / efmtSize f)).map (fun e => elemOf f (le bs (e * efmtSize f) (efmtSize f)))

/-- A row folded with its records in ascending update ID (R333). -/
def foldRow (f : Nat) (row : Bytes) (recs : List ScatterRec) : Bytes :=
  if f = 0 then recs.foldl (fun a r => if r.add then a else r.data) row
  else
    let a := recs.foldl (fun a r => if r.add then List.zipWith add32 a (rowElems f r.data) else rowElems f r.data) (rowElems f row)
    a.flatMap (fun x => toLe (elemBits f x) (efmtSize f))

/-- Update IDs in order (R332). -/
def updateIdLt (x y : ScatterRec) : Bool :=
  decide (x.origin < y.origin) || (decide (x.origin = y.origin) && (decide (x.seq < y.seq) ||
    (decide (x.seq = y.seq) && decide (x.pos < y.pos))))

/-- The rows held of a version. -/
def Table.rowsOf (t : Table) (v : Nat) : List (Nat × Bytes) :=
  match t.versions.find? (fun (x : TblVersion) => decide (x.version = v)) with | some x => x.rows | none => []

/-- The version that follows CURRENT, holding CURRENT's rows until it is folded (R324, R333). -/
def Table.openRows (t : Table) (v : Nat) : Table :=
  if t.versions.any (fun x => decide (x.version = v)) then t
  else { t with versions := { version := v, rows := if v = t.current + 1 then t.rowsOf t.current else [] } :: t.versions }

/-- Rows of a version replaced; a row of zeros is not listed. -/
def Table.putRows (t : Table) (v : Nat) (l : List (Nat × Bytes)) : Table :=
  let old := (t.rowsOf v).filter (fun r => !l.any (fun e => decide (e.1 = r.1)))
  let new := l.filter (fun e => e.2.any (fun x => decide (x ≠ 0)))
  let x : TblVersion := { version := v, rows := old ++ new }
  { t with versions := x :: t.versions.filter (fun y => decide (y.version ≠ v)) }

/-- Rows as a message carries them: each row's number and bytes. -/
def rowsData (l : List (Nat × Bytes)) : Bytes := l.flatMap (fun e => toLe e.1 4 ++ e.2)

/-- The rows a message carries. -/
def readRows (rowBytes : Nat) (bs : Bytes) : List (Nat × Bytes) :=
  (List.range (bs.length / (4 + rowBytes))).map (fun i =>
    (le bs (i * (4 + rowBytes)) 4, slice bs (i * (4 + rowBytes) + 4) rowBytes))

/-- Numbers of 4 bytes that a message carries. -/
def readNums (bs : Bytes) : List Nat := (List.range (bs.length / 4)).map (fun i => le bs (4 * i) 4)

/-! ## Reading rows (R326 to R330, R344, R345) -/

/-- The tiles of some rows that flash has read, each once: those that DRAM does not hold in class 2 (R185). -/
def Block.readRows (b : Block) (t : Table) (version : Nat) (rows : List Nat) : Block :=
  let tiles := nub (rows.filterMap (fun x => (b.rowSite t version x).map (fun s => (b.rowKey t version x, s))))
  tiles.foldl (fun b x => b.fetchTile x.1 (some x.2)) b

/-- A row kept in DRAM for a prefetch from now on: one kept already is kept longer; one whose tile is not there is brought from
flash; none where the tier runs short for its tile (R330, R362). The count is of rows staged. -/
def Block.stageRow (r : TableReq) (a : Block × Nat) (row : Nat) : Block × Nat :=
  let (b, n) := a
  match b.tableOf r.table with
  | none => a
  | some t =>
    let again := t.held.any (fun h => decide (h.1 = row ∧ h.2.1 = r.version))
    if !b.rowInDram t r.version row ∧ b.dramShort 16384 then a
    else
      let b := b.readRows t r.version [row]
      let b := b.setTable r.table (fun t =>
        { t with held := snoc (t.held.filter (fun h => !decide (h.1 = row ∧ h.2.1 = r.version))) (row, r.version, b.meter) })
      (if again then b else b.bump pTbl 5, n + 1)

/-- Rows staged into the DRAM tier for a prefetch as far as it has room, and how many (R330). -/
def Block.stageRows (b : Block) (r : TableReq) (rows : List Nat) : Block × Nat := rows.foldl (Block.stageRow r) (b, 0)

/-- The rows of a request that this place serves, and how many of them a prefetch has staged; those of an item in CUTOVER are
held (R344). -/
def Block.serveTable (b : Block) (r : TableReq) : Block × List Nat × Nat :=
  let item (k : Nat) : ItemRef := .rowBlock r.table k
  let moving (k : Nat) : Bool := (b.movingOut (fun i => decide (i = item k))).isSome
  let mine := r.rows.filter (fun x => b.holdsRow r.table x && !moving (rowBlock x))
  let held := r.rows.filter (fun x => moving (rowBlock x))
  let inBlock (l : List Nat) (k : Nat) : List Nat := l.filter (fun x => decide (rowBlock x = k))
  let b : Block := (nub (held.map rowBlock)).foldl (fun b k => b.holdReq (item k) (.table { r with rows := inBlock held k }) b.meter) b
  if r.prefetch then
    let (b, n) := b.stageRows r mine
    (b, mine, n)
  else
    let b : Block := (nub (mine.map rowBlock)).foldl (fun b k => b.countWork (item k) (inBlock mine k).length) b
    let b : Block := match b.tableOf r.table with
      | some t => b.readRows t r.version mine
      | none => b
    let b := b.setTable r.table (fun t =>
      { t with held := t.held.filter (fun h => !decide (h.1 ∈ mine ∧ h.2.1 = r.version)) })
    (b.bump pTbl 0 mine.length, mine, 0)

/-- Rows of a request that this place neither holds nor is moving, by owner. -/
def Block.elsewhere (b : Block) (table : Nat) (rows : List Nat) : List (Nat × List Nat) :=
  let out := rows.filter (fun x => !b.holdsRow table x)
  let owner (x : Nat) : Nat := b.blockOwner table (rowBlock x)
  (nub (out.map owner)).map (fun p => (p, out.filter (fun x => decide (owner x = p))))

/-- A gather or prefetch whose rows have all come ends, or, where some could not be had, with the first status of R329 that holds
(R327, R329, R330). -/
def Block.settleGather (b : Block) (id : Nat) : Block :=
  match b.gathers.find? (fun g => decide (g.cmd = id)) with
  | some g =>
    if g.left ≠ [] then b
    else if g.failed ≠ 0 then b.finish id g.failed
    else b.finish id stOk { count := if g.prefetch then g.staged else g.rows.length }
  | none => b

/-- Rows of a gather or prefetch that cannot be had: it goes on with the others, whose owners may have an earlier row of R329. -/
def Block.failRows (b : Block) (id : Nat) (rows : List Nat) (st : Nat) : Block :=
  let f (g : Gather) : Gather :=
    { g with left := g.left.filter (fun x => !decide (x ∈ rows)), failed := firstStatus gatherOrder g.failed st }
  ({ b with gathers := mapIf (fun (g : Gather) => decide (g.cmd = id)) f b.gathers }).settleGather id

/-- Rows arrived for a gather, or staged for a prefetch: written at every place of the list that names them (R327,
R328). -/
def Block.gatherRows (b : Block) (id : Nat) (l : List (Nat × Bytes)) (staged : Nat) : Block :=
  match b.gathers.find? (fun g => decide (g.cmd = id)) with
  | none => b
  | some g =>
    let got (x : Nat) : Bool := l.any (fun e => decide (e.1 = x))
    let b : Block := if g.prefetch then b else
      (List.range g.rows.length).foldl (fun b i =>
        match l.find? (fun e => decide (some e.1 = g.rows[i]?)) with
        | some e => b.writeResult id (i * g.stride) (padTo e.2 g.stride)
        | none => b) b
    let f (g : Gather) : Gather := { g with left := g.left.filter (fun x => !got x), staged := g.staged + staged }
    ({ b with gathers := mapIf (fun (g : Gather) => decide (g.cmd = id)) f b.gathers }).settleGather id

/-- The checks of R329 that need no other place, in order. -/
def gatherCheck (b : Block) (c : Cmd) (prefetch : Bool) (rows : List Nat) : Option Nat :=
  let n := c.param 32 17
  let t := b.tableOf c.object
  let ver (t : Table) : Nat := if c.param 0 32 = 0 then t.current else c.param 0 32
  if !c.payValid ∨ c.resValid = prefetch ∨ c.param 49 79 ≠ 0 ∨ c.pay.len < 4 * n then some stBadCommand
  else if !prefetch && (match t with | some t => decide (c.res.len < n * t.stride) | none => false) then some stBadCommand
  else if 1023 < c.object ∨ n = 0 ∨ 65536 < n then some stOutOfRange
  else match t with
  | none => some stStale
  | some t =>
    if rows.any (fun r => decide (t.rows ≤ r)) then some stOutOfRange
    else if !t.bindable (ver t) then some stStale
    else none

/-- TBL_GATHER and TBL_PREFETCH admitted (R326 to R330): rows held here are served at once, the others asked of their
owners; those whose owner's place has no module, or that cannot be read here, fail. -/
def gatherStart (prefetch : Bool) (id : Nat) (b : Block) : Block :=
  b.admitCmd id (if prefetch then 0x34 else 0x30) [0, 1] (fun c b =>
    let rows := (List.range (c.param 32 17)).map (fun i => le (b.readInput c (4 * i) 4) 0 4)
    match gatherCheck b c prefetch rows, b.tableOf c.object with
    | some st, _ => b.finish id st
    | none, none => b.finish id stStale
    | none, some t =>
      let v := if c.param 0 32 = 0 then t.current else c.param 0 32
      let away (x : Nat) : Bool := !b.placeReady (b.blockOwner c.object (rowBlock x))
      let lost (x : Nat) : Bool := !away x && b.holdsRow c.object x && b.rowLost t v x
      let asked := (nub rows).filter (fun x => !away x && !lost x)
      let b := b.countInput c (4 * rows.length)
      let g : Gather := { cmd := id, table := c.object, version := v, prefetch := prefetch, rows := rows, stride := t.stride,
                          left := nub rows }
      let b := { b with gathers := snoc b.gathers g }
      let r : TableReq := { fromPlace := b.place, tag := id, table := c.object, version := v, prefetch := prefetch, rows := asked
                            budget := BitVec.ofNat 24 (shardBudget (b.remaining c) (b.fld (pQpl 0) 0x108 0 16)) }
      let (b, mine, staged) := b.serveTable r
      let b : Block := (b.elsewhere c.object r.rows).foldl (fun b e =>
        (b.send { toward := .place e.1, cls := 4, kind := .tableRequest, args := [id],
                  body := .forward (.table { r with rows := e.2 }), deadline := c.deadline }).bump pTbl 1 e.2.length) b
      let b := b.gatherRows id (mine.map (fun x => (x, t.row v x))) staged
      let b := if rows.any lost then b.failRows id (rows.filter lost) stTierFault else b
      if rows.any away then b.failRows id (rows.filter away) stPeerLost else b)

/-- TBL_GATHER and TBL_PREFETCH: started when handed; later events bring the owners' replies, which carry rows with
their numbers, or the numbers of rows staged or found unstageable and how many were staged, or those of rows that failed. -/
def gatherRow (prefetch : Bool) (id : Nat) (replies : List PeerReply) (b : Block) : Block :=
  match b.cmd id with
  | none => b
  | some c =>
    if c.phase = .handed then gatherStart prefetch id b
    else if c.phase = .working ∧ c.opcode = (if prefetch then 0x34 else 0x30) then
      (replies.filter (fun r => decide (r.place ≠ b.place))).foldl (fun b r =>
        if r.status.toNat ≠ stOk then b.failRows id (readNums r.data) r.status.toNat
        else match b.tableOf c.object with
        | none => b
        | some t =>
          if prefetch then b.gatherRows id ((readNums r.data).map (fun x => (x, []))) r.num
          else b.gatherRows id (readRows t.rowBytes r.data) 0) b
    else b

/-- TBL_GATHER (R327). -/
def execTblGather (cmd : Nat) (replies : List PeerReply) (s : State) : Result := .next (s.on (gatherRow false cmd replies))
/-- TBL_PREFETCH (R330). -/
def execTblPrefetch (cmd : Nat) (replies : List PeerReply) (s : State) : Result := .next (s.on (gatherRow true cmd replies))

/-- The answer of an owner or replica to a table request: rows with their numbers, or the numbers of the rows staged. -/
def Block.answerTable (b : Block) (r : TableReq) (t : Table) (mine : List Nat) (staged : Nat) : Block :=
  if mine = [] then b
  else if r.fromPlace = b.place then b.gatherRows r.tag (mine.map (fun x => (x, t.row r.version x))) staged
  else
    let data : Bytes := if r.prefetch then mine.flatMap (fun x => toLe x 4) else rowsData (mine.map (fun x => (x, t.row r.version x)))
    b.send { toward := .place r.fromPlace, cls := 4, kind := .tableRows, args := [r.tag, stOk, staged], data := data }

/-- Rows of a request that fail at this place: its origin is told which. -/
def Block.refuseRows (b : Block) (r : TableReq) (rows : List Nat) (st : Nat) : Block :=
  if r.fromPlace = b.place then b.failRows r.tag rows st
  else b.send { toward := .place r.fromPlace, cls := 4, kind := .tableRows, args := [r.tag, st, 0], data := rows.flatMap (fun x => toLe x 4) }

/-- TABLE_REQUEST (R327, R330): another place's request served at an owner or replica; rows that this place does not hold
are forwarded one hop (R342), and those that cannot be read fail TIER_FAULT (R329). -/
def tableRequest (r : TableReq) (b : Block) : Block :=
  match b.tableOf r.table with
  | none => b.refuseRows r r.rows stStale
  | some t =>
    if !b.running pTbl then b.refuseRows r r.rows stDisabled
    else if !t.versions.any (fun v => decide (v.version = r.version)) then b.refuseRows r r.rows stTierFault
    else
      let lost (x : Nat) : Bool := b.holdsRow r.table x && b.rowLost t r.version x
      let bad := r.rows.filter lost
      let r : TableReq := { r with rows := r.rows.filter (fun x => !lost x) }
      let b := if bad = [] then b else b.refuseRows r bad stTierFault
      let (b, mine, staged) := b.serveTable r
      let b : Block := (b.elsewhere r.table r.rows).foldl (fun b e => b.forward e.1 (.table { r with rows := e.2 })) b
      b.answerTable r t mine staged

/-- TABLE_REQUEST. -/
def ownTableRequest (req : TableReq) (s : State) : Result :=
  .next (s.on (fun b => if req.fromPlace = b.place then b else tableRequest req b))

/-- PF_HOLD_EXPIRY (R330): a prefetched row that no gather has read for PF_HOLD loses its hold. -/
def pfHoldExpiry (table row : Nat) (b : Block) : Block :=
  let limit := b.fld pTbl 0x104 0 16 * 100
  b.setTable table (fun t => { t with held := t.held.filter (fun h => !decide (h.1 = row ∧ h.2.2 + limit ≤ b.meter)) })

/-- PF_HOLD_EXPIRY. -/
def execPfHoldExpiry (table row : Nat) (s : State) : Result := .next (s.on (pfHoldExpiry table row))

/-! ## Scattering (R331 to R337) -/

/-- The row numbers of a scatter's payload. -/
def scatterNums (b : Block) (c : Cmd) (n : Nat) : List Nat := (List.range n).map (fun i => le (b.readInput c (4 * i) 4) 0 4)

/-- The checks of R336 at the origin, in order. -/
def scatterCheck (b : Block) (c : Cmd) (add : Bool) (rows : List Nat) : Option Nat :=
  let n := c.param 32 17
  let t := b.tableOf c.object
  let stride := match t with | some t => t.stride | none => 0
  let noAdd := match t with | some t => decide (t.efmt = 0 ∨ 4 ≤ t.efmt) | none => false
  if !c.payValid ∨ c.param 49 79 ≠ 0 ∨ c.pay.len < roundUp (4 * n) 64 + n * stride ∨ (c.resValid ∧ c.res.len < 64) ∨
      (add && noAdd) then some stBadCommand
  else if 1023 < c.object ∨ n = 0 ∨ 65536 < n then some stOutOfRange
  else match t with
  | none => some stStale
  | some t =>
    if rows.any (fun r => decide (t.rows ≤ r)) then some stOutOfRange
    else if t.dropping ∨ c.param 0 32 ≠ t.openV then some stStale
    else none

/-- The origin sequence of a table and step (R332). -/
def Block.nextSeq (b : Block) (table step : Nat) : Nat :=
  ((b.seqs.find? (fun e => decide (e.1 = (table, step)))).map (·.2)).getD 0

/-- A scatter all of whose owners have answered ends where one has failed, with the first status of R336 that holds. -/
def Block.settleScatter (b : Block) (id : Nat) : Block :=
  match b.scatters.find? (fun x => decide (x.cmd = id)) with
  | some x => if x.left = [] ∧ x.failed ≠ 0 then b.finish id x.failed else b
  | none => b

/-- Row blocks of a scatter whose owner has failed: it waits for the others, whose answers may have an earlier row of R336. -/
def Block.failBlocks (b : Block) (id : Nat) (blocks : List Nat) (st : Nat) : Block :=
  let f (x : Scatter) : Scatter :=
    { x with left := x.left.filter (fun k => !decide (k ∈ blocks)), failed := firstStatus scatterOrder x.failed st }
  ({ b with scatters := mapIf (fun (x : Scatter) => decide (x.cmd = id)) f b.scatters }).settleScatter id

/-- A scatter admitted at its origin: it takes its sequence, and its records go to their owners, as far as their places have a module
(R332, R334 step 1). -/
def scatterStart (add : Bool) (id : Nat) (b : Block) : Block :=
  b.admitCmd id (if add then 0x32 else 0x31) [0, 1] (fun c b =>
    let n := c.param 32 17
    let rows := scatterNums b c n
    match scatterCheck b c add rows, b.tableOf c.object with
    | some st, _ => b.finish id st
    | none, none => b.finish id stStale
    | none, some t =>
      let b := b.countInput c c.pay.len
      let step := c.param 0 32
      let seq := b.nextSeq c.object step
      let l : List ((Nat × Nat) × Nat) := ((c.object, step), (seq + 1) % 2 ^ 32) :: b.seqs.filter (fun e => !decide (e.1 = (c.object, step)))
      let rec_ (i : Nat) : ScatterRec :=
        { origin := b.fld pGlb 0x110 0 12, seq := seq, pos := i, row := rows.getD i 0, add := add,
          data := b.readInput c (roundUp (4 * n) 64 + i * t.stride) t.rowBytes }
      let recs := (List.range n).map rec_
      let owner (r : ScatterRec) : Nat := b.blockOwner c.object (rowBlock r.row)
      let owners := nub (recs.map owner)
      let x : Scatter := { cmd := id, table := c.object, step := step, records := n, owners := owners, left := nub (rows.map rowBlock) }
      let b := { b with seqs := l, scatters := snoc b.scatters x }
      let away := owners.filter (fun p => !b.placeReady p)
      let b := (owners.filter b.placeReady).foldl (fun b p =>
        let m : TentativeMsg := { table := c.object, step := step, fromPlace := b.place, tag := id,
                                  records := recs.filter (fun r => decide (owner r = p)) }
        b.send { toward := .place p, cls := 4, kind := .tentative, args := [id], body := .forward (.records m),
                 deadline := c.deadline }) b
      if away = [] then b
      else b.failBlocks id ((recs.filter (fun r => decide (owner r ∈ away))).map (fun r => rowBlock r.row)) stPeerLost)

/-- A reply to the origin of a scatter: row blocks whose records are durable, or one that was forwarded, or those that failed. -/
def Block.scatterReply (b : Block) (id place st num : Nat) (blocks : List Nat) : Block :=
  match b.scatters.find? (fun x => decide (x.cmd = id)) with
  | none => b
  | some _ =>
    let f (x : Scatter) : Scatter :=
      if st = stOk then { x with left := x.left.filter (fun k => !decide (k ∈ blocks)), owners := nub (snoc x.owners place) }
      else { x with moved := snoc x.moved (num % 2 ^ 24, num / 2 ^ 24 % 64), movedMap := num / 2 ^ 32 }
    if st = stOk ∨ st = stMoved then
      ({ b with scatters := mapIf (fun (x : Scatter) => decide (x.cmd = id)) f b.scatters }).settleScatter id
    else b.failBlocks id blocks st

/-- TBL_SCATTER_SET and TBL_SCATTER_ADD: started when handed; later events bring the owners' replies. -/
def scatterRow (add : Bool) (id : Nat) (replies : List PeerReply) (b : Block) : Block :=
  match b.cmd id with
  | none => b
  | some c =>
    if c.phase = .handed then scatterStart add id b
    else if c.phase = .working ∧ c.opcode = (if add then 0x32 else 0x31) then
      (replies.filter (fun r => decide (r.place ≠ b.place))).foldl (fun b r =>
        b.scatterReply id r.place r.status.toNat r.num (readNums r.data)) b
    else b

/-- TBL_SCATTER_SET (R334). -/
def execTblScatterSet (cmd : Nat) (replies : List PeerReply) (s : State) : Result := .next (s.on (scatterRow false cmd replies))
/-- TBL_SCATTER_ADD (R334). -/
def execTblScatterAdd (cmd : Nat) (replies : List PeerReply) (s : State) : Result := .next (s.on (scatterRow true cmd replies))

/-- A reply of this place as owner to a scatter's origin. -/
def Block.replyScatter (b : Block) (toward tag st num : Nat) (blocks : List Nat) : Block :=
  if toward = b.place then b.scatterReply tag b.place st num blocks
  else b.send { toward := .place toward, cls := 4, kind := .tentativeHeld, args := tag :: st :: num :: blocks }

/-- Groups of tentative records that are durable reply to their origins (R334 step 2). -/
def Block.settleTents (b : Block) (table : Nat) : Block :=
  match b.tableOf table with
  | none => b
  | some t =>
    let ready := t.groups.filter (fun g => decide (g.pages = [] ∧ g.await = []))
    let here (p : PendRec) : Bool := ready.any (fun g => decide (g.step = p.step ∧ g.fromPlace = p.fromPlace ∧ g.tag = p.tag))
    let b := b.setTable table (fun t =>
      { t with groups := t.groups.filter (fun g => !decide (g ∈ ready)),
               pending := mapIf here (fun p => { p with durable := true }) t.pending })
    ready.foldl (fun b g => b.replyScatter g.fromPlace g.tag stOk 0 g.blocks) b

/-- A page of tentative records programmed. -/
def Block.tentProgrammed (b : Block) (table page : Nat) : Block :=
  (b.setTable table (fun t => { t with groups := t.groups.map (fun g => { g with pages := g.pages.filter (fun p => decide (p ≠ page)) }) })).settleTents table

/-- A page of tentative records held whole by a parity place. -/
def Block.tentHeld (b : Block) (table page place : Nat) : Block :=
  (b.setTable table (fun t => { t with groups := t.groups.map (fun g =>
    { g with await := g.await.filter (fun e => !decide (e = (page, place))) }) })).settleTents table

/-- The bytes of a tentative record in a log page. -/
def recBytes (r : ScatterRec) : Bytes :=
  toLe r.origin 2 ++ toLe r.seq 4 ++ toLe r.pos 4 ++ toLe r.row 4 ++ toLe (if r.add then 1 else 0) 2 ++ r.data

/-- Records made durable as log pages: queued for programming and sent to their parity places (R230, R334). -/
def Block.logTentative (b : Block) (m : TentativeMsg) (mine : List ScatterRec) : Block :=
  let bytes := mine.flatMap recBytes
  let cs := chunks 16384 (bytes.length + 1) bytes
  let first := b.nextId
  let pages := span first cs.length
  let g : TentGroup := { step := m.step, fromPlace := m.fromPlace, tag := m.tag, blocks := nub (mine.map (fun r => rowBlock r.row)),
                         pages := pages,
                         await := pages.flatMap (fun p => (b.parityPlaces (pageKey (16 + m.table) p)).map (fun q => (p, q))) }
  let b := b.setTable m.table (fun t => { t with groups := snoc t.groups g })
  (List.range cs.length).foldl (fun b i =>
    let bs := (cs.getD i [])
    let b := ({ b with nextId := b.nextId + 1 } : Block).queueWrite (.scatter m.table (first + i)) bs
    (b.parityPlaces (pageKey (16 + m.table) (first + i))).foldl (fun b p =>
      b.send { toward := .place p, cls := 5, kind := .logCopy, args := [16 + m.table, first + i], data := bs }) b) b

/-- TENTATIVE_RECORDS at an owner (R334 step 2, R336): records are kept once by update ID, those of an item in CUTOVER
are held, and those of a block it does not own are forwarded and their scatter told MOVED (R345). -/
def tentativeRecords (m : TentativeMsg) (b : Block) : Block :=
  let fail (st : Nat) (b : Block) : Block := b.replyScatter m.fromPlace m.tag st 0 (nub (m.records.map (fun r => rowBlock r.row)))
  match b.tableOf m.table with
  | none => fail stStale b
  | some t =>
    let item (k : Nat) : ItemRef := .rowBlock m.table k
    let block (r : ScatterRec) : Nat := rowBlock r.row
    let owner (r : ScatterRec) : Nat := b.blockOwner m.table (block r)
    let moving (r : ScatterRec) : Bool := (b.movingOut (fun i => decide (i = item (block r)))).isSome
    let known (r : ScatterRec) : Bool := t.pending.any (fun p =>
      decide (p.step = m.step ∧ p.item.origin = r.origin ∧ p.item.seq = r.seq ∧ p.item.pos = r.pos))
    let mine := m.records.filter (fun r => decide (owner r = b.place) && !moving r && !known r)
    let held := m.records.filter (fun r => decide (owner r = b.place) && moving r)
    let out := m.records.filter (fun r => decide (owner r ≠ b.place))
    if t.dropping ∨ m.step ≠ t.openV then fail stStale b
    else if 16777216 < t.pending.length + mine.length then fail stOutOfRange (b.raiseErr pTbl 17 (if m.records.any (·.add) then 0x32 else 0x31))
    else if !b.running pTbl then fail stDisabled b
    else if !b.joined ∨ b.noWrites then fail stTierFault b
    else
      let part (l : List ScatterRec) (k : Nat) : ForwardReq := .records { m with records := l.filter (fun r => decide (block r = k)) }
      let b : Block := (nub (held.map block)).foldl (fun b k => b.holdReq (item k) (part held k) b.meter) b
      let b : Block := (nub (out.map block)).foldl (fun b k =>
        let p := b.blockOwner m.table k
        let b := b.setTable m.table (fun t => { t with passed := nub (snoc t.passed (m.fromPlace, m.tag, p)) })
        (b.forward p (part out k)).replyScatter m.fromPlace m.tag stMoved (k + p * 2 ^ 24 + b.get pPlc 0x114 * 2 ^ 32) []) b
      if mine = [] then b
      else
        let new : List PendRec := mine.map (fun r => { step := m.step, item := r, fromPlace := m.fromPlace, tag := m.tag })
        let b := b.setTable m.table (fun t => { t with pending := t.pending ++ new })
        let b : Block := (nub (mine.map block)).foldl (fun b k =>
          b.countWork (item k) (mine.filter (fun r => decide (block r = k))).length) b
        let b := if t.pending.length ≤ 12582912 ∧ 12582912 < t.pending.length + mine.length then b.raiseInt pTbl 17 else b
        b.logTentative m mine

/-- The rows owned here that committed records of the SEALED version name. -/
def Table.foldRows (t : Table) (own : Nat → Bool) : List Nat :=
  nub ((t.pending.filter (fun r => decide (r.step = t.current + 1) && own (rowBlock r.item.row) && r.committed)).map (fun r => r.item.row))

/-- Every committed record of the SEALED version for the rows owned here folded into it, and the count kept (R333, R339
step 2). -/
def Table.fold (t : Table) (own : Nat → Bool) : Table × Nat :=
  let p := t.current + 1
  let mine (r : PendRec) : Bool := decide (r.step = p) && own (rowBlock r.item.row)
  let recs := t.pending.filter (fun r => mine r && r.committed)
  let new := (t.foldRows own).map (fun r =>
    (r, foldRow t.efmt (t.row t.current r) (sortBy updateIdLt ((recs.filter (fun x => decide (x.item.row = r))).map (·.item)))))
  let t := { t with pending := t.pending.filter (fun r => !mine r) }
  ((t.openRows p).putRows p new, recs.length)

/-! ## Switches at their keeper (R338 to R341) -/

/-- The keeper of a table (R338). -/
def Block.tableKeeper (b : Block) (t : Nat) : Nat :=
  match b.tableOf t with | some x => x.keeper | none => b.pickPlace (Config.keeperOf (16 + t))

/-- One switch changed. -/
def Block.setTbl (b : Block) (id : Nat) (f : TblSwitch → TblSwitch) : Block :=
  { b with tblSwitches := mapIf (fun (r : TblSwitch) => decide (r.id = id)) f b.tblSwitches }

/-- A switch ended: the outcome goes to the command, or to the place that asked. -/
def Block.answerTbl (b : Block) (r : TblSwitch) (st count : Nat) : Block :=
  let b := { b with tblSwitches := b.tblSwitches.filter (fun x => decide (x.id ≠ r.id)) }
  match r.cmd with
  | some id => b.finish id st { count := count, lateOk := false }
  | none => b.send { toward := .place r.fromPlace, cls := 4, kind := .tableSwitched, args := [r.tag, r.table, st, count] }

/-- The swap of a publish applied at this place (R339 step 4). -/
def Block.swapTable (b : Block) (table p : Nat) : Block :=
  match b.tableOf table with
  | none => b
  | some t =>
    if t.current + 1 ≠ p ∨ !t.sealing then b
    else
      let b := b.setTable table (fun t => { t with
        current := p, sealing := false, folded := none, sealFor := none, pending := t.pending.filter (fun r => decide (p < r.step)) })
      ((b.bump pTbl 4).raiseInt pTbl 16).reapTables

/-- The number of an action in PARAMS. -/
def actionNumber : TblAction → Nat | .publish => 0 | .define => 1 | .drop => 2

/-- The keeper's order for a step of a switch to every other place. -/
def Block.orderTbl (b : Block) (r : TblSwitch) (swap : Bool) : Block :=
  b.others.foldl (fun b p => b.send { toward := .place p, cls := if r.data = [] then 4 else 6, kind := .tableSwitch,
                                      args := [r.id, r.table, r.expect, actionNumber r.action, if swap then 1 else 0], data := r.data }) b

/-- The next step of a switch once every place has done the present one. -/
def Block.advanceTbl (b : Block) (id : Nat) : Block :=
  match b.tblSwitches.find? (fun r => decide (r.id = id)) with
  | none => b
  | some r =>
    if r.left ≠ [] ∨ !r.begun then b
    else if r.lost then b.answerTbl r stPeerLost 0
    else if r.action = .publish ∧ !r.swap then
      let b := (b.swapTable r.table (r.expect + 1)).orderTbl r true
      let others := b.others
      if others = [] then b.answerTbl r stOk (min r.folded 0xFFFFFFFF) else b.setTbl id (fun r => { r with swap := true, left := others })
    else b.answerTbl r stOk (if r.action = .publish then min r.folded 0xFFFFFFFF else 0)

/-- A place's reply to the present step of the switch begun for a table. -/
def Block.replyTbl (b : Block) (table place st num : Nat) : Block :=
  match b.tblSwitches.find? (fun r => decide (r.table = table) && r.begun) with
  | none => b
  | some r =>
    if !decide (place ∈ r.left) then b
    else if st ≠ stOk then b.answerTbl r st 0
    else
      let f (r : TblSwitch) : TblSwitch :=
        { r with left := r.left.erase place, folded := if r.swap then r.folded else r.folded + num }
      (b.setTbl r.id f).advanceTbl r.id

/-- This place's reply to a keeper. -/
def Block.answerKeeper (b : Block) (keeper tag table st num : Nat) : Block :=
  if keeper = b.place then b.replyTbl table b.place st num
  else b.send { toward := .place keeper, cls := 4, kind := .tableSwitched, args := [tag, table, st, num] }

/-- A row block of a table is in CUTOVER with this place as a party (R344). -/
def Block.tableCutover (b : Block) (table : Nat) : Bool :=
  b.plc.moves.any (fun m => decide (m.phase = .cutover) && decide (m.source = b.place ∨ m.dest = b.place) &&
    (match m.item with | .rowBlock t _ => decide (t = table) | .shard _ _ => false))

/-- Folded rows of replicated blocks, those that are zero now among them, sent to their replicas (R339 step 3). -/
def Block.sendReplicas (b : Block) (t : Table) (p : Nat) (rows : List Nat) : Block :=
  (b.plc.copies.filter (fun c => decide (c.1.1 = t.number))).foldl (fun b c =>
    b.send { toward := .place c.2, cls := 4, kind := .replicaRows, args := [t.number, p, c.1.2, 0],
             data := rowsData ((rows.filter (fun r => decide (rowBlock r = c.1.2))).map (fun r => (r, t.row p r))) }) b

/-- A sealed version folded at this place once none of its tentative records is undecided, but for a row that cannot be read
(R340); the row tiles that it changes are queued for flash, and the keeper is told the count (R322, R339 steps 2 and 3). -/
def Block.tryFold (b : Block) (table : Nat) : Block :=
  match b.tableOf table with
  | none => b
  | some t =>
    match t.sealing, t.sealFor, t.folded with
    | true, some (k, tag), some n => (b.setTable table (fun t => { t with sealFor := none })).answerKeeper k tag table stOk n
    | true, some (k, tag), none =>
      let p := t.current + 1
      let own (k : Nat) : Bool := decide (b.blockOwner table k = b.place)
      let mine (r : PendRec) : Bool := decide (r.step = p) && own (rowBlock r.item.row)
      if t.pending.any (fun r => mine r && !r.committed) then b
      else if t.pending.any (fun r => mine r && b.rowLost t t.current r.item.row) then
        (b.setTable table (fun t => { t with sealFor := none })).answerKeeper k tag table stTierFault 0
      else
        let (t', n) := t.fold own
        let rows := t.foldRows own
        let rpt := rowsPerTile t.rowBytes
        let b := (b.setTable table (fun _ => { t' with folded := some n, sealFor := none })).bump pTbl 3 n
        let b : Block := (nub (rows.map (· / rpt))).foldl (fun b i =>
          b.queueWrite (.fold table p ((span (i * rpt) rpt).filter (fun r => decide (r < t.rows) && own (rowBlock r)))) (t'.rowTile p i)) b
        (b.sendReplicas t' p rows).answerKeeper k tag table stOk n
    | _, _, _ => b

/-- A seal that waited for a CUTOVER taken up (R339 step 1, R344). -/
def Block.trySeal (b : Block) (table : Nat) : Block :=
  if b.tableCutover table then b
  else (b.setTable table (fun t => if t.sealFor.isSome then { t with sealing := true } else t)).tryFold table

/-- A keeper's seal order at this place; one that reaches a TBL that is not RUNNING ends DISABLED (R33, R354). -/
def Block.sealTable (b : Block) (table expect keeper tag : Nat) : Block :=
  match b.tableOf table with
  | none => b.answerKeeper keeper tag table stStale 0
  | some t =>
    if t.current = expect + 1 then b.answerKeeper keeper tag table stOk 0
    else if t.current ≠ expect ∨ t.dropping then b.answerKeeper keeper tag table stStale 0
    else if !b.running pTbl then b.answerKeeper keeper tag table stDisabled 0
    else (b.setTable table (fun t => { t with sealFor := some (keeper, tag) })).trySeal table

/-- The definition block (R321). -/
structure TblDef where
  efmt : Nat
  prio : Nat
  retain : Nat
  rows : Nat
  rowBytes : Nat
  extents : Nat
  wrong : Bool          -- MAGIC, LAYOUT or a reserved field
deriving DecidableEq, Repr

/-- The fields of a definition block (R321). -/
def parseDef (h : Bytes) : TblDef :=
  { efmt := nbits (le h 6 1) 0 3, prio := nbits (le h 6 1) 3 2, retain := nbits (le h 6 1) 5 3, rows := le h 8 4,
    rowBytes := le h 12 2, extents := le h 14 2,
    wrong := decide (le h 0 4 ≠ 0x5A495442 ∨ le h 4 2 ≠ 1 ∨ le h 7 1 ≠ 0 ∨ le h 16 48 ≠ 0) }

/-- Tiles of version 1 (R322). -/
def TblDef.tiles (d : TblDef) : Nat := (d.rows + rowsPerTile d.rowBytes - 1) / rowsPerTile d.rowBytes

/-- The extents that follow a definition block (R322). -/
def defExtents (m : Bytes) (d : TblDef) : List Extent := (List.range d.extents).map (manifestExtent m 64)

/-- The rows of a table that its tiles hold. -/
def tileRows (d : TblDef) (tile : Nat) (t : Bytes) : List (Nat × Bytes) :=
  let rpt := rowsPerTile d.rowBytes
  ((List.range rpt).map (fun i => (tile * rpt + i, slice t (64 + i * d.rowBytes) d.rowBytes))).filter (fun r => decide (r.1 < d.rows))

/-- A definition placed at this place: the table, version 1 of the rows it owns, and a home copy of their tiles that do
not lie in a sealed zone already (R321, R322, R398). The keeper is told once the home copies are sealed. -/
def Block.defineTable (b : Block) (table : Nat) (data : Bytes) (keeper tag : Nat) : Block :=
  let n := le data 0 4
  let m := slice data 4 n
  let d := parseDef m
  let l := defExtents m d
  let tile (t : Nat) : Bytes := slice data (4 + n + t * tileBytes) tileBytes
  let own (r : Nat × Bytes) : Bool := decide (b.blockOwner table (rowBlock r.1) = b.place)
  let nums := if d.extents = 0 then [] else (List.range d.tiles).filter (fun t => (tileRows d t (tile t)).any own)
  let new := nums.filter (fun t => l.any (fun e => decide (e.first ≤ t ∧ t < e.first + e.count ∧ e.source ≠ 2)))
  let t : Table := { number := table, efmt := d.efmt, prio := d.prio, retain := d.retain, rows := d.rows, rowBytes := d.rowBytes,
                     keeper := keeper, versions := [⟨1, []⟩], defineFor := some (keeper, tag),
                     owners := b.places, extents := l }
  let t := t.putRows 1 (nums.flatMap (fun k => (tileRows d k (tile k)).filter own))
  let b := { b with tables := snoc b.tables t }
  (b.homeTiles .table table 1 (new.map (fun k => (k, tile k)))).raiseInt pTbl 16

/-- A definition whose home copies are sealed reported to its keeper. -/
def Block.settleDefine (b : Block) (table : Nat) : Block :=
  match (b.tableOf table).bind (·.defineFor) with
  | some (k, tag) =>
    if b.homeSealed .table table 1 then (b.setTable table (fun t => { t with defineFor := none })).answerKeeper k tag table stOk 0 else b
  | none => b

/-- A drop applied at this place: the table is DROPPING and its pending records go, and scatters admitted here that have not
committed end STALE (R336); it is freed once nothing is bound to it, and its keeper is told (R341). -/
def Block.dropTable (b : Block) (table keeper tag : Nat) : Block :=
  match b.tableOf table with
  | none => b.answerKeeper keeper tag table stOk 0
  | some _ =>
    if !b.running pTbl then b.answerKeeper keeper tag table stDisabled 0
    else
      let scatter (id : Nat) : Bool := match b.cmd id with | some c => decide (c.opcode = 0x31 ∨ c.opcode = 0x32) | none => false
      let ids := (b.scatters.filter (fun x => decide (x.table = table) && scatter x.cmd)).map (·.cmd)
      let b := b.finishAll ids stStale
      let gone : List LostPage := b.ftl.gone.filter (fun x => match x with | .row t _ _ => decide (t ≠ table) | _ => true)
      (({ b with ftl := { b.ftl with gone := gone } } : Block).setTable table (fun t =>
        { t with dropping := true, pending := [], groups := [], passed := [], dropFor := some (keeper, tag) })).reapTables

/-- A step of a switch at this place as its keeper orders it. -/
def Block.stepTbl (b : Block) (action : TblAction) (table expect keeper tag : Nat) (data : Bytes) : Block :=
  match action with
  | .publish => b.sealTable table expect keeper tag
  | .define =>
    if (b.tableOf table).isSome then b.answerKeeper keeper tag table stStale 0
    else if !b.running pTbl then b.answerKeeper keeper tag table stDisabled 0
    else (b.defineTable table data keeper tag).settleDefine table
  | .drop => b.dropTable table keeper tag

/-- What the keeper finds when it begins a switch: STALE, or it goes on (R340). -/
def Block.tblStale (b : Block) (r : TblSwitch) : Bool :=
  match r.action, b.tableOf r.table with
  | .define, t => t.isSome
  | _, none => true
  | _, some t => t.dropping || decide (t.current ≠ r.expect)

/-- The keeper begins the first switch of a table that waits, one at a time in the order they came (R338). A PUBLISH is sealed at every
place that has a module, and ends PEER_LOST with P SEALED where another has none (R339, R340). -/
def Block.beginTbl (b : Block) (table : Nat) : Block :=
  match b.tblSwitches.find? (fun r => decide (r.table = table)) with
  | none => b
  | some r =>
    if r.begun then b
    else if b.passed r.deadline then b.answerTbl r stLate 0
    else if b.tblStale r then b.answerTbl r stStale 0
    else if r.action ≠ .publish ∧ !b.places.all b.placeReady then b.answerTbl r stPeerLost 0
    else
      let places := b.places.filter b.placeReady
      let lost := !b.places.all b.placeReady
      let b := (b.setTbl r.id (fun r => { r with begun := true, left := places, lost := lost })).orderTbl r false
      (b.stepTbl r.action table r.expect b.place r.id r.data).advanceTbl r.id

/-- The switches of a table that wait begun in their order, until one is at work (R338). -/
def Block.nextTbl (b : Block) (table : Nat) : Block :=
  (b.tblSwitches.filter (fun r => decide (r.table = table))).foldl (fun b _ => b.beginTbl table) b

/-- A step of a switch that could not be done before; where that ends the switch, the next one begins. -/
def Block.thenNext (b : Block) (table : Nat) (f : Block → Block) : Block :=
  if (f b).tblSwitches.length < b.tblSwitches.length then (f b).nextTbl table else f b

/-- A fold that may run once a record of the SEALED version is decided (R339). -/
def Block.foldNext (b : Block) (table : Nat) : Block := b.thenNext table (fun b => b.tryFold table)

/-- A switch that reaches its keeper (R338, R340). -/
def Block.askTbl (b : Block) (r : TblSwitch) : Block :=
  let busy := decide (r.action = .publish) && b.tblSwitches.any (fun x => decide (x.table = r.table ∧ x.action = .publish))
  let b := { b with tblSwitches := snoc b.tblSwitches r }
  if busy then b.answerTbl r stStale 0 else b.nextTbl r.table

/-- The checks of R340 where a switch is admitted, in order. -/
def switchCheck (b : Block) (c : Cmd) (action : TblAction) (m : Bytes) : Option Nat :=
  let def_ := decide (action = .define)
  let d := parseDef m
  let l := defExtents m d
  let sized := decide (8 ≤ d.rowBytes ∧ d.rowBytes ≤ 16384)
  let badDef : Bool := d.wrong || decide (d.efmt = 7) || decide (d.rowBytes % 8 ≠ 0) ||
    decide (d.rowBytes % efmtSize d.efmt ≠ 0) || decide (c.pay.len < 64 + 32 * d.extents) ||
    (decide (d.extents ≠ 0) && (l.any (fun e => decide (e.source = 3)) || (sized && !covers l d.tiles) ||
      b.badDma l || b.badZone l))
  if c.param 34 94 ≠ 0 ∨ c.param 32 2 = 3 ∨ c.resValid ∨ c.payValid ≠ def_ ∨ (def_ ∧ c.param 0 32 ≠ 0) ∨
      (def_ ∧ c.pay.len < 64) then some stBadCommand
  else if def_ && badDef then some stBadCommand
  else if 1023 < c.object ∨ (def_ ∧ (d.rows = 0 ∨ !sized ∨ 4 < d.retain ∨ 4096 < d.extents)) then some stOutOfRange
  else none

/-- TBL_SWITCH where it was admitted: checked, and put in its keeper's order; later events bring the keeper's outcome. -/
def tblSwitchOwn (action : TblAction) (id : Nat) (replies : List PeerReply) (b : Block) : Block :=
  match b.cmd id with
  | none => b
  | some c =>
    if c.phase = .handed ∧ (c.param 32 2 = actionNumber action ∨ c.param 32 2 = 3) then
      b.admitCmd id 0x33 [0, 1] (fun c b =>
        let m : Bytes := if c.payValid then b.readInput c 0 c.pay.len else []
        let b := if c.payValid then b.countInput c c.pay.len else b
        match switchCheck b c action m with
        | some st => b.finish id st
        | none =>
          let d := parseDef m
          let def_ := decide (action = .define)
          let tile := b.sourceTile (defExtents m d)
          let bad := def_ && decide (d.extents ≠ 0) && (b.tableOf c.object).isNone &&
            !(List.range d.tiles).all (fun t => match tile t with | some x => tileOk x | none => false)
          if bad then (b.raiseErr pTbl 16 c.opcode).finish id stTierFault
          else
            let data : Bytes := if def_ then mountData m (if d.extents = 0 then 0 else d.tiles) tile else []
            let keeper := b.tableKeeper c.object
            let (n, b) := b.fresh
            let r : TblSwitch := { id := n, cmd := some id, fromPlace := b.place, tag := id, table := c.object, action := action,
                                   expect := c.param 0 32, deadline := c.deadline, data := data }
            if keeper = b.place then b.askTbl r
            else b.send { toward := .place keeper, cls := 4, kind := .tableSwitch,
                          args := [id, c.object, c.param 0 32, actionNumber action, b.remaining c], data := data })
    else if c.phase = .working ∧ c.opcode = 0x33 ∧ c.param 32 2 = actionNumber action then
      match b.tblSwitches.find? (fun r => decide (r.cmd = some id)) with
      | some r => b.nextTbl r.table
      | none => match replies.find? (fun r => decide (r.place = b.tableKeeper c.object ∧ r.place ≠ b.place)) with
        | some r => b.finish id r.status.toNat { count := r.num, lateOk := false }
        | none => b
    else b

/-- A row block's bytes freed at this place, unless it owns the block, or is to (R344, R350). -/
def Block.dropRows (b : Block) (t k : Nat) : Block :=
  if b.blockOwner t k = b.place ∨ b.plc.moves.any (fun m => decide (m.item = .rowBlock t k ∧ m.dest = b.place)) then b
  else b.setTable t (fun x => { x with versions := x.versions.map (fun v =>
    { v with rows := v.rows.filter (fun r => decide (rowBlock r.1 ≠ k)) }) })

/-- A word about a replica of a row block (R350): 0 rows of a version, which the owner has folded; 1 the same, the last of those that
make the replica, which serves from now on; 2 its owner drops it; 3 the sending place has dropped its own. -/
def Block.replicaWord (b : Block) (o : PeerOrder) : Block :=
  let k := o.params % 2 ^ 24
  let here := (o.object, k)
  let without : List (Nat × Nat) := b.plc.replicas.filter (fun e => !decide (e = here))
  match nbits o.params 24 2 with
  | 2 => ({ b with plc := { b.plc with replicas := without } } : Block).dropRows o.object k
  | 3 =>
    let copies : List ((Nat × Nat) × Nat) := b.plc.copies.filter (fun e => !decide (e = (here, o.fromPlace)))
    ({ b with plc := { b.plc with copies := copies } } : Block).bump pPlc 6 (b.plc.copies.length - copies.length)
  | n =>
    let l : List (Nat × Nat) := if n = 1 then here :: without else b.plc.replicas
    ({ b with plc := { b.plc with replicas := l } } : Block).setTable o.object (fun t =>
      (t.openRows o.version).putRows o.version (Sys2Proof.Machine.readRows t.rowBytes o.data))

/-- An item as another place names it: 0 and a table, or 1 and an index, and its row block or shard. -/
def readItem (bs : Bytes) (off : Nat) : ItemRef :=
  if le bs off 1 = 0 then .rowBlock (le bs (off + 1) 2) (le bs (off + 3) 4) else .shard (le bs (off + 1) 2) (le bs (off + 3) 4)

/-- What another place tells of its items, 12 bytes each: the work of its last complete load window, and replicas (R358). -/
def Block.placementWord (b : Block) (p : Nat) (data : Bytes) : Block :=
  let new := (List.range (data.length / 12)).map (fun i => (p, readItem data (12 * i), le data (12 * i + 7) 4, le data (12 * i + 11) 1))
  { b with plc := { b.plc with far := new ++ b.plc.far.filter (fun e => decide (e.1 ≠ p)) } }

/-- A message about a switch from another place, told apart by its PARAMS: with bit 127 a place's reply to the step its
keeper is at (status in the low byte, records folded as `version`); with bit 126 a keeper's order, bit 40 naming the
swap; with bit 125 a word about a replica of the row block in [23:0], told apart in [25:24] (`replicaWord`); with bit 124 that no
command at the sending place is bound to `version` any more (R325); with bit 123 the sending place's loads and replicas (R358); else
a switch asked of this place as keeper, its remaining budget in bits [95:72]. -/
def tblSwitchOrder (action : TblAction) (o : PeerOrder) (b : Block) : Block :=
  if nbits o.params 127 1 = 1 then (b.replyTbl o.object o.fromPlace (o.params % 256) o.version).nextTbl o.object
  else if nbits o.params 126 1 = 1 then
    if nbits o.params 40 1 = 1 then (b.swapTable o.object (o.version + 1)).answerKeeper o.fromPlace o.tag o.object stOk 0
    else b.stepTbl action o.object o.version o.fromPlace o.tag o.data
  else if nbits o.params 125 1 = 1 then b.replicaWord o
  else if nbits o.params 124 1 = 1 then
    (b.setTable o.object (fun t => { t with unbound := nub (snoc t.unbound (o.version, o.fromPlace)) })).reapTables
  else if nbits o.params 123 1 = 1 then b.placementWord o.fromPlace o.data
  else if b.tableKeeper o.object ≠ b.place then b
  else
    let (n, b) := b.fresh
    let budget := nbits o.params 72 24
    b.askTbl { id := n, cmd := none, fromPlace := o.fromPlace, tag := o.tag, table := o.object, action := action,
               expect := o.version, deadline := deadlineOf b.meter budget, data := o.data }

/-- TBL_SWITCH with one ACTION. -/
def tblSwitch (action : TblAction) (part : CmdPart) (b : Block) : Block :=
  match part with | .own id replies => tblSwitchOwn action id replies b | .order o => tblSwitchOrder action o b

/-- TBL_SWITCH_PUBLISH (R339). -/
def execTblSwitchPublish (part : CmdPart) (s : State) : Result := .next (s.on (tblSwitch .publish part))
/-- TBL_SWITCH_DEFINE (R321, R340). -/
def ownTblSwitchDefine (part : CmdPart) (s : State) : Result := .next (s.on (tblSwitch .define part))
/-- TBL_SWITCH_DROP (R341). -/
def execTblSwitchDrop (part : CmdPart) (s : State) : Result := .next (s.on (tblSwitch .drop part))

/-! ## Tentative records and the commit (R334) -/

/-- The places to which undecided records of a scatter go from here, or have gone, with their row blocks or forwarded (R344,
R345). -/
def Block.relays (b : Block) (from_ tag : Nat) : List Nat :=
  let mine (p : PendRec) : Bool := decide (p.fromPlace = from_ ∧ p.tag = tag) && !p.committed
  nub (b.tables.flatMap (fun t =>
    (t.pending.filter mine).filterMap (fun p => b.movedTo (.rowBlock t.number (rowBlock p.item.row))) ++
    (t.passed.filter (fun e => decide (e.1 = from_ ∧ e.2.1 = tag))).map (·.2.2)))

/-- Tentative records of a scatter that has ended uncommitted go, also where they have moved to; a fold that waited for them may
run. -/
def discardRecords (m : TentativeMsg) (b : Block) : Block :=
  let b : Block := (b.relays m.fromPlace m.tag).foldl (fun b p =>
    b.send { toward := .place p, cls := 4, kind := .discardTentative, args := [16 + m.table, m.tag, m.fromPlace] }) b
  (b.discardHere m.table m.fromPlace m.tag).foldNext m.table

/-- TENTATIVE_RECORDS (R334): records for this place, or their origin's word that they are discarded, on which a fold that waited for
them may run; those of this module's own scatter only while it awaits them. -/
def ownTentativeRecords (msg : TentativeMsg) (s : State) : Result :=
  .next (s.on (fun b =>
    if msg.records = [] then if msg.fromPlace = b.place then b.foldNext msg.table else discardRecords msg b
    else if decide (msg.fromPlace = b.place) && !b.scatters.any (fun x => decide (x.cmd = msg.tag)) then b
    else tentativeRecords msg b))

/-- A scatter's records at this place committed, and the word passed on to where they have moved (R334 step 3, R345). -/
def Block.commitRecords (b : Block) (from_ tag : Nat) : Block :=
  let mine (p : PendRec) : Bool := decide (p.fromPlace = from_ ∧ p.tag = tag) && !p.committed
  let b : Block := (b.relays from_ tag).foldl (fun b p =>
    b.send { toward := .place p, cls := 4, kind := .commit, args := [tag, from_] }) b
  b.tables.foldl (fun b t =>
    let b := b.setTable t.number (fun t => { t with passed := t.passed.filter (fun e => !decide (e.1 = from_ ∧ e.2.1 = tag)) })
    let l := t.pending.filter mine
    let n := (l.filter (fun p => decide (b.blockOwner t.number (rowBlock p.item.row) = b.place))).length
    if l = [] then b
    else
      let b := (b.setTable t.number (fun t => { t with pending := mapIf mine (fun p => { p with committed := true }) t.pending })).bump pTbl 2 n
      b.foldNext t.number) b

/-- The moved header (R337). -/
def movedHeader (x : Scatter) : Bytes :=
  let l := x.moved.take 7
  padTo (toLe x.table 2 ++ toLe l.length 1 ++ toLe (if 7 < x.moved.length then 1 else 0) 1 ++ toLe x.movedMap 4 ++
    l.flatMap (fun e => toLe (e.1 + e.2 * 2 ^ 24) 8)) 64

/-- COMMIT at the origin (R334 steps 3 and 4): every owner has replied; the commit is recorded durably, for which writing must go
on (log 144), and sent, and the scatter completes, MOVED when a record of it was forwarded; RESULT_REF, where there is one, receives
the moved header either way (R331, R337). -/
def commitOwn (id : Nat) (b : Block) : Block :=
  match b.scatters.find? (fun x => decide (x.cmd = id)), b.cmd id with
  | some x, some c =>
    if x.left ≠ [] ∨ x.failed ≠ 0 ∨ b.noWrites then b
    else if b.passed c.deadline then b.finish id stLate
    else
      let b := { b with scatters := b.scatters.filter (fun y => decide (y.cmd ≠ id)) }
      let b := b.commitRecords b.place id
      let b : Block := (x.owners.filter (fun p => decide (p ≠ b.place))).foldl (fun b p =>
        b.send { toward := .place p, cls := 4, kind := .commit, args := [id, b.place], deadline := c.deadline }) b
      let b := if c.resValid then b.writeResult id 0 (movedHeader x) else b
      b.finish id (if x.moved = [] then stOk else stMoved) { count := x.records, lateOk := false }
  | _, _ => b

/-- COMMIT: of a scatter admitted here, or of another place's. -/
def execCommit (cmd : Nat) (origin : Option Nat) (s : State) : Result :=
  .next (s.on (fun b => match origin with
    | none => commitOwn cmd b
    | some p => if p = b.place then b else b.commitRecords p cmd))

/-! ## Work of TBL for other places (R354) -/

/-- A held request that is a table's. -/
def ofTable : ForwardReq → Bool | .table _ | .records _ => true | .shard _ | .deletions _ _ => false

/-- Scatters of other places that are not yet durable here, and steps of switches that other keepers have ordered (R354). -/
def Block.tableWork (b : Block) (t : Table) : Nat :=
  let asked (x : Option (Nat × Nat)) : Nat := match x with | some (k, _) => if k = b.place then 0 else 1 | none => 0
  (t.groups.filter (fun g => decide (g.fromPlace ≠ b.place))).length + asked t.sealFor + asked t.defineFor + asked t.dropFor

/-- The work that TBL does for other places ends with a status (R32); a drop under way goes on. -/
def Block.refuseTables (b : Block) (st : Nat) : Block :=
  let refuse (b : Block) (r : ForwardReq) : Block := match r with
    | .table q => b.refuseRows q q.rows st
    | .records m => b.replyScatter m.fromPlace m.tag st 0 (nub (m.records.map (fun r => rowBlock r.row)))
    | .shard _ | .deletions _ _ => b
  let held := b.plc.moves.flatMap (fun m => (m.held.map (·.1)).filter ofTable)
  let moves : List Migration := b.plc.moves.map (fun m => { m with held := m.held.filter (fun e => !ofTable e.1) })
  let b := held.foldl refuse { b with plc := { b.plc with moves := moves } }
  let b := b.tables.foldl (fun b t =>
    let b := (t.groups.filter (fun g => decide (g.fromPlace ≠ b.place))).foldl (fun b g =>
      (b.discardHere t.number g.fromPlace g.tag).replyScatter g.fromPlace g.tag st 0 g.blocks) b
    let b := match t.sealFor with
      | some (k, tag) => (b.setTable t.number (fun t => { t with sealFor := none })).answerKeeper k tag t.number st 0
      | none => b
    match t.defineFor with
    | some (k, tag) =>
      (({ b with tables := b.tables.filter (fun x => decide (x.number ≠ t.number)) } : Block).freeHome .table t.number 1).answerKeeper k tag t.number st 0
    | none => b) b
  (b.tblSwitches.filter (fun r => decide (r.cmd = none))).foldl (fun b r => b.answerTbl r st 0) b

/-! ## A place that leaves the rope (R329, R336, R340) -/

/-- Table work that waits for a place that has left the rope ends PEER_LOST, once nothing that may end it earlier in its table of
statuses is still to come; no command of that place is bound to a version any more (R325). -/
def Block.tablesLost (b : Block) (p : Nat) : Block :=
  let waits (t k : Nat) : Bool := decide (b.blockOwner t k = p)
  let gs := b.gathers.filter (fun g => g.left.any (fun r => waits g.table (rowBlock r)))
  let ss := b.scatters.filter (fun x => decide (p ∈ x.owners) || x.left.any (waits x.table))
  let ws := b.tblSwitches.filter (fun r => r.begun && (decide (p ∈ r.left) || (decide (r.action = .publish) && !r.swap)))
  let late (t : Table) : List (Nat × Nat) := (t.versions.filter (fun v => decide (v.version + t.retain < t.current))).map (fun v => (v.version, p))
  let asks := b.cmds.filter (fun c => decide (c.phase = .working ∧ c.opcode = 0x33 ∧ b.tableKeeper c.object = p) &&
    !b.tblSwitches.any (fun r => decide (r.cmd = some c.id)))
  let b := b.finishAll (asks.map (·.id)) stPeerLost
  let b := gs.foldl (fun b g => b.failRows g.cmd (g.left.filter (fun r => waits g.table (rowBlock r))) stPeerLost) b
  let b := ss.foldl (fun b x => b.failBlocks x.cmd (x.left.filter (waits x.table)) stPeerLost) b
  let b := ws.foldl (fun b r =>
    if r.action = .publish ∧ !r.swap then (b.setTbl r.id (fun r => { r with lost := true, left := r.left.erase p })).advanceTbl r.id
    else b.answerTbl r stPeerLost 0) b
  let b := ws.foldl (fun b r => b.nextTbl r.table) b
  ({ b with tables := b.tables.map (fun t => { t with unbound := nub (t.unbound ++ late t) }) } : Block).reapTables

end Sys2Proof.Machine
end

