-- ==== Sys2Proof/Machine/Placement.lean ====
section
/-! DEFINITION. The placement engine (R342 to R353, R356 to R358). Its rows: MIGRATION_START, COPY_END, CUTOVER,
CUTOVER_ACKNOWLEDGED, RETIRE_END, MIGRATION_ABANDON, FORWARDED_REQUEST, LOAD_WINDOW_END, Q_KEY_WRITE. -/

namespace Sys2Proof.Machine

/-! ## Phases (R349) -/

/-- Some place of the rope waits for a stand-in, or is rebuilt by one (R349, R442). -/
def Block.recovering (b : Block) : Bool := decide (b.rope.notReady ≠ []) || b.rope.members.any (fun m => b.rebuilt m.place)

/-- PLC.PHASE. -/
def Block.plcPhase (b : Block) : Nat :=
  (if b.plc.started then 0 else 1) + 2 * b.fld pPlc 0x104 1 1 + (if b.recovering then 4 else 0)

/-- PHASE_CHANGE raised when PHASE has changed. -/
def Block.notePhase (b : Block) : Block :=
  let n := b.plcPhase
  if n = b.plc.phase then b else { b with plc := { b.plc with phase := n } }.raiseInt pPlc 16

/-! ## Items and their owners (R342) -/

/-- The owner of an item in this module's map. -/
def Block.itemOwner (b : Block) (i : ItemRef) : Nat :=
  match i with | .rowBlock t k => b.blockOwner t k | .shard x s => b.placeOfShard x s

/-- The owner map changed. -/
def Block.setOwner (b : Block) (i : ItemRef) (p : Nat) : Block :=
  match i with
  | .rowBlock t k =>
    let l : List ((Nat × Nat) × Nat) := ((t, k), p) :: b.plc.blockMap.filter (fun e => !decide (e.1 = (t, k)))
    { b with plc := { b.plc with blockMap := l } }
  | .shard x s => { b with shardMap := ((x, s), p) :: b.shardMap.filter (fun e => !decide (e.1 = (x, s))) }

/-- The item exists: a row block of a defined table, or a shard of some version of an index. -/
def Block.itemDefined (b : Block) (i : ItemRef) : Bool :=
  match i with
  | .rowBlock t k => match b.tableOf t with | some x => decide (256 * k < x.rows) && !x.dropping | none => false
  | .shard x s => (b.index x).versions.any (fun v => decide (s ∈ v.shards))

/-- The migration of an item that is in progress. -/
def Block.moveOf (b : Block) (i : ItemRef) : Option Migration := b.plc.moves.find? (fun m => decide (m.item = i))

/-- A migration's phase changed. -/
def Block.setPhase (b : Block) (i : ItemRef) (p : MigPhase) : Block :=
  { b with plc := { b.plc with moves := mapIf (fun m => decide (m.item = i)) (fun m => { m with phase := p }) b.plc.moves } }

/-- A migration that has ended. -/
def Block.endMove (b : Block) (i : ItemRef) : Block :=
  { b with plc := { b.plc with moves := b.plc.moves.filter (fun m => !decide (m.item = i)) } }

/-- This place is source or destination of a migration. -/
def Block.party (b : Block) (m : Migration) : Bool := decide (m.source = b.place ∨ m.dest = b.place)

/-! ## What a copy carries (R344, R347) -/

/-- The copy of an item this place holds. -/
def Block.itemCopy (b : Block) (i : ItemRef) : ItemCopy :=
  match i with
  | .rowBlock t k =>
    match b.tableOf t with
    | none => ⟨[], [], []⟩
    | some x =>
      let rows := x.versions.flatMap (fun v => (v.rows.filter (fun r => decide (rowBlock r.1 = k))).map (fun r => (v.version, r.1, r.2)))
      let recs := (x.pending.filter (fun p => decide (rowBlock p.item.row = k))).map (fun p =>
        (({ table := t, step := p.step, fromPlace := p.fromPlace, tag := p.tag, records := [p.item] } : TentativeMsg), p.committed))
      ⟨rows, recs, []⟩
  | .shard x s =>
    let held (v : Version) (g : Nat) : Bool :=
      v.parts.any (fun p => decide (shardOf p.number = s) && decide (p.first ≤ g ∧ g < p.first + p.slots.length))
    ⟨[], [], (b.index x).versions.flatMap (fun v => (v.dels.filter (fun d => held v d.1)).map (fun d => (v.root.version, d.1, d.2)))⟩

/-- Rows of a table that some row blocks hold at this place, each once for all the versions that share it (R324). -/
def Table.rowsHeld (t : Table) (blocks : List Nat) : Nat :=
  let vs := (sortBy (fun (x y : TblVersion) => decide (x.version < y.version)) t.versions).map (fun v => v.rows)
  let row (l : List (Nat × Bytes)) (r : Nat) : Option (Nat × Bytes) := l.find? (fun e => decide (e.1 = r))
  let differ (x y : List (Nat × Bytes)) : Nat :=
    ((nub ((x ++ y).map (·.1))).filter (fun r => decide (rowBlock r ∈ blocks) && decide (row x r ≠ row y r))).length
  (blocks.map (fun k => min 256 (t.rows - 256 * k))).sum + ((vs.zip vs.tail).map (fun e => differ e.1 e.2)).sum

/-- Bytes of a copy: rows that versions share are copied once, and for a shard the codes of its partitions (R344). -/
def Block.copyBytes (b : Block) (i : ItemRef) (c : ItemCopy) : Nat :=
  let l := c.records.foldl (fun n m => n + (m.1.records.flatMap recBytes).length) 0 + 16 * c.dels.length
  match i with
  | .rowBlock t k => match b.tableOf t with | some x => l + x.rowsHeld [k] * x.rowBytes | none => l
  | .shard x s => (b.index x).versions.foldl (fun n v => v.parts.foldl (fun n p =>
      if shardOf p.number = s then n + p.slots.length * codeSize v.root.m p.code8 else n) n) l

/-- A copy or a log tail taken at the destination: the rows and records of a row block are those of the copy, of which those held
already are kept once, and PEND_HIGH is raised where they pass its mark; deletions are added, and a shard's partitions are read from
the version's tiles. -/
def Block.takeCopy (b : Block) (i : ItemRef) (c : ItemCopy) : Block :=
  match i with
  | .rowBlock t k =>
    let versions := nub (c.rows.map (·.1))
    let other (r : Nat) : Bool := decide (rowBlock r ≠ k)
    let clear (x : Table) : Table := let x := versions.foldl Table.openRows x; { x with
      versions := x.versions.map (fun v => { v with rows := v.rows.filter (fun r => other r.1) })
      pending := x.pending.filter (fun p => other p.item.row) }
    let put (x : Table) : Table := versions.foldl (fun (x : Table) v =>
      (x.openRows v).putRows v ((c.rows.filter (fun r => decide (r.1 = v))).map (·.2))) x
    let add (l : List PendRec) (m : TentativeMsg × Bool) : List PendRec :=
      m.1.records.foldl (fun (l : List PendRec) r =>
        let same (p : PendRec) : Bool := decide (p.step = m.1.step ∧ p.item.origin = r.origin ∧ p.item.seq = r.seq ∧ p.item.pos = r.pos)
        if l.any same then mapIf same (fun p => { p with committed := p.committed || m.2 }) l
        else snoc l { step := m.1.step, item := r, fromPlace := m.1.fromPlace, tag := m.1.tag, committed := m.2, durable := true }) l
    let take (x : Table) : Table := { put x with pending := c.records.foldl add x.pending }
    let pend (b : Block) : Nat := ((b.tableOf t).map (·.pending.length)).getD 0
    let b' := b.setTable t (fun x => take (clear x))
    if pend b ≤ 12582912 ∧ 12582912 < pend b' then b'.raiseInt pTbl 17 else b'
  | .shard x s =>
    let f (v : Version) : Version :=
      let new := ((directory v.tiles v.root).filter (fun e => decide (shardOf e.part = s) && (v.part e.part).isNone)).map (readPart v.tiles v.root)
      let dels := (c.dels.filter (fun d => decide (d.1 = v.root.version))).foldl (fun l d => addDel d.2.1 d.2.2 l) v.dels
      { v with parts := sortBy (fun p q => decide (p.number < q.number)) (v.parts ++ new), dels := dels }
    let ix := b.index x
    b.setIndex x { ix with versions := ix.versions.map f }

/-- An item's rows, records or tiles freed at this place, unless it holds a replica of the row block; a shard's deletions leave the
deletion maps with it (R104). -/
def Block.freeItem (b : Block) (i : ItemRef) : Block :=
  match i with
  | .rowBlock t k =>
    if (t, k) ∈ b.plc.replicas then b
    else
      let keep (r : Nat) : Bool := decide (rowBlock r ≠ k)
      let v (x : TblVersion) : TblVersion := { x with rows := x.rows.filter (fun r => keep r.1) }
      b.setTable t (fun x => { x with versions := x.versions.map v, pending := x.pending.filter (fun p => keep p.item.row) })
  | .shard x s =>
    let f (v : Version) : Version :=
      let parts := v.parts.filter (fun p => decide (shardOf p.number ≠ s))
      let own (g : Nat) : Bool := parts.any (fun p => decide (p.first ≤ g ∧ g < p.first + p.slots.length))
      { v with parts := parts, dels := v.dels.filter (fun d => own d.1) }
    let ix := b.index x
    let b := b.setIndex x { ix with versions := ix.versions.map f }
    ({ b with dramParts := b.dramParts.filter (fun d => !decide (d.index = x ∧ shardOf d.part = s)) } : Block).trimTiles x

/-! ## The phases of a migration (R344) -/

/-- A place has a module, which is no stand-in that still rebuilds it (R344, R353). -/
def Block.placeWhole (b : Block) (p : Nat) : Bool := b.placeReady p && !b.rebuilt p

/-- With a shard moved to it, a place would pass a limit of R119 (R353). -/
def Block.moveOver (b : Block) (i : ItemRef) (dest : Nat) : Bool :=
  match i with
  | .rowBlock _ _ => false
  | .shard x s =>
    let u := b.usedAt dest
    let mine := (b.index x).versions.flatMap (fun v => (directory v.tiles v.root).filter (fun e => decide (shardOf e.part = s)))
    decide (16777216 < u.1 + mine.length) || decide (64000000000 < u.2 + (mine.map (·.count)).sum)

/-- MIGRATION_START: a move starts at its source when PLC is RUNNING, MIGRATE_EN is 1, no migration of the item is in progress,
neither place is being rebuilt, and the destination stays within R119 (R344, R353). Every other member keeps that it has started,
whatever its own PLC is at (DEDUCED, log 39). -/
def migrationStart (i : ItemRef) (source dest : Nat) (b : Block) : Block :=
  let here := decide (source = b.place)
  if (here && (!b.running pPlc || decide (b.fld pPlc 0x104 0 1 = 0) || b.moveOver i dest)) ∨ (b.moveOf i).isSome ∨
      !b.placeWhole source ∨ !b.placeWhole dest ∨ source = dest ∨ !(b.places.contains source && b.places.contains dest) ∨
      b.itemOwner i ≠ source ∨ !b.itemDefined i then b
  else
    let m : Migration := { item := i, source := source, dest := dest }
    let b := { b with plc := { b.plc with moves := snoc b.plc.moves m } }
    if source = b.place then b.bump pPlc 0 else b

/-- MIGRATION_START. -/
def execMigrationStart (item : ItemRef) (source dest : Nat) (s : State) : Result := .next (s.on (migrationStart item source dest))

/-- COPY_END: the source has sent its copy and goes on serving and logging; the destination takes it and replays the
log. -/
def copyEnd (i : ItemRef) (copy : ItemCopy) (b : Block) : Block :=
  match b.moveOf i with
  | none => b
  | some m =>
    if m.phase ≠ .copy then b
    else
      let b := b.setPhase i .catchUp
      if m.source = b.place then
        let c := b.itemCopy i
        (b.send { toward := .place m.dest, cls := 6, kind := .migrateCopy, body := .copy c }).bump pPlc 3 (b.copyBytes i c)
      else if m.dest = b.place then b.takeCopy i copy
      else b

/-- COPY_END. -/
def ownCopyEnd (item : ItemRef) (copy : ItemCopy) (s : State) : Result := .next (s.on (copyEnd item copy))

/-- Replicas of some row blocks that this place owns dropped, and their holders told (R350). -/
def Block.dropCopies (b : Block) (p : Nat × Nat → Bool) : Block :=
  let gone := b.plc.copies.filter (fun c => p c.1)
  let b := { b with plc := { b.plc with copies := b.plc.copies.filter (fun c => !p c.1) } }
  let b := if gone = [] then b else b.bump pPlc 6 gone.length
  gone.foldl (fun b c => b.send { toward := .place c.2, cls := 4, kind := .replicaRows, args := [c.1.1, 0, c.1.2, 2] }) b

/-- CUTOVER: the source stops serving the item, sends the log tail and tells every member of the map change; the replicas of a row
block go with its owner (DESIGN CHOICE, log 41); the destination takes the tail; a member changes its map and acknowledges. It waits
while a version of the table is SEALED. -/
def cutover (i : ItemRef) (tail : ItemCopy) (b : Block) : Block :=
  match b.moveOf i with
  | none => b
  | some m =>
    let sealed : Bool := match i with | .rowBlock t _ => (match b.tableOf t with | some x => x.sealing | none => false) | .shard _ _ => false
    if m.phase ≠ .catchUp ∨ sealed then b
    else
      let b := b.setPhase i .cutover
      if m.source = b.place then
        let b := match i with | .rowBlock t k => b.dropCopies (fun c => decide (c = (t, k))) | .shard _ _ => b
        let b := b.send { toward := .place m.dest, cls := 6, kind := .migrateCopy, body := .copy (b.itemCopy i) }
        b.others.foldl (fun b p => b.send { toward := .place p, cls := 4, kind := .mapUpdate, args := [m.dest], body := .item i }) b
      else
        let b := if m.dest = b.place then b.takeCopy i tail else b.setOwner i m.dest
        b.send { toward := .place m.source, cls := 4, kind := .mapAck, body := .item i }

/-- CUTOVER. -/
def execCutover (item : ItemRef) (tail : ItemCopy) (s : State) : Result := .next (s.on (cutover item tail))

/-- An update's deletions that waited for a CUTOVER go to the shard's new owner; what remains here is recorded here, and the coordinator
hears of it once the new owner has recorded its part (R347). -/
def Block.releaseDeletions (b : Block) (m : CairnMsg) (s dest : Nat) : Block :=
  if b.staleRecord m then b
  else
    let (x, st) := recordCairn m b
    if st ≠ stOk then x.replyUpdate m.fromPlace m.tag .cairnRecorded st 0
    else
      let b := b.forward dest (.deletions m s)
      match b.indexMoving m.index.val with
      | some h => b.holdReq h.item (.deletions m 0) b.meter
      | none => (recordCairn m b).1

/-- A request that waited for a CUTOVER goes to the new owner (R344, R345, R347). -/
def Block.release (b : Block) (i : ItemRef) (dest : Nat) (r : ForwardReq) (arrival : Nat) : Block :=
  match r, i with
  | .table q, _ => b.forward dest (.table q)
  | .records m, .rowBlock _ k =>
    (b.forward dest (.records m)).replyScatter m.fromPlace m.tag stMoved (k + dest * 2 ^ 24 + b.get pPlc 0x114 * 2 ^ 32) []
  | .records m, .shard _ _ => b.forward dest (.records m)
  | .shard q, _ => shardRequest q arrival b
  | .deletions m _, .shard _ s => b.releaseDeletions m s dest
  | .deletions m _, .rowBlock _ _ => cairnRecord m b

/-- CUTOVER_ACKNOWLEDGED: every member has acknowledged the change; MAP_VERSION rises, the destination is owner, and the
held requests go to it. -/
def cutoverAcknowledged (i : ItemRef) (b : Block) : Block :=
  match b.moveOf i with
  | none => b
  | some m =>
    if m.phase ≠ .cutover then b
    else
      let b := (b.setOwner i m.dest).put pPlc 0x114 ((b.get pPlc 0x114 + 1) % 2 ^ 32)
      let b := (b.setPhase i .retire).raiseInt pPlc 17
      let b := if b.party m then b.bump pPlc 1 else b
      let b : Block := m.held.foldl (fun b r => b.release i m.dest r.1 r.2) b
      match i with | .rowBlock t _ => b.thenNext t (fun b => b.trySeal t) | .shard _ _ => b

/-- CUTOVER_ACKNOWLEDGED. -/
def execCutoverAcknowledged (item : ItemRef) (s : State) : Result := .next (s.on (cutoverAcknowledged item))

/-- RETIRE_END: the requests that the source accepted before CUTOVER have ended, and it frees the item. -/
def retireEnd (i : ItemRef) (b : Block) : Block :=
  match b.moveOf i with
  | none => b
  | some m =>
    let busy : Bool := match i with
      | .shard x s => b.qpl.ctxs.any (fun c => decide (c.index = x) && c.shards.any (fun h => decide (h.shard = s) && !h.ended))
      | .rowBlock t k => match b.tableOf t with
        | some x => x.pending.any (fun p => decide (rowBlock p.item.row = k) && !p.committed)
        | none => false
    if m.phase ≠ .retire ∨ (m.source = b.place ∧ busy) then b
    else
      let b := b.endMove i
      if m.source = b.place then b.freeItem i else b

/-- RETIRE_END. -/
def execRetireEnd (item : ItemRef) (s : State) : Result := .next (s.on (retireEnd item))

/-- MIGRATION_ABANDON: a migration in COPY or CATCH_UP ends on a copy error, a DRAIN_ABORT, or the loss of a party; the
source stays owner and the destination frees the copy. -/
def migrationAbandon (i : ItemRef) (error : Bool) (b : Block) : Block :=
  match b.moveOf i with
  | none => b
  | some m =>
    let gone (p : Nat) : Bool := !b.placeReady p || !b.places.contains p
    if (m.phase ≠ .copy ∧ m.phase ≠ .catchUp) ∨ !(error || b.aborting pPlc || gone m.source || gone m.dest) then b
    else
      let b := b.endMove i
      let b := if m.dest = b.place then b.freeItem i else b
      let b := if b.party m then b.bump pPlc 2 else b
      if error ∧ b.party m then b.raiseErr pPlc 17 else b

/-- MIGRATION_ABANDON. -/
def execMigrationAbandon (item : ItemRef) (error : Bool) (s : State) : Result := .next (s.on (migrationAbandon item error))

/-- FORWARDED_REQUEST (R342, R345): a request for an item this place does not own goes one hop to the owner in its map; one
for an item it owns is served. -/
def forwardedRequest (r : ForwardReq) (b : Block) : Block :=
  match r with
  | .table q => tableRequest q b
  | .records m => tentativeRecords m b
  | .shard q => shardRequest q b.meter b
  | .deletions m _ =>
    let x := b.index m.index.val
    b.setIndex m.index.val { x with versions := x.versions.map (fun v => v.recordDeletes m.deleted m.cairn.toNat) }

/-- FORWARDED_REQUEST. -/
def execForwardedRequest (req : ForwardReq) (s : State) : Result := .next (s.on (forwardedRequest req))

/-! ## Load windows and replicas (R343, R349, R350) -/

/-- A load window begins now; START can end with it if every place has reported ready (R343, R349). -/
def Block.openWindow (b : Block) : Block :=
  let ready := b.joined && decide (b.rope.notReady = [])
  { b with plc := { b.plc with counts := [], windowAt := some b.meter, startOver := b.plc.startOver || ready } }

/-- A replica of a row block made at a place: its rows of every version are sent. -/
def Block.makeReplica (b : Block) (t k p : Nat) : Block :=
  match b.tableOf t with
  | none => b
  | some x =>
    if p = b.place ∨ !b.places.contains p ∨ ((t, k), p) ∈ b.plc.copies ∨
        3 ≤ (b.plc.copies.filter (fun c => decide (c.1 = (t, k)))).length then b
    else
      let b := { b with plc := { b.plc with copies := snoc b.plc.copies ((t, k), p) } }.bump pPlc 5
      let n := x.versions.length
      (List.range n).foldl (fun b i => match x.versions[i]? with
        | some v => b.send { toward := .place p, cls := 6, kind := .replicaRows, args := [t, v.version, k, if i + 1 = n then 1 else 0],
                             data := rowsData (v.rows.filter (fun r => decide (rowBlock r.1 = k))) }
        | none => b) b

/-- Every replica held here or made from here dropped; their holders and their owners are told (R350). -/
def Block.dropReplicas (b : Block) : Block :=
  let here := b.plc.replicas
  let b := b.dropCopies (fun _ => true)
  let b := { b with plc := { b.plc with replicas := [] } }
  here.foldl (fun b e =>
    (b.send { toward := .place (b.blockOwner e.1 e.2), cls := 4, kind := .replicaRows, args := [e.1, 0, e.2, 3] }).dropRows e.1 e.2) b

/-- An item as a message names it, for `readItem`. -/
def itemBytes (i : ItemRef) : Bytes :=
  match i with | .rowBlock t k => toLe 0 1 ++ toLe t 2 ++ toLe k 4 | .shard x s => toLe 1 1 ++ toLe x 2 ++ toLe s 4

/-- What this place tells the others of the items it owns: their work in its last complete window, and their replicas (R358). -/
def Block.sendPlacement (b : Block) : Block :=
  let items := nub (b.plc.last.map (·.1) ++ b.plc.copies.map (fun c => ItemRef.rowBlock c.1.1 c.1.2))
  let line (i : ItemRef) : Bytes :=
    let n := ((b.plc.last.find? (fun e => decide (e.1 = i))).map (·.2)).getD 0
    itemBytes i ++ toLe (min 0xFFFFFFFF n) 4 ++ toLe (b.plc.copies.filter (fun c => decide (i = .rowBlock c.1.1 c.1.2))).length 1
  let data := (items.filter (fun i => decide (b.itemOwner i = b.place))).flatMap line
  b.others.foldl (fun b p => b.send { toward := .place p, cls := 7, kind := .placement, data := data }) b

/-- LOAD_WINDOW_END (R343): the window's counts stand as the last complete window; outside SERVICE, with REPLICATE_EN 1,
replicas of row blocks owned here may be made, and in SERVICE they are dropped; the other places are told. A RUNNING PLC stages again what DRAM lacks of
the mounted versions (R175, R176; DESIGN CHOICE, log 132). -/
def loadWindowEnd (b : Block) : Block :=
  match b.plc.windowAt with
  | none => b
  | some t =>
    if b.meter < t + 100000 * b.fld pPlc 0x108 0 16 then b
    else
      let above := b.plc.startOver
      let b := if b.running pPlc then b.stageAgain else b
      let b := { b with plc := { b.plc with last := b.plc.counts, started := b.plc.started || above } }.openWindow.notePhase
      let b :=
        if b.plcPhase = 0 then b.dropReplicas
        else if b.fld pPlc 0x104 2 1 = 1 ∧ b.running pPlc then
          b.plc.last.foldl (fun b e => match e.1 with
            | .rowBlock t k =>
              if b.blockOwner t k = b.place then (Config.replicaChoice t k b.meter).foldl (fun b p => b.makeReplica t k p) b else b
            | .shard _ _ => b) b
        else b
      b.sendPlacement

/-- LOAD_WINDOW_END. -/
def execLoadWindowEnd (s : State) : Result := .next (s.on loadWindowEnd)

/-! ## Placement queries (R358) -/

/-- Where a migration stands, as Q_RESULT shows it. -/
def phaseCode : MigPhase → Nat | .copy => 1 | .catchUp => 2 | .cutover => 3 | .retire => 4

/-- Q_RESULT of an item: owner, migration, tier code, replicas. -/
def queryResult (owner : Nat) (m : Option Migration) (tier replicas : Nat) : Nat :=
  owner + (match m with | some m => phaseCode m.phase * 2 ^ 6 + m.dest * 2 ^ 16 | none => 0) + tier * 2 ^ 22 +
    replicas * 2 ^ 24 + 2 ^ 31

/-- Q_RESULT and Q_LOAD of a key: MISS where it names nothing defined. What another place owns is as it told last; a vector ID has no
block or shard whose work were counted, so that its Q_LOAD is free (DESIGN CHOICE, log 40). -/
def Block.query (b : Block) (kind object key : Nat) : Nat × Nat :=
  let miss := (2 ^ 31 + 2 ^ 30, 0)
  let told (i : ItemRef) : Nat × Nat := ((b.plc.far.find? (fun e => decide (e.1 = b.itemOwner i ∧ e.2.1 = i))).map (·.2.2)).getD (0, 0)
  let load (i : ItemRef) : Nat :=
    if b.itemOwner i = b.place then min 0xFFFFFFFF (((b.plc.last.find? (fun e => decide (e.1 = i))).map (·.2)).getD 0)
    else (told i).1
  let tier (known : Option Bool) : Nat := if known.getD (Config.inDram kind object key) then 0 else 1
  match kind with
  | 0 =>
    match b.tableOf object with
    | none => miss
    | some t =>
      if t.rows ≤ key then miss
      else
        let i := ItemRef.rowBlock object (rowBlock key)
        let here := if b.itemOwner i = b.place then some (b.rowInDram t t.current key) else none
        (queryResult (b.itemOwner i) (b.moveOf i) (tier here)
          (if b.itemOwner i = b.place then (b.plc.copies.filter (fun c => decide (c.1 = (object, rowBlock key)))).length
            else (told i).2 % 8), load i)
  | 1 =>
    if (b.index object).versions.any (fun v => decide (v.state ≠ .mounting) && v.nodes.any (fun n => decide (n.part = key))) then
      let i := ItemRef.shard object (shardOf key)
      let here := if b.itemOwner i = b.place then
          some (b.dramParts.any (fun d => decide (d.index = object ∧ d.part = key) && b.dramCopy d)) else none
      (queryResult (b.itemOwner i) (b.moveOf i) (tier here) 0, load i)
    else miss
  | 2 =>
    if key = noId ∨ (b.index object).versions = [] then miss
    else (queryResult (b.ownerOf object key) none 2 0, Config.farLoad kind object key b.free % 2 ^ 32)
  | _ => miss

/-- Q_KEY_WRITE: the query's result stands in Q_RESULT and Q_LOAD (R358). -/
def qKeyWrite (v : BitVec 64) (b : Block) : Block :=
  let r := b.query (b.fld pPlc 0x120 0 2) (b.fld pPlc 0x120 16 16) v.toNat
  { ((b.setReg (pPlc.at 0x128) v).put pPlc 0x130 r.1).put pPlc 0x134 r.2 with free := b.free + 1 }

/-- Q_KEY_WRITE. -/
def ownQKeyWrite (value : BitVec 64) (s : State) : Result := .next (s.onWrite (qKeyWrite value))

end Sys2Proof.Machine
end

