-- ==== Sys2Proof/Machine/Flash.lean ====
section
/-! DEFINITION. Programs, stripe rows, zones, media work and discards (R386 to R408). Its rows: PAGE_PROGRAM,
PROGRAM_COMPLETE, BLOCK_RETIRE, ZONE_SEAL, ZLOG_BASE_WRITE, ZLOG_RD_WRITE, FLASH_REFRESH, REWRITE, COMPACTION, DISCARD,
SECURE_DISCARD. -/

namespace Sys2Proof.Machine

/-! ## Zones and blocks -/

/-- A row of a zone, or the row as it opens now (R390). -/
def Block.rowOf (b : Block) (zone row : Nat) : StripeRow :=
  (b.ftl.rows.find? (fun r => decide (r.zone = zone ∧ r.row = row))).getD { zone := zone, row := row, absent := b.offlineBays, members := [] }

/-- A row put in the map. -/
def Block.setRow (b : Block) (r : StripeRow) : Block :=
  { b with ftl := { b.ftl with rows := r :: b.ftl.rows.filter (fun x => !decide (x.zone = r.zone ∧ x.row = r.row)) } }

/-- A program changed. -/
def Block.setProgram (b : Block) (l : LunRef) (f : Program → Program) : Block :=
  { b with ftl := { b.ftl with programs := mapIf (fun (p : Program) => decide (p.lun = l)) f b.ftl.programs } }

/-- The logical unit address of a page (R388): the spec gives each page one; zone, row and bay name it here. -/
def luaOf (zone row bay : Nat) : Nat := (zone * 4096 + row) * 16 + bay

/-- The 64 B tile header of the tile that a page carries, where it carries one, and its 16,384 B of data (R87, R388). -/
def pageParts (tile : Bytes) : Bytes × Bytes :=
  if 16384 < tile.length then (tile.take 64, padTo (tile.drop 64) 16384) else ([], padTo tile 16384)

/-- The 128 B of metadata of a page: its tile's header, its LUA, the CRC-32 of its data; the rest is zero (R388; DESIGN CHOICE, log 45). -/
def pageMeta (lua : Nat) (tile : Bytes) : Bytes :=
  padTo (padTo (pageParts tile).1 64 ++ toLe lua 8 ++ toLe (crc32 (pageParts tile).2).toNat 4) 128

/-- A page as it is programmed: its four codewords' data areas and its metadata, each a data unit of AES-256-XTS, the metadata with bit 63
of the tweak set (R388, R389). -/
def pageImage (key : Bytes) (lua : Nat) (tile : Bytes) : Bytes :=
  (List.range 4).flatMap (fun i => (Config.xts key lua (slice (pageParts tile).2 (4096 * i) 4096) 4096).toList) ++
    (Config.xts key (2 ^ 63 + lua) (pageMeta lua tile) 128).toList

/-- The bay that takes the journal copy of a page of some bay: the next one that is ONLINE (R392; DESIGN CHOICE, log 43). -/
def Block.journalBay (b : Block) (bay : Nat) : Option Nat := ((List.range 15).map (fun i => (bay + 1 + i) % 16)).find? b.bayOnline

/-! ## Programming (R390 to R392) -/

/-- A zone that can take a write at a block: the one its tiles have begun to fill, or any log zone, at that block; one
without a place can take a block that no zone holds. -/
def Block.zoneFor (b : Block) (w : WriteWhat) (r : BlockRef) : Option Zone :=
  match w, b.zoneAt r with
  | .home z _, some x => if x.number = z then some x else none
  | .home z _, none => (b.zone z).bind (fun x => if x.place.isNone then some x else none)
  | _, some x => if x.log ∧ x.st = .opened then some x else none
  | _, none => some { number := b.ftl.nextZone, log := true, cap := b.zoneCap }

/-- The channel on which a tile of an index version lies, or is being programmed. -/
def Block.tileChannel (b : Block) (v : Version) (t : Nat) : Option Nat :=
  ((b.tileSite v t).bind b.siteChannel).or
    ((b.ftl.programs.find? (fun p => match p.write.what with
      | .home z i => match b.zone z with
        | some x => decide (x.owner = .index ∧ x.object = v.root.index ∧ x.version = v.root.version ∧ x.first + i = t)
        | none => false
      | _ => false)).map (fun p => p.lun.channel.val))

/-- The code tiles from one on, up or down, that partitions of a directory join to it, over at most `fuel` tiles. -/
def joinedTiles (joins : Nat → Bool) (up : Bool) : Nat → Nat → List Nat
  | 0, _ => []
  | fuel + 1, t => if joins (if up then t else t - 1) then
      let u := if up then t + 1 else t - 1
      u :: joinedTiles joins up fuel u
    else []

/-- A page of a home copy may lie on a channel: the code tiles of one partition all lie on one channel, its home channel, and so
do those of partitions that share a tile (R183). -/
def Block.homeFits (b : Block) (c : Nat) (w : WriteWhat) : Bool :=
  match w with
  | .home z i =>
    match b.zone z with
    | some x =>
      if x.owner ≠ .index then true
      else match (b.index x.object).version x.version with
      | none => true
      | some v =>
        let t := x.first + i
        let last (e : DirEntry) : Nat := e.tile + (e.offset + e.count * codeSize v.root.m e.code8 - 1) / 16384
        let dir := directory v.tiles v.root
        let joins (k : Nat) : Bool := dir.any (fun e => decide (e.tile + e.offset / 16384 ≤ k ∧ k < last e))
        (joinedTiles joins true v.root.tiles t ++ joinedTiles joins false t t).all (fun k =>
          match b.tileChannel v k with | some h => decide (h = c) | none => true)
    | none => true
  | _ => true

/-- A write fits a page: its zone can take it there, and the bay holds a data member of the row that is not yet taken. -/
def Block.fits (b : Block) (r : BlockRef) (row : Nat) (w : FlashWrite) : Bool :=
  match b.zoneFor w.what r with
  | none => false
  | some z =>
    let s := b.rowOf z.number row
    let bay := r.lun.channel.val / 4
    decide (bay ∈ dataBays row s.absent) && b.homeFits r.lun.channel.val w.what && !s.members.any (fun m => decide (m.bay = bay)) && !s.parity &&
      !b.ftl.programs.any (fun p => decide (p.zone = z.number ∧ p.page % 4096 = row ∧ p.lun.channel.val / 4 = bay))

/-- PAGE_PROGRAM (R392): the oldest page waiting that fits becomes a class 3 item of its channel's engine, to be programmed at a
page of a LUN, once it holds a credit and the block is not to be erased (R185, R187). -/
def pageProgram (l : LunRef) (page : Nat) (b : Block) : Block :=
  let r : BlockRef := ⟨l, page / 4096⟩
  let row := page % 4096
  if b.writeStopped ∨ !b.takesWrites ∨ !b.engineUp l.channel.val ∨ 64 ≤ b.slowItems l.channel.val ∨
      b.ftl.programs.any (fun p => decide (p.lun = l)) ∨ r ∈ b.ftl.retired ∨ b.erasing r then b
  else match takeFirst (b.fits r row) b.ftl.writes with
  | none => b
  | some (w, rest) =>
    match b.zoneFor w.what r with
    | none => b
    | some z =>
      let known := (b.zone z.number).isSome
      let zs : List Zone := if known then b.ftl.zones else snoc b.ftl.zones z
      let next := if known then b.ftl.nextZone else b.ftl.nextZone + 1
      let p : Program := { lun := l, page := page, zone := z.number, write := w }
      let b := { b with ftl := { b.ftl with zones := zs, nextZone := next, writes := rest, programs := snoc b.ftl.programs p } }
      let b := b.setZone z.number (fun z => { z with place := some (z.place.getD r) })
      (b.setRow (b.rowOf z.number row)).markItems l.channel.val

/-- PAGE_PROGRAM. -/
def execPageProgram (lun : LunRef) (page : Nat) (s : State) : Result := .next (s.on (pageProgram lun page))

/-- P and Q of a row whose data members are there, programmed on their two bays, so that the journal copies become free (R390, R392). -/
def Block.closeRow (b : Block) (s : StripeRow) : Block :=
  let members : List Member := s.members.map (fun m => { m with journal := none })
  let data := (sortBy (fun (x y : Member) => decide (x.bay < y.bay)) s.members).map (·.data)
  let ps := parityBays s.row s.absent
  let new : List Member := (ps.zip [parityP data, parityQ data]).map (fun e => { bay := e.1, now := e.1, what := none, data := e.2 })
  let b := (b.setRow { s with members := members ++ new, parity := true }).bump pFtl 0 new.length
  ps.foldl (fun b n => b.bump (pBay n) 5 16384) b

/-- What a programmed page makes durable (R230, R334, R366, R377, R397). -/
def Block.durable (b : Block) (w : WriteWhat) : Block :=
  match w with
  | .logPage ix n => b.pageProgrammed ix n
  | .scatter t n => b.tentProgrammed t n
  | .home z _ => b.setZone z (fun z => { z with durable := z.durable + 1 })
  | .stateTile _ _ cmd tile => b.tileProgrammed cmd tile
  | .stateBack o l g i => b.stateWritten o l g i
  | .poolPage r v n => b.poolProgrammed r v n
  | .poolBack r v n => b.poolWritten r v n
  | .fold _ _ _ => b
  | .copy _ _ => b

/-- PROGRAM_COMPLETE (R392, R404): a page sent to its LUN, and not suspended by a read (R186), is programmed. A program that ended
well adds its member, with its journal copy until the row's parity is there; one that failed waits for its block to be retired. -/
def programComplete (l : LunRef) (ok : Bool) (b : Block) : Block :=
  match b.ftl.programs.find? (fun p => decide (p.lun = l)) with
  | none => b
  | some p =>
    if p.failed ∨ !p.sent ∨ b.programSuspended p then b
    else if !ok then b.setProgram l (fun p => { p with failed := true })
    else
      let bay := l.channel.val / 4
      let row := p.page % 4096
      let progs : List Program := b.ftl.programs.filter (fun q => decide (q.lun ≠ l))
      let b := ({ b with ftl := { b.ftl with programs := progs } } : Block).pullSlow l.channel.val
      let s := b.rowOf p.zone row
      let j := b.journalBay bay
      let m : Member := { bay := bay, now := bay, what := some p.write.what,
                          data := pageImage b.sec.tenantKey (luaOf p.zone row bay) p.write.data, journal := j }
      let s : StripeRow := { s with members := snoc s.members m }
      let b := ((b.setRow s).bump pFtl 0).bump (pBay bay) 5 16384
      let b := if s.members.length = (dataBays row s.absent).length then b.closeRow s
        else match j with | some n => (b.bump pFtl 0).bump (pBay n) 5 16384 | none => b
      (b.tellParity p.zone row m).durable p.write.what

/-- PROGRAM_COMPLETE. -/
def execProgramComplete (lun : LunRef) (ok : Bool) (s : State) : Result := .next (s.on (programComplete lun ok))

/-- FTL.SPARE: spare blocks left, in thousandths of one bay's worth (R393, R414): 238,336 blocks, less those retired and
those that members rebuilt into spare fill. -/
def Block.spareLeft (b : Block) : Nat :=
  let moved := b.ftl.rows.foldl (fun n r => n + (r.members.filter (fun m => decide (m.now ≠ m.bay))).length) 0
  1000 * (238336 - b.ftl.retired.length - (moved + 4095) / 4096) / 238336

/-- SPARE_LOW as spare space falls below one eighth of a bay's worth (R404). -/
def Block.noteSpare (old b : Block) : Block :=
  if b.spareLeft < 125 ∧ 125 ≤ old.spareLeft then (b.raiseErr pFtl 19).raiseInt pFtl 18 else b

/-- The lowest block of a LUN that no zone has, that is not retired and that has been erased (DESIGN CHOICE, log 136). -/
def Block.freeBlock (b : Block) (l : LunRef) : Option BlockRef :=
  ((List.range 1862).map (fun n => (⟨l, n⟩ : BlockRef))).find? (fun r =>
    !decide (r ∈ b.ftl.retired) && (b.zoneAt r).isNone && !b.erasing r)

/-- The map switched: a zone's block lies in another block of its LUN from now on (R199, R402, R404). -/
def Block.switchMap (b : Block) (r : BlockRef) : Block :=
  match b.zoneAt r with
  | none => b
  | some z =>
    match b.freeBlock r.lun, z.blockAt (r.lun.channel.val / 4) with
    | some free, some opened =>
      { b with ftl := { b.ftl with remap := (opened, free) :: b.ftl.remap.filter (fun e => !decide (e.1 = opened)) } }
    | _, _ => b

/-- BLOCK_RETIRE (R404): the block is retired and replaced by a spare block, in which a program that failed is repeated; media work on it
ends. -/
def blockRetire (r : BlockRef) (b : Block) : Block :=
  if r ∈ b.ftl.retired then b
  else
    let rew : List BlockRef := b.ftl.rewrites.filter (fun x => decide (x ≠ r))
    let b' : Block := { b with ftl := { b.ftl with retired := snoc b.ftl.retired r, rewrites := rew } }
    let spare : Nat := match b'.zoneAt r, b'.freeBlock r.lun with | some _, some t => t.block | _, _ => r.block
    let again (p : Program) : Program :=
      if p.page / 4096 = r.block then { p with page := 4096 * spare + p.page % 4096, failed := false, sent := false } else p
    let b' := (b'.endMoving r).endSlow r.lun.channel.val (fun i => i.erases r)
    b.noteSpare (((b'.bump pFtl 4).switchMap r).setProgram r.lun again)

/-- BLOCK_RETIRE. -/
def execBlockRetire (block : BlockRef) (s : State) : Result := .next (s.on (blockRetire block))

/-! ## Writes that cannot become durable (R391) -/

/-- The command or peer that needs a page that cannot become durable is told TIER_FAULT. -/
def Block.failWrite (b : Block) (w : WriteWhat) : Block :=
  match w with
  | .logPage ix n =>
    let x := b.index ix
    let here (g : OwnerGroup) : Bool :=
      x.side.any (fun s => decide (s.tag = (g.fromPlace, g.tag) ∧ s.page = n)) ||
      x.tombs.any (fun s => decide (s.tag = (g.fromPlace, g.tag) ∧ s.page = n))
    (x.groups.filter here).foldl (fun b g =>
      (b.setIndex ix ((b.index ix).dropTag (g.fromPlace, g.tag))).replyUpdate g.fromPlace g.tag .ownerReply stTierFault 0) b
  | .scatter t n =>
    match b.tableOf t with
    | none => b
    | some x => (x.groups.filter (fun g => decide (n ∈ g.pages))).foldl (fun b g =>
        let mine (p : PendRec) : Bool := decide (p.fromPlace = g.fromPlace ∧ p.tag = g.tag) && !p.committed
        let b := b.setTable t (fun x =>
          { x with pending := x.pending.filter (fun p => !mine p), groups := x.groups.filter (fun y => !decide (y = g)) })
        b.replyScatter g.fromPlace g.tag stTierFault 0 []) b
  | .home z _ =>
    match b.zone z with
    | none => b
    | some x => match x.owner with
      | .index => match (b.index x.object).version x.version with
        | some v => if v.state = .mounting then b.failMount x.object v stTierFault else b
        | none => b
      | .table => match (b.tableOf x.object).bind (·.defineFor) with
        | some (k, tag) =>
          let b := { b with tables := b.tables.filter (fun t => decide (t.number ≠ x.object)) }
          (b.freeHome .table x.object 1).thenNext x.object (fun b => b.answerKeeper k tag x.object stTierFault 0)
        | none => b
      | .job => b.failLoad x.object stTierFault
  | .stateTile _ _ cmd _ => b.finish cmd stTierFault
  | .poolPage r _ _ =>
    match b.publishes.find? (fun p => decide (p.region = r)) with | some p => b.finish p.cmd stTierFault | none => b
  | .fold _ _ _ | .copy _ _ | .stateBack _ _ _ _ | .poolBack _ _ _ => b

/-- A page that no command waits for: it is written when writing resumes (R391). -/
def WriteWhat.waits : WriteWhat → Bool
  | .fold _ _ _ | .copy _ _ | .stateBack _ _ _ _ | .poolBack _ _ _ => true
  | .logPage _ _ | .scatter _ _ | .home _ _ | .stateTile _ _ _ _ | .poolPage _ _ _ => false

/-- Writing stops: pages that wait and programs in progress are dropped, and the commands that need them fail; pages that no
command waits for go on waiting (R391). -/
def Block.stopWrites (b : Block) : Block :=
  let ws := b.ftl.programs.map (·.write) ++ b.ftl.writes
  let b := { b with ftl := { b.ftl with writes := ws.filter (·.what.waits), programs := [] } }
  let b := (List.range 64).foldl Block.pullSlow b
  (ws.map (·.what)).foldl Block.failWrite b

/-- What follows a change of bay states: writing stops or resumes, lost members are reported, substitutes change. -/
def Block.bayEvents (old b : Block) : Block :=
  let b := b.noteWriteStop
  let b := if b.ftl.stopped && !old.ftl.stopped then b.stopWrites else b
  Block.settleEngines old b.noteLoss

/-! ## Sealing and the zone log (R397 to R399, R413) -/

/-- A filled zone whose tiles are durable is sealed: its last row is closed and its record written; while the zone log is
full it stays OPEN (R397, R399). -/
def zoneSeal (z : Nat) (b : Block) : Block :=
  match b.zone z with
  | none => b
  | some x =>
    if x.log ∨ x.st = .sealed ∨ !x.filled ∨ x.durable < x.tiles.length then b
    else if b.zlogFull then b.raiseErr pFtl 18
    else
      let b := (b.ftl.rows.filter (fun r => decide (r.zone = z) && !r.parity)).foldl Block.closeRow b
      let b := (b.setZone z (fun x => { x with st := .sealed })).bump pFtl 6
      let b := b.zoneLog (zoneRecord x false)
      if x.owner = .table then b.thenNext x.object (fun b => b.settleDefine x.object) else b

/-- ZONE_SEAL. -/
def ownZoneSeal (zone : Nat) (s : State) : Result := .next (s.on (zoneSeal zone))

/-- Zones that waited for room in the zone log sealed. -/
def Block.sealWaiting (b : Block) : Block :=
  (b.ftl.zones.map (·.number)).foldl (fun b z => if b.zlogFull then b else zoneSeal z b) b

/-- ZLOG_RD_WRITE (R399): the driver's count of records consumed frees slots. -/
def zlogRdWrite (v : BitVec 32) (b : Block) : Block := ((b.put pFtl 0x120 v.toNat).flushZlog).sealWaiting

/-- ZLOG_RD_WRITE. -/
def ownZlogRdWrite (value : BitVec 32) (s : State) : Result := .next (s.onWrite (zlogRdWrite value))

/-- The zone log's registers may be written: FTL is OFF, or ZLOG_BASE is 0 (R413). -/
def Block.zlogOpen (b : Block) : Bool := decide (b.pageState pFtl = 0) || decide (b.get pFtl 0x110 = 0)

/-- ZLOG_BASE_WRITE (R413, R414): RWL, so refused while the configuration is locked; the held records go to the ring. -/
def zlogBaseWrite (v : BitVec 64) (b : Block) : Block :=
  if b.locked then b.lockedWrite
  else if !b.zlogOpen then b.raiseErr pFtl 20
  else ((b.setReg (pFtl.at 0x110) (v &&& ~~~ 0x3F#64)).flushZlog).sealWaiting

/-- ZLOG_BASE_WRITE. -/
def ownZlogBaseWrite (value : BitVec 64) (s : State) : Result := .next (s.onWrite (zlogBaseWrite value))

/-! ## Media work (R401 to R403) -/

/-- The live pages that a block holds: members of its zone's rows on its bay. -/
def Block.blockPages (b : Block) (r : BlockRef) : Nat :=
  match b.zoneAt r with
  | none => 0
  | some z => (b.ftl.rows.filter (fun s => decide (s.zone = z.number) &&
      s.members.any (fun m => decide (m.now = r.lun.channel.val / 4)))).length

/-- A block's live pages copied to a new block on the same channel, the map switched, and the old block erased (R199, R402); the item
of class 4 ends (FLC CNT3, BAY CNT4, CNT5). -/
def Block.moveBlock (b : Block) (r : BlockRef) : Block :=
  let n := b.blockPages r
  let c := r.lun.channel.val
  let b := b.switchMap r
  let b := (b.bump (pFlc c) 3 (16384 * n)).bump (pBay (c / 4)) 4 (16384 * n)
  let b := (b.bump pFtl 0 n).bump (pBay (c / 4)) 5 (16384 * n)
  let rew : List BlockRef := b.ftl.rewrites.filter (fun x => decide (x ≠ r))
  (({ b with ftl := { b.ftl with rewrites := rew } } : Block).countErase r).endMoving r

/-- FLASH_REFRESH (R402): a block that has reached READ_REFRESH reads is moved, once its engine has served it in class 4. -/
def flashRefresh (r : BlockRef) (b : Block) : Block :=
  if !b.mediaGoes ∨ b.rebuilding r ∨ b.readCount r < 1000 * b.fld pFtl 0x124 0 16 ∨ (b.zoneAt r).isNone ∨ !b.moveServed r then b
  else (b.moveBlock r).bump pFtl 2

/-- FLASH_REFRESH. -/
def execFlashRefresh (block : BlockRef) (s : State) : Result := .next (s.on (flashRefresh block))

/-- REWRITE (R403): a block scheduled for rewrite is moved, once its engine has served it in class 4. -/
def rewriteBlock (r : BlockRef) (b : Block) : Block :=
  if !b.mediaGoes ∨ b.rebuilding r ∨ !decide (r ∈ b.ftl.rewrites) ∨ !b.moveServed r then b else (b.moveBlock r).bump pFtl 3

/-- REWRITE. -/
def execRewrite (block : BlockRef) (s : State) : Result := .next (s.on (rewriteBlock block))

/-- A page of a log zone is live (R401). -/
def Block.live (b : Block) (w : WriteWhat) : Bool :=
  match w with
  | .logPage ix n => (b.index ix).side.any (fun s => decide (s.page = n)) || (b.index ix).tombs.any (fun s => decide (s.page = n))
  | .scatter t _ => match b.tableOf t with | some x => decide (x.pending ≠ []) | none => false
  | .home z _ => (b.zone z).isSome
  | .stateTile o l _ _ => b.layers.any (fun x => decide (x.object = o ∧ x.layer = l))
  | .stateBack o l g _ => b.layers.any (fun x => decide (x.object = o ∧ x.layer = l) &&
      (decide (x.gen = g) || x.saved.any (fun y => decide (y.1 = g))))
  | .poolPage r v n | .poolBack r v n => (b.region r).any (fun x =>
      (x.map ++ x.saved).any (fun p => decide (p.page = n ∧ p.version = v)) || b.publishes.any (fun p => decide (p.region = r ∧ v = x.current + 1)))
  | .fold t v rows => match b.tableOf t with
    | some x => x.versions.any (fun y => rows.any (fun r => decide (b.foldOf t y.version r = some v)))
    | none => false
  | .copy _ _ => true

/-- A member of a row of a log zone is live. -/
def Block.liveMember (b : Block) (m : Member) : Bool := match m.what with | some w => b.live w | none => false

/-- FTL.LOG_PAGES: live log pages in the page map (R401, R414). -/
def Block.logPages (b : Block) : Nat :=
  (b.ftl.rows.filter (fun r => b.ftl.zones.any (fun z => decide (z.number = r.zone) && z.log))).foldl
    (fun n r => n + (r.members.filter b.liveMember).length) 0

/-- The lowest block of a LUN at which all sixteen channels of its lane have one that no zone has, that is not retired and that has been
erased: where a zone can be opened (R397; DESIGN CHOICE, log 136). -/
def Block.freePlace (b : Block) (l : LunRef) : Option BlockRef :=
  let at' (n : Nat) : Zone := { number := 0, place := some ⟨l, n⟩ }
  ((List.range 1862).find? (fun n => ((List.range 16).filterMap (at' n).blockAt).all (fun r =>
    !decide (r ∈ b.ftl.retired) && (b.zoneAt r).isNone && !b.erasing r))).map (fun n => ⟨l, n⟩)

/-- A log zone compacted (R401): its rows that hold live pages are copied to a new log zone of its lane, the map is switched, and the zone
is erased; the parity places are told of the pages freed and of the new ones (R441). -/
def Block.compact (b : Block) (x : Zone) (secure : Bool) : Block :=
  let rows := b.ftl.rows.filter (fun r => decide (r.zone = x.number))
  let keep := rows.filter (fun r => r.members.any b.liveMember)
  let n := b.ftl.nextZone
  let pages := keep.foldl (fun n r => n + (r.members.filter (fun m => m.what.isNone || b.liveMember m)).length) 0
  let b := (b.freeZone x.number secure).bump pFtl 0 pages
  if keep = [] then b
  else
    let z : Zone := { number := n, log := true, cap := x.cap, st := .sealed, place := x.place.bind (fun p => b.freePlace p.lun) }
    let moved : List StripeRow := keep.map (fun r => { r with zone := n })
    let rs : List StripeRow := moved ++ b.ftl.rows
    let b := { b with ftl := { b.ftl with zones := snoc b.ftl.zones z, rows := rs, nextZone := n + 1 } }
    moved.foldl (fun b r => (r.members.filter b.liveMember).foldl (fun b m => b.tellParity n r.row m) b) b

/-- COMPACTION (R401): a log zone of which no page is being programmed is compacted. -/
def compaction (z : Nat) (b : Block) : Block :=
  match b.zone z with
  | none => b
  | some x => if !x.log ∨ !b.mediaWork ∨ b.ftl.programs.any (fun p => decide (p.zone = z)) then b else b.compact x false

/-- COMPACTION. -/
def execCompaction (zone : Nat) (s : State) : Result := .next (s.on (compaction zone))

/-! ## Discarding (R406 to R408) -/

/-- A zone holds tiles of something that still exists (R408). -/
def Block.zoneBusy (b : Block) (z : Zone) : Bool :=
  match z.owner with
  | .index => ((b.index z.object).version z.version).isSome
  | .table => match b.tableOf z.object with | some t => t.bindable z.version | none => false
  | .job => (b.job z.object).isSome

/-- The zones a discard names. -/
def Block.namedZones (b : Block) (kind first count : Nat) : List Zone :=
  b.ftl.zones.filter (fun z => !z.log && (decide (kind = 3) || (decide (kind = 0) && decide (first ≤ z.number ∧ z.number < first + count))))

/-- The layers a discard names. -/
def Block.namedLayers (b : Block) (kind object first count : Nat) : List Layer :=
  b.layers.filter (fun l => decide (kind = 3) ||
    (decide (l.object = object) && (decide (kind = 1) || (decide (kind = 2) && decide (first ≤ l.layer ∧ l.layer < first + count)))))

/-- The checks of R408, in order. -/
def discardCheck (b : Block) (c : Cmd) (secure : Bool) : Option Nat :=
  let kind := c.param 0 2
  let first := c.param 32 32
  let count := c.param 64 32
  let zones := b.namedZones kind first count
  let whole := decide (kind = 1 ∨ kind = 3)
  if c.payValid ∨ c.resValid ∨ c.param 2 30 ≠ 0 ∨ c.param 96 32 ≠ 0 ∨ (whole ∧ (first ≠ 0 ∨ count ≠ 0)) ∨
      ((kind = 0 ∨ kind = 3) ∧ c.object ≠ 0) ∨ (kind = 3 ∧ !secure) then some stBadCommand
  else if (kind = 0 ∨ kind = 3) ∧ c.who ≠ none then some stAuth
  else if (kind = 0 ∧ (count = 0 ∨ 65536 < count ∨ zones.length ≠ count)) ∨
      (kind = 2 ∧ (count = 0 ∨ 1024 < count ∨ 1024 < first + count)) then some stOutOfRange
  else if zones.any b.zoneBusy ∨ ((kind = 1 ∨ kind = 2) ∧ !b.layers.any (fun l => decide (l.object = c.object))) then some stStale
  else if !b.running pFtl then some stDisabled
  else none

/-- A log zone holds a written-back tile of some state layers. -/
def Block.holdsLayers (b : Block) (layers : List Layer) (z : Zone) : Bool :=
  let tile (o l : Nat) : Bool := layers.any (fun x => decide (x.object = o ∧ x.layer = l))
  z.log && (b.ftl.rows.filter (fun r => decide (r.zone = z.number))).any (fun r => r.members.any (fun m => match m.what with
    | some (.stateTile o l _ _) | some (.stateBack o l _ _) => tile o l
    | _ => false))

/-- Log zones compacted and erased, programs in them being repeated elsewhere (R407). -/
def Block.compactAll (b : Block) (zones : List Zone) : Block :=
  zones.foldl (fun b z => (b.againPrograms (fun p => decide (p.zone = z.number))).compact z true) b

/-- The data a discard names freed; for SECURE_DISCARD the log zones that hold its state tiles are compacted first (R407): the count of zones or layers that is answered, and the blocks to be erased. -/
def Block.discardNow (b : Block) (c : Cmd) (secure : Bool) : Block × Nat × List BlockRef :=
  let kind := c.param 0 2
  let zones := b.namedZones kind (c.param 32 32) (c.param 64 32)
  let layers := b.namedLayers kind c.object (c.param 32 32) (c.param 64 32)
  let logs := b.ftl.zones.filter (fun z => if kind = 3 then z.log else secure && b.holdsLayers layers z)
  let blocks := (zones ++ logs).flatMap b.zoneBlocks
  let b := zones.foldl (fun b z => b.freeZone z.number secure) b
  let writes : List FlashWrite := b.ftl.writes.filter (fun w => match w.what with
    | .stateBack o y _ _ => !layers.any (fun l => decide (l.object = o ∧ l.layer = y))
    | _ => true)
  let b := { b with layers := b.layers.filter (fun l => !decide (l ∈ layers)), ftl := { b.ftl with writes := writes } }
  let b := b.uncache (fun k => match k with
    | .state o y _ _ => layers.any (fun l => decide (l.object = o ∧ l.layer = y))
    | _ => false)
  let b : Block := if kind ≠ 3 then b.compactAll logs else
    let b := logs.foldl (fun b z => b.freeZone z.number true) b
    let stackSet := smap ({} : Stack) (fun x => { x with rows := [] }) b.stackSet
    let regions : List Region := b.regions.map (fun r => { r with map := [], wc := [], saved := [] })
    { b with stackSet := stackSet, regions := regions, dramParts := [], dramTiles := [], cache := [] }
  (b, if kind = 0 ∨ kind = 3 then zones.length else layers.length, blocks)

/-- DISCARD (R407). -/
def discardRow (id : Nat) (b : Block) : Block :=
  b.admitCmd id 0x60 [0, 1] (fun c b =>
    match discardCheck b c false with
    | some st => b.finish id st
    | none =>
      let (b, n, _) := b.discardNow c false
      b.finish id stOk { count := n })

/-- DISCARD. -/
def execDiscard (cmd : Nat) (s : State) : Result := .next (s.on (discardRow cmd))

/-- Blocks of cartridges that are there wait for their erase, or are being erased. -/
def Block.erasesOpen (b : Block) (l : List BlockRef) : Bool := l.any (fun r => b.erasing r && b.bayReads (r.lun.channel.val / 4))

/-- SECURE_DISCARD (R407): the data is freed and its copies are erased in class 4; a later event tells that an erase has failed, or, once
each of its blocks that is there has been erased, that all have succeeded. The entries of cartridges that are absent then leave the bay
table. -/
def secureDiscard (id : Nat) (erased : Bool) (b : Block) : Block :=
  match b.discards.find? (fun d => decide (d.cmd = id)) with
  | some d =>
    if !erased then b.finish id stTierFault
    else if b.erasesOpen d.blocks then b
    else
      let l : List Nat := b.ftl.entries.filter (fun n => decide ((b.bay n).st = bsOnline ∨ (b.bay n).st = bsDraining))
      ({ b with ftl := { b.ftl with entries := l } } : Block).finish id stOk { count := d.count, lateOk := false }
  | none =>
    b.admitCmd id 0x61 [0, 1] (fun c b =>
      match discardCheck b c true with
      | some st => b.finish id st
      | none =>
        let (b, n, l) := b.discardNow c true
        { b with discards := snoc b.discards ⟨id, n, l⟩ })

/-- SECURE_DISCARD. -/
def execSecureDiscard (cmd : Nat) (erased : Bool) (s : State) : Result := .next (s.on (secureDiscard cmd erased))

end Sys2Proof.Machine
end

