-- ==== Sys2Proof/Machine/Bays.lean ====
section
/-! DEFINITION. Cartridges in their bays (R393 to R396, R409 to R412, R522). Its rows: BAY_REBUILD_START,
BAY_REBUILD_END, PRESENT_ASSERTED, BAY_TRAINING_END, IDENTIFY_END, FORMAT_END, ATTENTION_PRESS, BAY_CMD_ADMIT,
BAY_CMD_DRAIN, BAY_CMD_CANCEL, BAY_DRAIN_END, PRESENT_DEASSERTED, CHANNEL_UNRESPONSIVE, RAIL_OVERCURRENT. -/

namespace Sys2Proof.Machine

/-! ## Bay states (R410) -/

/-- The common STATE of a BAY page in a bay state (R410). -/
def bayPageState (st : Nat) : Nat := if st = bsOnline then 2 else if st = bsDraining then 3 else if st = bsFailed then 4 else 0

/-- A bay put in a state, with what follows from it: STATE and ENABLE of its page, BSTATE_CHANGE, writing stopped or
resumed, lost members, substitutes; STATE_CHANGE and DRAINED of its page as it runs, fails, or has drained (R32). -/
def Block.enterBay (b : Block) (n st : Nat) (f : Bay → Bay := id) : Block :=
  let old := b
  let x : Bay := f (b.bay n)
  let x : Bay := { x with st := st }
  let b := (b.setBay n x).setState (pBay n) (bayPageState st)
  let b := b.setFld (pBay n) 8 0 1 (if st = bsOnline then 1 else 0)
  let was := bayPageState (old.bay n).st
  let now := bayPageState st
  let b := if was ≠ now ∧ (now = 2 ∨ now = 4) then b.raiseInt (pBay n) 1 else b
  let b := if was = 3 ∧ now = 0 then b.raiseInt (pBay n) 3 else b
  let b := if (old.bay n).st = st then b else b.raiseInt (pBay n) 16
  Block.bayEvents old b

/-- The channels of a bay. -/
def bayChannels (n : Nat) : List Nat := [4 * n, 4 * n + 1, 4 * n + 2, 4 * n + 3]

/-- The FLC pages of a bay enabled, or set draining (R410): one that is OFF is initialised, one that drains runs again at once
(DESIGN CHOICE, log 137), one in FAULT waits for its SOFT_RESET (R201); with DRAIN_ABORT 1 the items of one that drains end
ABORTED (R34). -/
def Block.setChannels (b : Block) (n : Nat) (up : Bool) : Block :=
  let old := b
  let b := (bayChannels n).foldl (fun b c =>
    let st := b.pageState (pFlc c)
    if up then
      if st = 0 ∧ !decide (pFlc c ∈ b.resetting) then (b.setFld (pFlc c) 8 0 1 1).setState (pFlc c) 1
      else if st = 3 then ((b.setFld (pFlc c) 8 0 1 1).setState (pFlc c) 2).raiseInt (pFlc c) 1
      else b
    else if st = 2 then (b.setFld (pFlc c) 8 0 1 0).setState (pFlc c) 3 else b) b
  let b := Block.settleEngines old b
  if up then b else (bayChannels n).foldl (fun b c => if b.aborting (pFlc c) then b.failEngine c stAborted else b) b

/-- The bay holds members of some row. -/
def Block.holdsMembers (b : Block) (n : Nat) : Bool := b.ftl.rows.any (fun r => r.members.any (fun m => decide (m.now = n)))

/-- What a bay without a readable cartridge shows: nothing of its identity record. -/
def Bay.blank (x : Bay) : Bay :=
  { x with serial := 0, capacity := 0, targets := 0, luns := 0, suspend := false, peRated := 0, bound := 0, gen := 0, format := false }

/-- An engine reads codewords of an item from a bay (R184, R394). -/
def Block.readsBay (b : Block) (c n : Nat) (w : ItemWork) : Bool :=
  (b.wordSources c (b.itemRuns w)).any (fun x => match x with | some (_, l) => l.any (fun m => decide (m.now = n)) | none => false)

/-- A cartridge that has left or failed at once: every item that waits for a read from it ends TIER_FAULT, in the stores of its
channels and, once its reads are issued, at any engine; so do tile reads of its pages there. Pages being programmed on it are written
again in another row, and media work there waits (R197, R405). -/
def Block.loseBay (b : Block) (n : Nat) : Block :=
  let b := b.againPrograms (fun p => decide (p.lun.channel.val / 4 = n))
  let waits (c : Nat) (i : Item) : Bool := decide (i.state ≠ .returning) && decide (i.state = .reading ∨ c / 4 = n) && b.readsBay c n i.work
  let here (p : FlashPage) : Bool := (b.pageAt p).any (fun x => decide (x.2.now = n))
  let ends := (b.engines.map (·.1)).filter (fun c => (b.engine c).items.any (waits c))
  let b := ends.foldl (fun b c => b.failItems c stTierFault (waits c)) b
  let b := (bayChannels n).foldl (fun b c => b.failTiles c stTierFault here) b
  (bayChannels n).foldl (fun b c => b.setEngine c ((b.engine c).putBack (fun i => decide (i.work.cls = 4)))) b

/-- A rebuild's items leave every engine. -/
def Block.endRebuild (b : Block) : Block :=
  (b.engines.map (·.1)).foldl (fun b c => b.endSlow c (fun i => decide (i.work = .rebuild))) b

/-- INT_STATUS.CARTRIDGE of a bay's FLC pages: CH_STATUS.PRESENT changed (R203). -/
def Block.presentChanged (b : Block) (n : Nat) : Block := (bayChannels n).foldl (fun b c => b.raiseInt (pFlc c) 16) b

/-- PRESENT_ASSERTED (R410): the rail of an EMPTY bay turns on. -/
def presentAsserted (n : Nat) (b : Block) : Block :=
  if (b.bay n).st ≠ bsEmpty then b
  else ((b.bump (pBay n) 0).presentChanged n).enterBay n bsPowering (fun x => { x with present := true, rail := true })

/-- PRESENT_ASSERTED. -/
def execPresentAsserted (bay : Fin 16) (s : State) : Result := .next (s.on (presentAsserted bay.val))

/-- BAY_TRAINING_END (R410). -/
def bayTrainingEnd (n : Nat) (trained : Bool) (b : Block) : Block :=
  if (b.bay n).st ≠ bsPowering then b
  else if trained then b.enterBay n bsIdentifying
  else (b.raiseErr (pBay n) 16).enterBay n bsFailed (fun x => { x with rail := false })

/-- BAY_TRAINING_END. -/
def ownBayTrainingEnd (bay : Fin 16) (trained : Bool) (s : State) : Result := .next (s.on (bayTrainingEnd bay.val trained))

/-- The identity record checks (R386, R409, R410). -/
def recordOk (r : Bytes) : Bool :=
  decide (le r 0 4 = 0x5A494342 ∧ le r 4 2 = 1 ∧ le r 0xFC 4 = (crc32 (slice r 0 0xFC)).toNat ∧
    le r 0x10 2 = 160 ∧ nbits (le r 0x12 1) 0 4 = 7 ∧ nbits (le r 0x12 1) 4 4 = 3 ∧ le r 0x14 2 ≤ 60)

/-- The record's SERIAL and GEN are the bay's entry, and BOUND is this module (R410). -/
def Block.recordMatches (b : Block) (n : Nat) (r : Bytes) : Bool :=
  decide (le r 0x20 8 = b.sled.serial.toNat ∧ n ∈ b.ftl.entries ∧ sget (0, 0) b.ftl.bayTable n = (le r 8 8, le r 0x28 4))

/-- IDENTIFY_END (R410): the record checked; the cartridge that left is used again at once, spare copies of its members
being freed (R396). -/
def identifyEnd (n : Nat) (r : Bytes) (paramsOk : Bool) (b : Block) : Block :=
  if (b.bay n).st ≠ bsIdentifying then b
  else if !recordOk r ∨ !paramsOk then (b.raiseErr (pBay n) 17).enterBay n bsRefused (fun x => { x with rail := false })
  else
    let f (x : Bay) : Bay :=
      { x with serial := le r 8 8, capacity := le r 0x10 2, targets := nbits (le r 0x12 1) 0 4, luns := nbits (le r 0x12 1) 4 4,
               suspend := decide (nbits (le r 0x13 1) 0 1 = 1), peRated := le r 0x18 4, bound := le r 0x20 8, gen := le r 0x28 4 }
    if b.recordMatches n r then
      let back (m : Member) : Member := if m.bay = n ∧ !m.lost then { m with now := n } else m
      let rows : List StripeRow := b.ftl.rows.map (fun s => { s with members := s.members.map back })
      let stops := decide (b.ftl.rebuild = some (n, false))
      let b := { b with ftl := { b.ftl with rows := rows, rebuild := if stops then none else b.ftl.rebuild } }
      let b := if stops then b.endRebuild else b
      (b.setChannels n true).enterBay n bsOnline (fun x => { f x with emptyAt := none })
    else b.enterBay n bsForeign (fun x => { f x with format := decide (b.fld pFtl 0x12C 16 1 = 1) })

/-- IDENTIFY_END. -/
def ownIdentifyEnd (bay : Fin 16) (record : Bytes) (parameterPages : Bool) (s : State) : Result :=
  .next (s.on (identifyEnd bay.val record parameterPages))

/-- Blocks of a bay: 1,862 of each LUN, 32 LUNs on each of 4 channels (R386). -/
abbrev bayBlocks := 238336

/-- FORMAT_END (R409, R410): every block is erased, BOUND and GEN are written, and the bay table's entry is replaced;
members that lay on the bay are lost until they are rebuilt onto it (R396). -/
def formatEnd (n : Nat) (b : Block) : Block :=
  if (b.bay n).st ≠ bsForeign ∨ !((b.bay n).format || decide (b.fld pFtl 0x12C 16 1 = 1)) then b
  else
    let g := b.ftl.gen + 1
    let lose (m : Member) : Member :=
      { m with lost := m.lost || decide (m.now = n), journal := m.journal.filter (fun j => decide (j ≠ n)) }
    let rows : List StripeRow := b.ftl.rows.map (fun s => { s with members := s.members.map lose })
    let fresh := b.ftl.rows.any (fun s => s.members.any (fun m => decide (m.bay = n)))
    let erases : List (BlockRef × Nat) := b.ftl.erases.filter (fun e => decide (e.1.lun.channel.val / 4 ≠ n))
    let retired : List BlockRef := b.ftl.retired.filter (fun r => decide (r.lun.channel.val / 4 ≠ n))
    let table := sset (0, 0) b.ftl.bayTable n ((b.bay n).serial, g)
    let entries : List Nat := if n ∈ b.ftl.entries then b.ftl.entries else snoc b.ftl.entries n
    let off (r : BlockRef) : Bool := decide (r.lun.channel.val / 4 ≠ n)
    let b := { b with ftl := { b.ftl with rows := rows, erases := erases, retired := retired, bayTable := table, entries := entries, gen := g
                                          rewrites := b.ftl.rewrites.filter off, reads := b.ftl.reads.filter (fun e => off e.1)
                                          bad := b.ftl.bad.filter (fun e => off e.1) } }
    let b := (bayChannels n).foldl (fun b c => b.endSlow c (fun i => decide (i.work.cls = 4 ∧ i.work ≠ .rebuild))) b
    let b := ((b.bump (pBay n) 7).bump (pBay n) 6 bayBlocks).bump pFtl 1 bayBlocks
    let serial := b.sled.serial.toNat
    (b.setChannels n true).enterBay n bsOnline
      (fun x => { x with format := false, bound := serial, gen := g, fresh := fresh, emptyAt := none })

/-- FORMAT_END. -/
def execFormatEnd (bay : Fin 16) (s : State) : Result := .next (s.on (formatEnd bay.val))

/-- R411 refuses a drain: a row with a member on the bay has lost one on another bay, another bay is DRAINING, or another
bay is being rebuilt. -/
def Block.drainRefused (b : Block) (n : Nat) : Bool :=
  b.ftl.rows.any (fun r => r.members.any (fun m => decide (m.now = n)) && (b.lostMembers r).any (fun m => decide (m.now ≠ n))) ||
  (List.range 16).any (fun k => decide (k ≠ n ∧ (b.bay k).st = bsDraining)) ||
  (match b.ftl.rebuild with | some (k, _) => decide (k ≠ n) | none => false)

/-- A drain of an ONLINE bay asked for by attention press, BAY_CMD or CTRL (R410, R411). -/
def Block.drainBay (b : Block) (n : Nat) : Block :=
  if b.drainRefused n then ((b.setBay n { b.bay n with refused := some b.meter }).raiseErr (pBay n) 19).bump (pBay n) 3
  else (b.setChannels n false).enterBay n bsDraining

/-- A drain cancelled: the FLC pages are enabled again (R410). -/
def Block.cancelDrain (b : Block) (n : Nat) : Block := (b.setChannels n true).enterBay n bsOnline

/-- ATTENTION_PRESS (R410). -/
def attentionPress (n : Nat) (b : Block) : Block :=
  let b := b.raiseInt (pBay n) 17
  let st := (b.bay n).st
  if st = bsOnline then b.drainBay n
  else if st = bsDraining then b.cancelDrain n
  else if st = bsSafe then b.enterBay n bsPowering (fun x => { x with rail := true })
  else b

/-- ATTENTION_PRESS. -/
def ownAttentionPress (bay : Fin 16) (s : State) : Result := .next (s.on (attentionPress bay.val))

/-- A write of BAY_CMD (R410, R415): a bit that does not apply in the bay's state has no effect. -/
def bayCmdWrite (n : Nat) (v : BitVec 32) (b : Block) : Block :=
  let st := (b.bay n).st
  if v.getLsbD 0 ∧ st = bsForeign then b.setBay n { b.bay n with format := true }
  else if v.getLsbD 1 ∧ st = bsOnline then b.drainBay n
  else if v.getLsbD 2 ∧ st = bsDraining then b.cancelDrain n
  else b

/-- BAY_CMD_ADMIT (R410). -/
def execBayCmdAdmit (bay : Fin 16) (s : State) : Result := .next (s.onWrite (bayCmdWrite bay.val 1#32))
/-- BAY_CMD_DRAIN (R410). -/
def execBayCmdDrain (bay : Fin 16) (s : State) : Result := .next (s.onWrite (bayCmdWrite bay.val 2#32))
/-- BAY_CMD_CANCEL (R410). -/
def execBayCmdCancel (bay : Fin 16) (s : State) : Result := .next (s.onWrite (bayCmdWrite bay.val 4#32))

/-- Journal copies on a bay rewritten on other bays (R410). -/
def Block.moveJournal (b : Block) (n : Nat) : Block :=
  let move (m : Member) : Member := if m.journal = some n then { m with journal := b.journalBay m.bay } else m
  let moved := (b.ftl.rows.flatMap (·.members)).filter (fun m => decide (m.journal = some n))
  let b := moved.foldl (fun b m => match b.journalBay m.bay with
    | some j => ((b.bump (pBay n) 4 16384).bump pFtl 0).bump (pBay j) 5 16384
    | none => b) b
  { b with ftl := { b.ftl with rows := b.ftl.rows.map (fun r => { r with members := r.members.map move }) } }

/-- BAY_DRAIN_END (R410): the four FLC pages are OFF and nothing is being programmed on the bay, so that journal copies on it are
rewritten elsewhere and the rail turns off. -/
def bayDrainEnd (n : Nat) (b : Block) : Block :=
  if (b.bay n).st ≠ bsDraining ∨ !(bayChannels n).all (fun c => decide (b.pageState (pFlc c) = 0)) ∨
      b.ftl.programs.any (fun p => decide (p.lun.channel.val / 4 = n)) then b
  else ((b.moveJournal n).bump (pBay n) 1).enterBay n bsSafe (fun x => { x with rail := false })

/-- BAY_DRAIN_END. -/
def execBayDrainEnd (bay : Fin 16) (s : State) : Result := .next (s.on (bayDrainEnd bay.val))

/-- PRESENT_DEASSERTED (R410): the bay is EMPTY; a removal without a drain ends items that wait for it, and the rebuild
timer starts when the bay held members; `armed` where an injected error makes it one (R39). -/
def presentDeasserted (n : Nat) (armed : Bool) (b : Block) : Block :=
  let st := (b.bay n).st
  if st = bsEmpty then b
  else
    let since := if b.holdsMembers n then some b.meter else none
    let surprise := armed || decide (st = bsPowering ∨ st = bsIdentifying ∨ st = bsOnline ∨ st = bsDraining)
    let b := if surprise then ((b.raiseErr (pBay n) 18).bump (pBay n) 2).loseBay n else b
    (b.presentChanged n).enterBay n bsEmpty (fun x => { x.blank with present := false, rail := false, emptyAt := since, fresh := false })

/-- PRESENT_DEASSERTED. -/
def ownPresentDeasserted (bay : Fin 16) (s : State) : Result := .next (s.on (presentDeasserted bay.val false))

/-- A bay that fails while it serves: items end as for a surprise removal, and the rail turns off (R410). -/
def Block.failBay (b : Block) (n : Nat) : Block := (b.loseBay n).enterBay n bsFailed (fun x => { x with rail := false })

/-- CHANNEL_UNRESPONSIVE (R410). -/
def execChannelUnresponsive (channel : Fin 64) (s : State) : Result :=
  .next (s.on (fun b =>
    let n := channel.val / 4
    if (b.bay n).st = bsOnline ∨ (b.bay n).st = bsDraining then b.failBay n else b))

/-- RAIL_OVERCURRENT (R522): the rail of a bay that has it on turns off, and the bay is FAILED. -/
def execRailOvercurrent (bay : Fin 16) (s : State) : Result :=
  .next (s.on (fun b => if (b.bay bay.val).rail then b.failBay bay.val else b))

/-! ## Rebuilds and moves (R393 to R396) -/

/-- BAY_REBUILD_START (R395, R396): the rebuild of a bay's lost members starts REBUILD_DELAY after EMPTY, or at once in
FAILED; the move back to a newly formatted cartridge starts in ONLINE. One bay at a time; every engine that takes items takes its part
as an item of class 4 (DESIGN CHOICE, log 134). -/
def bayRebuildStart (n : Nat) (b : Block) : Block :=
  let x := b.bay n
  let due := match x.emptyAt with | some t => decide (x.st = bsEmpty ∧ t + 100000000 * b.fld pFtl 0x12C 0 16 ≤ b.meter) | none => false
  let move := decide (x.st = bsOnline) && x.fresh
  if b.ftl.rebuild.isSome ∨ !b.mediaWork ∨ !(due || decide (x.st = bsFailed) || move) ∨
      (!move ∧ !b.holdsMembers n) then b
  else
    ((List.range 64).filter b.engineUp).foldl (fun b c => b.queueSlow c .rebuild)
      { b with ftl := { b.ftl with rebuild := some (n, move) } }

/-- BAY_REBUILD_START. -/
def execBayRebuildStart (bay : Fin 16) (s : State) : Result := .next (s.on (bayRebuildStart bay.val))

/-- The bay of the spare block that takes a rebuilt member of bay b in row s (R393). -/
def spareBay (b s : Nat) : Nat := (b + 1 + s % 15) % 16

/-- A rebuilt or moved member counted: the pages that it is read from and the one programmed (R393; FLC CNT3, BAY CNT4, CNT5, FTL
CNT0). -/
def Block.countRebuilt (b : Block) (s : StripeRow) (m : Member) (to_ : Nat) : Block :=
  let others := (s.members.filter (fun x => decide (x.bay ≠ m.bay) && !b.memberGone x)).take (max 1 (s.members.length - 2))
  let b := (if b.memberGone m then others else [m]).foldl (fun b x =>
    (b.bump (pFlc (b.memberChannel s x)) 3 16384).bump (pBay x.now) 4 16384) b
  (b.bump (pBay to_) 5 16384).bump pFtl 0

/-- BAY_REBUILD_END (R395, R396): every lost member of the bay that enough others can rebuild lies in spare, or on the
newly formatted cartridge, to which members in spare are moved back as well; every engine has served its part before (R186). -/
def bayRebuildEnd (n : Nat) (b : Block) : Block :=
  match b.ftl.rebuild with
  | none => b
  | some (k, move) =>
    if k ≠ n ∨ b.engines.any (fun e => (e.2.slow ++ e.2.kept).any (fun i => decide (i.work = .rebuild) && !i.served)) then b
    else
      let old := b
      let enough (r : StripeRow) : Bool := decide ((old.lostMembers r).length ≤ 2)
      let gone (m : Member) : Bool := m.lost || !old.bayReads m.now
      let turn (r : StripeRow) (m : Member) : Member :=
        if move then
          if m.bay = n ∧ (m.now ≠ n ∨ (gone m ∧ enough r)) then { m with now := n, lost := false } else m
        else if m.now = n ∧ gone m ∧ enough r then { m with now := spareBay n r.row, lost := false } else m
      let rows : List StripeRow := b.ftl.rows.map (fun r => { r with members := r.members.map (turn r) })
      let changed : List (StripeRow × Member × Member) := (List.zip b.ftl.rows rows).flatMap (fun e =>
        ((List.zip e.1.members e.2.members).filter (fun m => !decide (m.1 = m.2))).map (fun m => (e.1, m)))
      let b := changed.foldl (fun b x => b.countRebuilt x.1 x.2.1 x.2.2.now) b
      let b := ({ b with ftl := { b.ftl with rows := rows, rebuild := none } } : Block).endRebuild
      let b := b.setBay n { b.bay n with fresh := false, emptyAt := if move then none else (b.bay n).emptyAt }
      Block.noteSpare old (((b.bump pFtl 5 changed.length).raiseInt pFtl 17).noteLoss)

/-- BAY_REBUILD_END. -/
def execBayRebuildEnd (bay : Fin 16) (s : State) : Result := .next (s.on (bayRebuildEnd bay.val))

/-- FTL.REBUILD: the bay being rebuilt, MOVING; the model keeps no progress between start and end (log 50). -/
def Block.rebuildReg (b : Block) : Nat :=
  match b.ftl.rebuild with | none => 0xFF | some (n, m) => n + (if m then 2 ^ 16 else 0)

/-- BAY.WEAR: the largest share of PE_RATED used by any block (R416). -/
def Block.wear (b : Block) (n : Nat) : Nat :=
  let most := b.ftl.erases.foldl (fun w e => if e.1.lun.channel.val / 4 = n then max w e.2 else w) 0
  let rated := (b.bay n).peRated
  if rated = 0 then 0 else min 255 (100 * most / rated)

end Sys2Proof.Machine
end

