-- ==== Sys2Proof/Machine/Cores.lean ====
section
/-! DEFINITION. Jobs on the scan cores and matrix cores (R261 to R275, R298 to R305): counters, the end of a run, loading,
running, invocations, stopping. Its rows: JOB_LOAD, JOB_RUN, JOB_RUN_INVOKE, JOB_STOP, LOAD_COMPLETE, ALL_THREADS_END,
SIGNAL_ARRIVAL, PURGE_END. -/

namespace Sys2Proof.Machine

/-! ## Synchronisation counters (R261 to R265, R305) -/

/-- A counter's job, BOUND, INIT and whether its group is in realignment mode. -/
structure CtrInfo where
  job     : Nat
  bound   : Nat
  init    : Nat
  realign : Bool
deriving DecidableEq, Repr

/-- What a counter of a job is, or of a core that holds a thread of a search context, in fault mode (R259); `none` for any other
unit. -/
def Block.ctrInfo (b : Block) (r : CounterRef) : Option CtrInfo :=
  match r with
  | .core c u k =>
    match b.clusterJob c.val with
    | some e =>
      let p := e.2.counters.getD k.val (1, 0)
      some ⟨e.1, p.1, p.2, decide (nbits e.2.realign (k.val / 8) 1 = 1)⟩
    | none => (b.searchThread c.val u.val).map (fun y =>
      let p := y.ctrs.getD k.val (1, 0)
      ⟨y.job, p.1, p.2, false⟩)
  | .matrix m k => (b.mxcJob m.val).map (fun e =>
      let p := e.2.mxCounters.getD k.val (1, 0)
      ⟨e.1, p.1, p.2, decide (nbits e.2.mxRealign (k.val / 8) 1 = 1)⟩)

/-- A counter; one that is not listed holds INIT. -/
def Block.ctr (b : Block) (r : CounterRef) (init : Nat) : Ctr :=
  match r with
  | .core c u k => ((b.cores.ctrs.find? (fun e => decide (e.1 = (c.val, u.val, k.val)))).map (·.2)).getD { value := init }
  | .matrix m k => sget { value := init } (b.mxc m.val).counters k.val

/-- A counter given contents. -/
def Block.setCtr (b : Block) (r : CounterRef) (init : Nat) (x : Ctr) : Block :=
  match r with
  | .core c u k =>
    let key := (c.val, u.val, k.val)
    let rest : List ((Nat × Nat × Nat) × Ctr) := b.cores.ctrs.filter (fun e => decide (e.1 ≠ key))
    let l : List ((Nat × Nat × Nat) × Ctr) := if x = { value := init } then rest else (key, x) :: rest
    { b with cores := { b.cores with ctrs := l } }
  | .matrix m k =>
    let y := b.mxc m.val
    b.setMxc m.val { y with counters := sset { value := init } y.counters k.val x }

/-! ## The end of a run (R260, R264, R272, R273, R303) -/

/-- Threads a cluster holds for its job: those started that have not executed END. -/
def Job.threadsOn (x : Job) (c : Nat) : Nat :=
  576 * x.threads - (x.ended.filter (fun t => decide (t.cluster.val = c))).length

/-- Every thread of a job killed (R260): frames, counters and signals in flight go; moves and tier requests in flight go
on without a signal, and their data will be discarded, but for those of threads that have executed END and move into staging
SRAM (R249). -/
def Block.killThreads (b : Block) (j : Nat) (x : Job) : Block :=
  let mine (t : ThreadRef) : Bool := decide (t.cluster.val ∈ x.clusters) && !decide (t ∈ x.ended)
  let k := b.cores
  let b := { b with cores := { k with
    threads := k.threads.filter (fun t => decide (t.job ≠ j))
    ctrs    := k.ctrs.filter (fun e => !decide (e.1.1 ∈ x.clusters))
    signals := k.signals.filter (fun s => decide (s.job ≠ j))
    moves   := mapIf (fun m => decide (m.job = j)) (fun m =>
      { m with killed := m.killed || m.place.isResult || (mine m.thread && m.after.isNone), quiet := true }) k.moves
    tiles   := mapIf (fun m => decide (m.job = j)) (fun m => { m with killed := m.killed || mine m.thread, quiet := true }) k.tiles } }
  x.clusters.foldl (fun b c => if x.threadsOn c = 0 then b else b.bump (pScl c) 2 (x.threadsOn c)) b

/-- The matrix cores of a job at the end of its run (R303): steps removed, no further schedule entry, DRAM copies of scheduled tiles
released; resident tiles stay. -/
def Block.stopMxcs (b : Block) (x : Job) : Block :=
  x.mxcs.foldl (fun b m =>
    let y := b.mxc m
    let b := b.setMxc m { y with steps := [], counters := [], next := 0, copies := [] }
    if y.steps = [] then b else b.bump (pMxc m) 7 y.steps.length) b

/-- The invocations of a job ended with a status: their commands, and the searches that encode. -/
def Block.endInvocations (b : Block) (l : List Invocation) (st : Nat) : Block :=
  (l.filter (fun i => !i.ended)).foldl (fun b i =>
    match i.cmd, i.search with
    | some id, _ => b.finish id st
    | none, some id => b.endSearch id st
    | none, none => b) b

/-- The result area of a batch run whose JOB_RUN ends with any status but OK is undefined (R271): free bytes. -/
def Block.spoilResult (b : Block) (x : Job) (st : Nat) : Block :=
  match x.runCmd with
  | none => b
  | some id =>
    match b.cmd id with
    | some c => if b.endStatus c st {} = stOk then b else b.spoilArea c
    | none => b

/-- INT_STATUS.JOB_END of SCL 0: a job leaves RUNNING (R275). -/
def Block.leaveRunning (b : Block) (x : Job) : Block := if x.st = .running then b.raiseInt (pScl 0) 18 else b

/-- A run over (R273): threads killed, matrix work stopped, staging SRAM freed (R363), the job LOADED, JOB_RUN ended with one status and
invocations with another. -/
def Block.runOver (b : Block) (j : Nat) (x : Job) (st inv : Nat) : Block :=
  let b := ((b.killThreads j x).stopMxcs x).spoilResult x st
  let b := (b.dropOps (fun o => match o.work with | .route k _ _ _ => decide (k = j) | _ => false)).freeStaging (fun k => decide (k = j))
  let b := b.putJob j (some { x with
    st := .loaded, runs := (x.runs + 1) % 2 ^ 32, lastEnd := st, ended := [], runCmd := none, stopCmd := none, unload := false, queue := []
    left := x.service && decide (st = stPeerLost) })
  let b := b.leaveRunning x
  let b := match x.runCmd with | some id => b.finish id st | none => b
  b.endInvocations x.queue inv

/-- The run of a RUNNING job ended; in any other state the event has no effect (R273). -/
def Block.endRunAs (b : Block) (j st inv : Nat) : Block :=
  match b.job j with
  | none => b
  | some x => if x.st ≠ .running then b else b.runOver j x st inv

/-- The run of a RUNNING or STOPPING job ended from outside its own course. -/
def Block.cutRun (b : Block) (j st : Nat) : Block :=
  match b.job j with
  | some x => if x.st = .running ∨ x.st = .stopping then b.runOver j x st st else b
  | none => b

/-- A run ended by a fault or a stop: JOB_RUN and invocations end with one status; from 64 on, the context of a search ends so
(R252, R259, R264). -/
def Block.endRun (b : Block) (j st : Nat) : Block :=
  if j < 64 then b.endRunAs j st st
  else match b.ctx (j - 64) with | some x => b.endCtx x st | none => b

/-- What a fault of a thread ends its program with: a job's run with a status of its own, a search TIER_FAULT (R252, R264). -/
def faultStatus (j st : Nat) : Nat := if j < 64 then st else stTierFault

/-- The opcode of the command whose run a job's threads serve, or whose search a context serves (R38). -/
def Block.runOp (b : Block) (j : Nat) : Nat :=
  if j < 64 then (((b.job j).bind (·.runCmd)).map b.opOf).getD 0 else b.ctxOp (j - 64)

/-- An execution fault of a thread (R252): the run ends BAD_COMMAND, a search TIER_FAULT. -/
def Block.execFault (b : Block) (t : ThreadRef) (j : Nat) : Block :=
  (b.raiseErr (pScl t.cluster.val) 18 (b.runOp j)).endRun j (faultStatus j stBadCommand)

/-- JOB and IS_JOB of SYNC_LAST, or CONTEXT (R275). -/
def syncOwner (j : Nat) : Nat := if j < 64 then 2 ^ 18 * j + 2 ^ 24 else 2 ^ 32 * ((j - 64) % 2 ^ 17)

/-- A counter fault (R264, R305): SYNC and SYNC_LAST, and the run ends SYNC_FAULT, a search TIER_FAULT. KIND is 0 for an overflow
and 1 for an underflow. -/
def Block.counterFault (b : Block) (r : CounterRef) (kind j : Nat) : Block :=
  match r with
  | .core c u k =>
    let p := pScl c.val
    let b := b.put p 0x118 (u.val + 2 ^ 10 * k.val + 2 ^ 16 * kind + syncOwner j + 2 ^ 63)
    ((b.raiseErr p 16 (b.runOp j)).raiseInt p 16).endRun j (faultStatus j stSyncFault)
  | .matrix m k =>
    let p := pMxc m.val
    let b := b.put p 0x118 (k.val + 2 ^ 16 * kind + 2 ^ 18 * (j % 64) + 2 ^ 63)
    ((b.raiseErr p 18 (b.runOp j)).raiseInt p 16).endRun j (faultStatus j stSyncFault)

/-- An overflow or underflow of a realignment-mode counter counted (R265). -/
def Block.countMisalign (b : Block) (r : CounterRef) : Block :=
  match r with
  | .core c _ _ => b.bump (pScl c.val) 4
  | .matrix m _ => b.bump (pMxc m.val) 6

/-- An overflow or underflow: a counter fault in fault mode; in realignment mode MISALIGN with the value given. -/
def Block.overUnder (b : Block) (r : CounterRef) (i : CtrInfo) (kind value : Nat) : Block :=
  if i.realign then (b.setCtr r i.init { value := value, misalign := true }).countMisalign r
  else b.counterFault r kind i.job

/-- A signal of n applied to its counter (R262, R264, R265). -/
def Block.addCtr (b : Block) (r : CounterRef) (n : Nat) : Block :=
  match b.ctrInfo r with
  | none => b
  | some i =>
    let x := b.ctr r i.init
    if x.value + n ≤ i.bound then b.setCtr r i.init { x with value := x.value + n }
    else b.overUnder r i 0 i.bound

/-- n subtracted from a counter. -/
def Block.subCtr (b : Block) (r : CounterRef) (i : CtrInfo) (n : Nat) : Block :=
  let x := b.ctr r i.init
  b.setCtr r i.init { x with value := x.value - n }

/-- The cluster that a signal to a counter enters from another, or from a matrix core, by its port (R254). -/
def remoteSignal (sender : Option ThreadRef) (r : CounterRef) : Bool :=
  match sender, r with
  | some t, .core c _ _ => decide (t.cluster ≠ c)
  | none, .matrix _ _ => false
  | _, _ => true

/-- A signal put on its way (R263); a remote one goes out by its cluster's port (R254). -/
def Block.sendSignal (b : Block) (sender : Option ThreadRef) (r : CounterRef) (n j : Nat) : Block :=
  let (id, b) := (match sender with
    | some t => if remoteSignal sender r then b.portMessage t.cluster.val else b
    | none => b).fresh
  { b with cores := { b.cores with signals := snoc b.cores.signals ⟨id, sender, r, n, j⟩ } }

/-- A signal is the first in flight of its sender to its counter (R263). -/
def firstSignal (l : List Signal) (s : Signal) : Bool :=
  match l.find? (fun y => decide (y.sender = s.sender ∧ y.target = s.target)) with
  | some y => s.sender.isNone || decide (y.id = s.id)
  | none => false

/-- A signal stays behind the block moves and tier requests that its thread issued before it: the WAIT that it completes makes
their data visible (R253). -/
def Cores.holds (k : Cores) (s : Signal) : Bool :=
  k.moves.any (fun m => decide (some m.thread = s.sender ∧ m.job = s.job ∧ m.id < s.id ∧ m.killed = false)) ||
  k.tiles.any (fun m => decide (some m.thread = s.sender ∧ m.job = s.job ∧ m.id < s.id ∧ m.killed = false))

/-- SIGNAL_ARRIVAL (R253, R262, R263): a signal in flight reaches its counter; signals from one thread to one counter apply in
issue order, and none before the data that its thread moved ahead of it is in place. A counter that is no longer of the job or
the context takes nothing. -/
def signalArrival (id : Nat) (b : Block) : Block :=
  match b.cores.signals.find? (fun s => decide (s.id = id)) with
  | none => b
  | some s =>
    if b.bivouac ∨ !firstSignal b.cores.signals s ∨ b.cores.holds s then b
    else
      let rest : List Signal := b.cores.signals.filter (fun y => decide (y.id ≠ id))
      let b := { b with cores := { b.cores with signals := rest } }
      let b := match s.target with
        | .core c _ _ => (if remoteSignal s.sender s.target then b.portMessage c.val else b).bump (pScl c.val) 7
        | .matrix _ _ => b
      if (b.ctrInfo s.target).any (fun i => decide (i.job = s.job)) then b.addCtr s.target s.n else b

/-- SIGNAL_ARRIVAL. -/
def execSignalArrival (signal : Nat) (s : State) : Result := .next (s.on (signalArrival signal))

/-! ## Realignment (R265) -/

/-- The realignment-mode groups of a job realigned: their counters are at INIT, and the threads that wait on them are
released with condition 2. -/
def Block.realignJob (b : Block) (j : Nat) (x : Job) : Block :=
  let mode (bits k : Nat) : Bool := decide (nbits bits (k / 8) 1 = 1)
  let ctrs : List ((Nat × Nat × Nat) × Ctr) := b.cores.ctrs.filter (fun e => !(decide (e.1.1 ∈ x.clusters) && mode x.realign e.1.2.2))
  let free (t : Thread) : Thread := match t.waiting with
    | some (.ctr c _) => if t.job = j ∧ mode x.realign c then { t with waiting := none, parked := false, cond := 2 } else t
    | _ => t
  let b := { b with cores := { b.cores with ctrs := ctrs, threads := b.cores.threads.map free } }
  let groups := ((List.range 6).filter (fun g => decide (nbits x.realign g 1 = 1))).length
  let b := if groups = 0 then b else x.clusters.foldl (fun b c => b.bump (pScl c) 5 (576 * groups)) b
  x.mxcs.foldl (fun b m =>
    let y := b.mxc m
    b.setMxc m { y with counters := y.counters.filter (fun e => !mode x.mxRealign e.1) }) b

/-- PURGE_END (R138, R265): a purging lane opens; every RUNNING job is realigned first, and searches and shard requests that
waited for the lane go on. -/
def purgeEnd (lane : Nat) (b : Block) : Block :=
  if !decide (lane ∈ b.qpl.purging) then b
  else
    let b := b.jobList.foldl (fun b e => if e.2.st = .running then b.realignJob e.1 e.2 else b) b
    let b := { b with qpl := { b.qpl with purging := b.qpl.purging.filter (fun l => decide (l ≠ lane)) } }
    b.retryRequests

/-- PURGE_END. -/
def execPurgeEnd (lane : Fin 8) (s : State) : Result := .next (s.on (purgeEnd lane.val))

/-! ## The job image (R267, R298, R299) -/

/-- The header of a job image. -/
structure Image where
  magic    : Nat
  layout   : Nat
  flags    : Nat
  threads  : Nat
  clusters : Nat
  mxcs     : Nat
  realign  : Nat
  frame    : Nat
  invMax   : Nat
  codeOff  : Nat
  codeLen  : Nat
  mxcOff   : Nat
  mxcLen   : Nat
  schedOff : Nat
  schedLen : Nat
  invIn    : Nat
  invOut   : Nat
  len      : Nat
  counters : List (Nat × Nat)
  check    : Nat
deriving DecidableEq, Repr

/-- Entries of a COUNTER table: BOUND and INIT. -/
def readCounters (bs : Bytes) (off n : Nat) : List (Nat × Nat) :=
  (List.range n).map (fun c => (le bs (off + 4 * c) 2, le bs (off + 4 * c + 2) 2))

/-- The header as R267 lays it out. -/
def readImage (h : Bytes) : Image :=
  { magic := le h 0 4, layout := le h 4 2, flags := nbits (le h 6 1) 0 3, threads := nbits (le h 7 1) 0 2,
    clusters := le h 8 2, mxcs := nbits (le h 0xA 1) 0 7, realign := nbits (le h 0xB 1) 0 6, frame := le h 0xC 2,
    invMax := le h 0xE 2, codeOff := le h 0x10 4, codeLen := le h 0x14 4, mxcOff := le h 0x18 4, mxcLen := le h 0x1C 4,
    schedOff := le h 0x20 4, schedLen := le h 0x24 4, invIn := le h 0x28 4, invOut := le h 0x2C 4, len := le h 0x30 4,
    counters := readCounters h 0x80 48, check := le h 0x1F8 8 }

/-- The job is a service job. -/
def Image.service (h : Image) : Bool := decide (nbits h.flags 0 1 = 1)
/-- DETERM (R266). -/
def Image.determ (h : Image) : Bool := decide (nbits h.flags 2 1 = 1)

/-- The sections an image has, as offset and length. -/
def Image.sections (h : Image) : List (Nat × Nat) :=
  [(h.codeOff, h.codeLen)] ++ (if h.mxcOff = 0 ∧ h.mxcLen = 0 then [] else [(h.mxcOff, h.mxcLen)]) ++
  (if h.schedOff = 0 ∧ h.schedLen = 0 then [] else [(h.schedOff, h.schedLen)])

/-- No two spans overlap. -/
def disjoint : List (Nat × Nat) → Bool
  | [] => true
  | x :: xs => xs.all (fun y => decide (x.1 + x.2 ≤ y.1 ∨ y.1 + y.2 ≤ x.1)) && disjoint xs

/-- Some counter has a BOUND of 0 or an INIT above its BOUND. -/
def badCounters (l : List (Nat × Nat)) : Bool := l.any (fun p => decide (p.1 = 0 ∨ p.1 < p.2))

/-- The second condition of R268: MAGIC, LAYOUT, CHECK, the sections, FRAME, THREADS, the counters. -/
def Image.malformed (h : Image) (img : Bytes) : Bool :=
  decide (h.magic ≠ 0x5A494A42 ∨ h.layout ≠ 1 ∨ h.check ≠ (crc64 (slice img 0 0x1F8 ++ slice img 0x200 (h.len - 0x200))).toNat) ||
  decide (h.codeOff % 64 ≠ 0 ∨ h.codeLen < 4 ∨ 65536 < h.codeLen ∨ h.codeLen % 4 ≠ 0) ||
  (decide (h.mxcs = 0) && decide (h.mxcOff ≠ 0 ∨ h.mxcLen ≠ 0)) || (decide (h.mxcs ≠ 0) && decide (h.mxcOff = 0)) ||
  h.sections.any (fun s => decide (s.1 < 0x200 ∨ h.len < s.1 + s.2)) || !disjoint h.sections ||
  decide (h.frame < 512 ∨ 8192 < h.frame ∨ h.frame % 512 ≠ 0 ∨ h.threads = 0 ∨ 2 < h.threads ∨ 8192 < h.threads * h.frame) ||
  badCounters h.counters

/-- The code section. -/
def Image.code (h : Image) (img : Bytes) : Bytes := slice img h.codeOff h.codeLen

/-- A field of R268's fifth condition lies outside its range. -/
def Image.outOfRange (h : Image) : Bool :=
  decide (h.clusters = 0 ∨ 384 < h.clusters ∨ 64 < h.mxcs ∨ 67108864 < h.len) ||
  (if h.service then decide (h.invMax = 0 ∨ 4096 < h.invMax ∨ h.invIn < 64 ∨ 1048576 < h.invIn ∨ h.invOut < 64 ∨ 1048576 < h.invOut)
   else decide (h.invMax ≠ 0 ∨ h.invIn ≠ 0 ∨ h.invOut ≠ 0)) ||
  decide (33554432 < h.invMax * (h.invIn + h.invOut))

/-- A schedule entry, or a resident extent (R299). -/
def readSched (bs : Bytes) : SchedEntry :=
  { layer := le bs 0 2, mxc := nbits (le bs 2 2) 0 7, granule := nbits (le bs 4 2) 0 9, tiles := le bs 6 2,
    source := nbits (le bs 8 1) 0 2, addr := le bs 0x10 8, waitCtr := nbits (le bs 0x18 1) 0 6,
    waitEn := decide (nbits (le bs 0x18 1) 6 1 = 1), waitN := le bs 0x1A 2, sigCtr := nbits (le bs 0x1C 1) 0 6,
    sigEn := decide (nbits (le bs 0x1C 1) 6 1 = 1) }

/-- A reserved bit of an entry is set; in a resident extent the WAIT and SIG fields are reserved too. -/
def schedReserved (resident : Bool) (bs : Bytes) : Bool :=
  decide (nbits (le bs 2 2) 7 9 ≠ 0 ∨ nbits (le bs 4 2) 9 7 ≠ 0 ∨ nbits (le bs 8 8) 2 62 ≠ 0 ∨
    nbits (le bs 0x18 2) 7 9 ≠ 0 ∨ nbits (le bs 0x1C 4) 7 25 ≠ 0) ||
  (resident && decide (le bs 0x18 8 ≠ 0))

/-- The entries of a run of 32-byte records. -/
def schedRecords (bs : Bytes) : List Bytes := (List.range (bs.length / 32)).map (fun i => slice bs (32 * i) 32)

/-- KT of a format (R286). -/
def ktOf (wfmt : Nat) : Nat := if wfmt = 0 then 256 else if wfmt < 4 then 128 else 64

/-- Bits of an element of a format code of R289. -/
def fmtBits (f : Nat) : Nat := if f = 0 then 4 else if f < 4 then 8 else 16

/-- LEN and GRAN of a matrix tile of a form and format (R286). -/
def weightGeometry (form wfmt : Nat) : Nat × Nat :=
  if form = 0x10 then (16384, 8) else if wfmt = 0 then (12288, 6) else if wfmt < 4 then (10240, 5) else (9216, 5)

/-- The first index of every group of a 2:4 tile is below the second (R287). -/
def indicesOk (t : Bytes) : Bool :=
  let wfmt := nbits (le t 0x20 1) 0 3
  let area := ktOf wfmt * 128 / 2 * fmtBits wfmt / 8
  (List.range (ktOf wfmt * 128 / 4)).all (fun g =>
    let n := nbits (le t (64 + area + g / 2) 1) (4 * (g % 2)) 4
    decide (n % 4 < n / 4))

/-- The size fields of a scale tile agree (R315): ELEMS in its range, LEN and GRAN that of ELEMS. -/
def scaleOk (t : Bytes) : Bool :=
  let n := le t 0x2C 4
  decide (1 ≤ n ∧ n ≤ 4096 ∧ le t 4 4 = 4 * n ∧ le t 0x21 1 = (4 * n + 2047) / 2048)

/-- A weight tile follows R286 and R287, or R315 when it holds scales; reserved bits are ignored (R8). -/
def weightOk (t : Bytes) : Bool :=
  let form := le t 1 1
  let wfmt := nbits (le t 0x20 1) 0 3
  if form = 0x10 ∨ form = 0x11 then
    decide (wfmt < 6 ∧ le t 4 4 = (weightGeometry form wfmt).1 ∧ le t 0x21 1 = (weightGeometry form wfmt).2 ∧
      le t 0x22 2 = ktOf wfmt ∧ le t 0x24 2 = 128) && (decide (form = 0x10) || indicesOk t)
  else if form = 0x12 then
    scaleOk t && decide (nbits (le t 0x20 1) 0 2 ≠ 3) && (decide (nbits (le t 0x20 1) 2 1 = 0) || decide (le t 0x2C 4 = 1))
  else decide (form = 1 ∨ form = 2)

/-- A tile's CHECK, and the indices of a 2:4 tile, hold as it lands (R288). -/
def landOk (t : Bytes) : Bool := tileOk t && decide (le t 0 1 = 0) && (decide (le t 1 1 ≠ 0x11) || indicesOk t)

/-! ## Tiles of a job (R298 to R302, R398) -/

/-- A tile of an entry read from its source: host memory within the DMA range, the pool, or a SEALED zone, whose first tile
is the entry's first (R299). -/
def Block.entryTile (b : Block) (who : Option Nat) (e : SchedEntry) (t : Nat) : Option Bytes :=
  let a := e.addr + t * tileBytes
  match e.source with
  | 0 => if a < b.get pHlk 0x110 ∨ b.get pHlk 0x118 < a + tileBytes then none else some (b.hostRead a tileBytes)
  | 1 => b.poolRead who a tileBytes
  | _ => match b.zone e.addr with
    | some z => if z.st = .sealed then z.tiles[t]? else none
    | none => none

/-- The entries of a job in the order of their home copies: resident extents, then the schedule. -/
def Job.entries (x : Job) : List SchedEntry := x.resident ++ x.sched

/-- The tiles a job's home copy holds: those of SOURCE 0 and 1, in order, each with its entry and its place in it. -/
def homeList (l : List SchedEntry) : List (Nat × Nat) :=
  ((List.range l.length).filter (fun i => match l[i]? with | some e => decide (e.source < 2) | none => false)).flatMap (fun i =>
    (List.range ((l[i]?).map (·.tiles) |>.getD 0)).map (fun t => (i, t)))

/-- Tile t of entry i of a job: from its home copy, or from the zone that SOURCE 2 names (R302, R398). -/
def Block.jobTile (b : Block) (j : Nat) (x : Job) (i t : Nat) : Option Bytes :=
  match x.entries[i]? with
  | none => none
  | some e =>
    if e.source = 2 then b.entryTile none e t
    else
      let n := (homeList x.entries).idxOf (i, t)
      ((b.homeZones .job j 0).reverse.findSome? (fun z => if z.first ≤ n then z.tiles[n - z.first]? else none)).bind
        (fun t => if t = [] then none else some t)

/-- Where flash holds tile t of entry i of a job (R302, R398). -/
def Block.jobSite (b : Block) (j : Nat) (x : Job) (i t : Nat) : Option (StripeRow × Member) :=
  match x.entries[i]? with
  | none => none
  | some e =>
    if e.source = 2 then (b.zone e.addr).bind (fun z => b.pageSite (fun w => decide (w = .home z.number t)))
    else b.homeSite .job j 0 ((homeList x.entries).idxOf (i, t))

/-- The tiles of an entry read from flash, in class 2 (R185, R302). -/
def Block.readEntry (b : Block) (j : Nat) (x : Job) (i : Nat) (e : SchedEntry) : Block :=
  (List.range e.tiles).foldl (fun b t => b.readHome (b.jobSite j x i t)) b

/-- Every tile of an entry that flash holds can be read there (R302, R394). -/
def Block.entryReadable (b : Block) (j : Nat) (x : Job) (i : Nat) (e : SchedEntry) : Bool :=
  (List.range e.tiles).all (fun t => match b.jobSite j x i t with | some s => b.pageReadable s | none => true)

/-- The schedule entries of a job's matrix core, by their numbers among the job's entries. -/
def Job.schedOf (x : Job) (index : Nat) : List (Nat × SchedEntry) :=
  ((List.range x.sched.length).filterMap (fun i => (x.sched[i]?).map (fun e => (x.resident.length + i, e)))).filter
    (fun e => decide (e.2.mxc = index))

/-- The tiles of the next AHEAD entries of a core of a RUNNING job are brought into the DRAM tier; those for which it is short stay
where they are (R302). -/
def Block.fetchAhead (b : Block) (m : Nat) : Block :=
  match b.mxcJob m with
  | none => b
  | some (j, x) =>
    if x.st ≠ .running then b
    else
      let l := x.schedOf (x.mxcs.idxOf m)
      let next := (b.mxc m).next
      ((List.range (min x.ahead l.length)).map (fun i => (next + i) % l.length)).foldl (fun b n =>
        match l[n]? with
        | none => b
        | some (i, e) =>
          let y := b.mxc m
          if n ∈ y.copies ∨ b.dramShort (16384 * e.tiles) then b
          else (b.setMxc m { y with copies := snoc y.copies n }).readEntry j x i e) b

/-- Tiles landed in a matrix core's weight SRAM (R288): `none` and the first granule of the tile refused, or the block with
them in place. -/
def Block.landTiles (b : Block) (m g : Nat) (ts : List Bytes) : Except Nat Block :=
  match (granules g ts).find? (fun e => !landOk e.2 || decide (512 < e.1 + tileGran e.2)) with
  | some e => .error e.1
  | none =>
    let y := (granules g ts).foldl (fun (y : Mxc) e => y.land e.1 e.2) (b.mxc m)
    .ok ((b.setMxc m y).countLanded m ts)

/-- A tile refused as it lands (R288): TILE_REFUSED, and its first granule in TILE_LAST. -/
def Block.refuseTile (b : Block) (m g op : Nat) : Block := (b.raiseErr (pMxc m) 19 op).put (pMxc m) 0x128 (g % 512 + 2 ^ 31)

/-- The tiles of an entry, where every one is readable. -/
def allTiles (n : Nat) (f : Nat → Option Bytes) : Option (List Bytes) := (List.range n).mapM f

/-! ## JOB_LOAD (R268, R298, R300) -/

/-- The matrix section and the schedule of an image. -/
structure MatrixPart where
  ahead    : Nat
  realign  : Nat
  counters : List (Nat × Nat)
  count    : Nat
  resident : List SchedEntry
  sched    : List SchedEntry
deriving DecidableEq, Repr

/-- The matrix section and the schedule read. -/
def readMatrix (h : Image) (img : Bytes) : MatrixPart :=
  let s := slice img h.mxcOff h.mxcLen
  { ahead := le s 1 1, realign := le s 2 1, counters := readCounters s 0x40 64, count := le s 4 2,
    resident := (schedRecords (s.drop 0x140)).map readSched,
    sched := (schedRecords (slice img h.schedOff h.schedLen)).map readSched }

/-- The spans of granules that the resident extents of one core take. -/
def residentSpans (l : List (SchedEntry × List Bytes)) (m : Nat) : List (Nat × Nat) :=
  (l.filter (fun e => decide (e.1.mxc = m))).map (fun e => (e.1.granule, e.2.foldl (fun n t => n + tileGran t) 0))

/-- The checks of R300 in their order. -/
def matrixCheck (b : Block) (who : Option Nat) (h : Image) (img : Bytes) : Option Nat :=
  let s := slice img h.mxcOff h.mxcLen
  let p := readMatrix h img
  let read (e : SchedEntry) : SchedEntry × Option (List Bytes) := (e, allTiles e.tiles (b.entryTile who e))
  let tiles := p.resident.map read
  let known := tiles.map (fun e => (e.1, e.2.getD []))
  let streamed := p.sched.map (fun e => (e, (read e).2.getD []))
  let entries := p.resident ++ p.sched
  if h.mxcs = 0 ∧ h.schedLen = 0 then none
  else if le s 3 1 ≠ 0 ∨ le s 6 0x3A ≠ 0 ∨ (schedRecords (s.drop 0x140)).any (schedReserved true) ∨
      (schedRecords (slice img h.schedOff h.schedLen)).any (schedReserved false) ∨ le s 0 1 ≠ h.mxcs ∨
      h.mxcLen ≠ 0x140 + 32 * p.count ∨ h.schedLen % 32 ≠ 0 ∨
      entries.any (fun e => decide (h.mxcs ≤ e.mxc ∨ e.tiles = 0 ∨ 256 < e.tiles ∨ e.source = 3 ∨ 512 < e.granule + e.tiles)) ∨
      (known ++ streamed).any (fun e => decide (512 < e.1.granule + e.2.foldl (fun n t => n + tileGran t) 0)) ∨
      (List.range h.mxcs).any (fun m => !disjoint (residentSpans known m)) ∨ badCounters p.counters ∨
      (h.determ ∧ p.realign ≠ 0) then some stBadCommand
  else if p.ahead = 0 ∨ 64 < p.ahead ∨ 1024 < p.count ∨ 4096 < p.sched.length then some stOutOfRange
  else if tiles.any (fun e => match e.2 with | none => true | some l => l.any (fun t => !landOk t || !weightOk t)) then some stTierFault
  else none

/-- The resident tile that makes JOB_LOAD end TIER_FAULT, when it was read and refused as it lands (R288): the index of its matrix
core and its first granule. -/
def refusedResident (b : Block) (who : Option Nat) (h : Image) (img : Bytes) : Option (Nat × Nat) :=
  (readMatrix h img).resident.findSome? (fun e => (allTiles e.tiles (b.entryTile who e)).bind (fun ts =>
    ((granules e.granule ts).find? (fun t => !landOk t.2)).map (fun t => (e.mxc, t.1))))

/-- The checks of R268 that need no byte of the image: its status when the image cannot be read, which is the table's last
failing row (R371). -/
def jobLoadUnread (b : Block) (c : Cmd) : Nat :=
  if !c.payValid ∨ c.resValid ∨ c.param 0 128 ≠ 0 ∨ c.pay.len < 0x200 ∨ (b.job c.object).isSome then stBadCommand
  else if 63 < c.object then stOutOfRange
  else stTierFault

/-- The checks of R268 in their order. -/
def jobLoadCheck (b : Block) (c : Cmd) (h : Image) (img : Bytes) : Option Nat :=
  if !c.payValid ∨ c.resValid ∨ c.param 0 128 ≠ 0 ∨ c.pay.len < 0x200 ∨ c.pay.len < h.len then some stBadCommand
  else if h.malformed img then some stBadCommand
  else if !Config.codeOk (h.code img) ∨ (h.determ ∧ (h.realign ≠ 0 ∨ Config.usesTestOrMeter (h.code img))) then some stBadCommand
  else if (b.job c.object).isSome then some stBadCommand
  else if 63 < c.object ∨ h.outOfRange then some stOutOfRange
  else if b.freeClusters.length < h.clusters ∨ b.freeMxcs.length < h.mxcs then some stOutOfRange
  else matrixCheck b c.who h img

/-- The job of an image, LOADING on the units chosen. -/
def Image.job (h : Image) (img : Bytes) (clusters mxcs : List Nat) (cmd : Nat) : Job :=
  let p := readMatrix h img
  { st := .loading, service := h.service, rope := decide (nbits h.flags 1 1 = 1), determ := h.determ, threads := h.threads,
    realign := h.realign, frame := h.frame, invMax := h.invMax, invIn := h.invIn, invOut := h.invOut, codeLen := h.codeLen,
    code := h.code img, check := h.check, counters := h.counters, clusters := clusters, mxcs := mxcs, ahead := p.ahead, mxRealign := p.realign,
    mxCounters := p.counters, resident := p.resident, sched := p.sched, loadCmd := some cmd }

/-- The resident extents of one matrix core of a job landed in it, from a way of reading their tiles; or else the first granule of a
tile refused (R288), or nothing of one that cannot be read. -/
def Block.landResident (b : Block) (x : Job) (tile : Nat → Nat → Option Bytes) (index m : Nat) : Except (Option Nat) Block :=
  (List.range x.resident.length).foldlM (fun b i =>
    match x.resident[i]? with
    | none => .ok b
    | some e =>
      if e.mxc ≠ index then .ok b
      else match allTiles e.tiles (tile i) with
        | none => .error none
        | some ts => match b.landTiles m e.granule ts with | .ok b => .ok b | .error g => .error (some g)) b

/-- JOB_LOAD (R268): checked; clusters and matrix cores bound, resident tiles landed, and the home copies of the tiles of
SOURCE 0 and 1 queued. -/
def jobLoad (id : Nat) (b : Block) : Block :=
  b.admitCmd id 0x40 [0, 1] (fun c b =>
    let h := readImage (b.readInput c 0 0x200)
    let img := b.readInput c 0 (min h.len c.pay.len)
    let b := b.countInput c (min c.pay.len (max 0x200 h.len))
    match jobLoadCheck b c h img with
    | some st =>
      let refused := if st = stTierFault then refusedResident b c.who h img else none
      let b := match refused with
        | some (i, g) => b.refuseTile (b.freeMxcs.getD i 0) g c.opcode
        | none => b
      b.finish id st
    | none =>
      let x := h.job img (b.freeClusters.take h.clusters) (b.freeMxcs.take h.mxcs) id
      let tile (i t : Nat) : Option Bytes := (x.entries[i]?).bind (fun e => b.entryTile c.who e t)
      let copies := (homeList x.entries).map (fun k => (tile k.1 k.2).getD [])
      if copies ≠ [] ∧ b.noWrites then b.finish id stTierFault
      else
        let b0 := x.clusters.foldl Block.loadCode (b.putJob c.object (some x))
        let b1 := b0.homeTiles .job c.object 0 ((List.range copies.length).map (fun n => (n, copies.getD n [])))
        (List.range x.mxcs.length).foldl (fun b i =>
          let m := x.mxcs.getD i 0
          (match b.landResident x tile i m with | .ok b => b | .error _ => b).raiseInt (pMxc m) 17) b1)
    (fun c b => b.finish c.id (jobLoadUnread b c))

/-- JOB_LOAD. -/
def execJobLoad (cmd : Nat) (s : State) : Result := .next (s.on (jobLoad cmd))

/-- LOAD_COMPLETE (R273): the load has finished, or the image has become unreadable during it. -/
def loadComplete (j : Nat) (readable : Bool) (b : Block) : Block :=
  match b.job j with
  | none => b
  | some x =>
    if x.st ≠ .loading then b
    else if !readable then b.failLoad j stTierFault
    else if !b.homeSealed .job j 0 then b
    else
      let late := match x.loadCmd.bind b.cmd with | some c => b.passed c.deadline | none => false
      if late then b.failLoad j stLate
      else
        let b := b.putJob j (some { x with st := .loaded, loadCmd := none })
        match x.loadCmd with | some id => b.finish id stOk { count := x.clusters.length } | none => b

/-- LOAD_COMPLETE. -/
def execLoadComplete (job : Fin 64) (readable : Bool) (s : State) : Result := .next (s.on (loadComplete job.val readable))

/-! ## JOB_RUN (R269 to R271, R304) -/

/-- The dies JOB_RUN and JOB_STOP can be admitted on: those that hold clusters bound to the job, or either (R82). -/
def Block.jobDies (b : Block) (j : Nat) : List Nat :=
  match b.job j with
  | some x => [0, 1].filter (fun d => x.clusters.any (fun c => decide (c / 256 = d)))
  | none => [0, 1]

/-- The first check of R269 that fails. -/
def jobRunCheck (b : Block) (c : Cmd) (invoke : Bool) : Option Nat :=
  let job := b.job c.object
  let is (st : JobState) : Bool := match job with | some x => decide (x.st = st) | none => false
  let service : Bool := match job with | some x => x.service | none => false
  let misfit : Bool := match job with | some x => decide (x.invIn < c.pay.len ∨ c.res.len < x.invOut) | none => false
  if c.param 1 127 ≠ 0 ∨ (c.object ≤ 63 ∧ job.isNone) then some stBadCommand
  else if !invoke ∧ is .running then some stBadCommand
  else if invoke ∧ c.object ≤ 63 ∧ (!service ∨ !c.payValid ∨ !c.resValid ∨ misfit) then some stBadCommand
  else if 63 < c.object then some stOutOfRange
  else if is .loading ∨ is .stopping ∨ (invoke ∧ !is .running) then some stDisabled
  else none

/-- Units of a job replaced: those with a property by free ones, in order; `none` where free ones run out. -/
def replaceUnits (bad : Nat → Bool) : List Nat → List Nat → Option (List Nat)
  | [], _ => some []
  | u :: us, free =>
    if bad u then
      match free with
      | [] => none
      | f :: fs => (replaceUnits bad us fs).map (f :: ·)
    else (replaceUnits bad us free).map (u :: ·)

/-- The job with its broken units replaced (R269, R304): a cluster that holds a fenced core or is not RUNNING, a matrix core
whose page is not RUNNING; the code is loaded into the new cluster, the resident extents into the new matrix core. Or else a status,
DISABLED where free units run out and TIER_FAULT where a resident tile cannot be read or is refused (R18, R288), with the block that
records it. -/
def Block.replaceBroken (b : Block) (j : Nat) (x : Job) : Except (Nat × Block) Block :=
  let badC (c : Nat) : Bool := !b.unitRuns (pScl c) || decide (b.fencedCores c ≠ [])
  let badM (m : Nat) : Bool := !b.unitRuns (pMxc m)
  let kept := b.putJob j (some { x with clusters := x.clusters.filter (fun c => !badC c), mxcs := x.mxcs.filter (fun m => !badM m) })
  match replaceUnits badC x.clusters kept.freeClusters, replaceUnits badM x.mxcs kept.freeMxcs with
  | some cs, some ms =>
    let y : Job := { x with clusters := cs, mxcs := ms }
    let b0 := (x.clusters ++ cs).foldl (fun b c => if badC c || !decide (c ∈ x.clusters) then b.loadCode c else b) (b.putJob j (some y))
    (List.range ms.length).foldlM (fun b' i =>
      let m := ms.getD i 0
      let old := x.mxcs.getD i 0
      if m = old then .ok b'
      else match ((b'.setMxc old {}).raiseInt (pMxc old) 17).landResident y (b'.jobTile j y) i m with
        | .ok b' => .ok (b'.raiseInt (pMxc m) 17)
        | .error (some g) => .error (stTierFault, b.refuseTile m g 0x41)
        | .error none => .error (stTierFault, b)) b0
  | _, _ => .error (stDisabled, b)

/-- Threads started on every core of every bound cluster, counters at INIT, the schedule at entry 0 (R258, R269, R301). -/
def Block.startThreads (b : Block) (j : Nat) (payload : Bytes) (cmd : Option Nat) : Block :=
  match b.job j with
  | none => b
  | some x =>
    let ctrs : List ((Nat × Nat × Nat) × Ctr) := b.cores.ctrs.filter (fun e => !decide (e.1.1 ∈ x.clusters))
    let b := { b with cores := { b.cores with ctrs := ctrs } }
    let b := b.putJob j (some { x with st := .running, ended := [], payload := payload, queue := [], runCmd := cmd, left := false })
    let b := x.mxcs.foldl (fun b m => (b.setMxc m { b.mxc m with counters := [], steps := [], next := 0, copies := [] }).fetchAhead m) b
    x.clusters.foldl (fun b c => (b.bump (pScl c) 1 (576 * x.threads)).raiseMark (pScl c) 0x110 12 (576 * x.threads)) b

/-- Bytes 0x00 to 0x1F of each frame: the two references, 0 where not valid (R258). -/
def framePayload (c : Cmd) : Bytes :=
  (if c.payValid then padTo (slice c.raw 0x10 16) 16 else List.replicate 16 0) ++
  (if c.resValid then padTo (slice c.raw 0x20 16) 16 else List.replicate 16 0)

/-- JOB_RUN (R269, R270). A batch job's command ends with its run; a service job's ends once its threads have started; an
invocation's ends with it. -/
def jobRunStep (invoke : Bool) (id : Nat) (b : Block) : Block :=
  match b.cmd id with
  | none => b
  | some c =>
    if c.phase ≠ .handed ∨ c.opcode ≠ 0x41 ∨ decide (c.param 0 1 = 1) ≠ invoke then b
    else b.admitCmd id 0x41 (b.jobDies c.object) (fun c b =>
      match jobRunCheck b c invoke, b.job c.object with
      | some st, _ => b.finish id st
      | none, none => b
      | none, some x =>
        if b.lacksLease c then b.finish id stNoLease
        else if invoke then (b.countInput c c.pay.len).queueInvocation c.object (some id) none (b.readInput c 0 c.pay.len) c.deadline
        else match b.replaceBroken c.object x with
          | .error (st, b) => b.finish id st
          | .ok b =>
            if x.service then (b.startThreads c.object (framePayload c) none).finish id stOk
            else b.startThreads c.object (framePayload c) (some id))

/-- JOB_RUN with INVOKE 0. -/
def execJobRun (cmd : Nat) (s : State) : Result := .next (s.on (jobRunStep false cmd))
/-- JOB_RUN with INVOKE 1. -/
def execJobRunInvoke (cmd : Nat) (s : State) : Result := .next (s.on (jobRunStep true cmd))

/-- ALL_THREADS_END (R273): every thread of a RUNNING job has executed END. A batch JOB_RUN ends OK, once the moves to its result
reference are done (DEDUCED, log 143); invocations of a service job end ABORTED. -/
def allThreadsEnd (j : Nat) (b : Block) : Block :=
  match b.job j with
  | none => b
  | some x =>
    let moving := b.cores.moves.any (fun m => decide (m.job = j ∧ m.killed = false) && m.place.isResult)
    if x.st = .running ∧ x.clusters.all (fun c => decide (x.threadsOn c = 0)) ∧ !moving then b.endRunAs j stOk stAborted else b

/-- ALL_THREADS_END. -/
def execAllThreadsEnd (job : Fin 64) (s : State) : Result := .next (s.on (allThreadsEnd job.val))

/-! ## JOB_STOP (R272) -/

/-- A RUNNING job given to STOPPING (R273): its threads issue no more, and they are killed when the meter next counts. The job
has left RUNNING (R275). -/
def Block.beginStop (b : Block) (j : Nat) (cmd : Option Nat) (unload : Bool) : Block :=
  match b.job j with
  | some x => if x.st = .running then (b.putJob j (some { x with st := .stopping, stopCmd := cmd, unload := unload })).leaveRunning x else b
  | none => b

/-- A job freed where UNLOAD is 1. -/
def Block.freeJob (b : Block) (j : Nat) (unload : Bool) : Block :=
  match unload, b.job j with
  | true, some x => b.unloadJob j x
  | _, _ => b

/-- The threads of a STOPPING job killed (R272, R273): JOB_RUN and the invocations end ABORTED, the job is LOADED, or ABSENT
under UNLOAD, and JOB_STOP ends OK. -/
def Block.endStop (b : Block) (j : Nat) : Block :=
  match b.job j with
  | none => b
  | some x =>
    if x.st ≠ .stopping then b
    else
      let b := (b.runOver j x stAborted stAborted).freeJob j x.unload
      match x.stopCmd with | some id => b.finish id stOk | none => b

/-- Every STOPPING job's threads killed. -/
def Block.endStops (b : Block) : Block := (b.jobList.map (·.1)).foldl Block.endStop b

/-- JOB_STOP: a RUNNING job is STOPPING until its threads are killed; on a LOADED job the command ends at once. UNLOAD frees
the job. -/
def jobStop (id : Nat) (b : Block) : Block :=
  match b.cmd id with
  | none => b
  | some c =>
    if c.phase ≠ .handed then b
    else b.admitCmd id 0x42 (b.jobDies c.object) (fun c b =>
      match b.job c.object with
      | none => b.finish id stBadCommand
      | some x =>
        if c.param 1 127 ≠ 0 then b.finish id stBadCommand
        else if x.st = .loading ∨ x.st = .stopping then b.finish id stDisabled
        else if x.st = .running then b.beginStop c.object (some id) (decide (c.param 0 1 = 1))
        else (b.freeJob c.object (decide (c.param 0 1 = 1))).finish id stOk)

/-- JOB_STOP. -/
def execJobStop (cmd : Nat) (s : State) : Result := .next (s.on (jobStop cmd))

/-! ## Jobs among other events (R273, R274, R304) -/

/-- A core fenced, by a parity error of its local store (LS_PARITY) or by the test at the end of ENABLING (R274): FENCE_MAP and
FENCED are views of the fenced cores; the run of a job bound to the cluster ends TIER_FAULT, and so does the search whose thread the
core holds. -/
def Block.fenceCore (b : Block) (c u : Nat) (parity : Bool) : Block :=
  let l := b.fencedCores c
  let new : List Nat := if u ∈ l then l else snoc l u
  let b := { b with cores := { b.cores with fenced := sset [] b.cores.fenced c new } }
  let op := (((b.clusterJob c).map (·.1)).or ((b.searchThread c u).map (·.job))).elim 0 b.runOp
  let b := (if parity then b.raiseErr (pScl c) 17 op else b).raiseInt (pScl c) 17
  match b.clusterJob c with
  | some e => b.endRun e.1 stTierFault
  | none => match b.searchThread c u with | some y => b.endRun y.job stTierFault | none => b

/-- The RUNNING jobs with a property end their runs. -/
def Block.endJobs (b : Block) (p : Job → Bool) (st : Nat) : Block :=
  b.jobList.foldl (fun b e => if e.2.st = .running ∧ p e.2 then b.endRun e.1 st else b) b

/-- A rope member leaves: RUNNING jobs with ROPE 1 end PEER_LOST (R273). -/
def Block.jobsPeerLost (b : Block) : Block := b.endJobs (fun x => x.rope) stPeerLost

/-- Every place of the rope has been reported ready: service jobs that a loss stopped run again (R273). -/
def Block.jobsRestart (b : Block) : Block :=
  b.jobList.foldl (fun b e =>
    if e.2.st = .loaded ∧ e.2.left ∧ e.2.rope then
      match b.replaceBroken e.1 e.2 with
      | .ok b => b.startThreads e.1 e.2.payload none
      | .error (_, b) => b
    else b) b

end Sys2Proof.Machine
end

