-- ==== Sys2Proof/Machine/Threads.lean ====
section
/-! DEFINITION. Threads of jobs and their instructions (R247 to R258, R262, R270, R364). Its rows: SIG, WAIT, WAIT_COMPLETE,
TAKE, TEST, MOVE, BLOCK_MOVE_COMPLETE, TILE, TILE_COMPLETE, LSUM4, SCALAR_INTEGER, SCALAR_BINARY32, SIMD, LOCAL_STORE,
METER, END, INVGET, INVEND. -/

namespace Sys2Proof.Machine

/-! ## Threads (R256 to R258) -/

/-- Bytes of staging SRAM of a die. -/
abbrev stagingBytes := 2 ^ 27

/-- A thread at the start of a run (R258). The core's number within the job is its cluster's position in the job times 576 plus
its number on the cluster, and runs are numbered from 0 by those that have ended (DESIGN CHOICE, log 157). -/
def startThread (x : Job) (j : Nat) (t : ThreadRef) : Thread :=
  let core := x.clusters.idxOf t.cluster.val * 576 + t.core.val
  { ref := t, job := j
    s := [BitVec.ofNat 32 core, BitVec.ofNat 32 t.thread, BitVec.ofNat 32 x.runs] ++ List.replicate 29 0
    v := List.replicate 16 0, frame := Memory.write [] 0 x.payload }

/-- The matrix cores that serve search on a die: RUNNING and bound to no job (R306). -/
def Block.searchMxcs (b : Block) (die : Nat) : List Nat :=
  (span (32 * die) 32).filter (fun m => b.unitRuns (pMxc m) && (b.mxcJob m).isNone)

/-- What a thread of a search context runs, as a program: the 64 KiB code store, its frame, its core's counters in fault mode, and
the matrix cores of its die that serve search (R255, R259, R306; DESIGN CHOICE, log 140). -/
def Block.searchProgram (b : Block) (y : Thread) : Job :=
  { st := .running, service := false, rope := false, determ := false, threads := 1, realign := 0, frame := y.room, invMax := 0
    invIn := 0, invOut := 0, codeLen := 65536, check := 0, counters := y.ctrs, clusters := []
    mxcs := b.searchMxcs (y.ref.cluster.val / 256) }

/-- A thread that has not ended, with the number and the program it runs for: a RUNNING job's, or from 64 on a search
context's (R258, R259). -/
def Block.thread (b : Block) (t : ThreadRef) : Option (Nat × Job × Thread) :=
  match b.clusterJob t.cluster.val with
  | none => (b.cores.threads.find? (fun y => decide (64 ≤ y.job) && decide (y.ref = t))).map (fun y => (y.job, b.searchProgram y, y))
  | some (j, x) =>
    if x.st ≠ .running ∨ x.threads ≤ t.thread ∨ t ∈ x.ended then none
    else match b.cores.threads.find? (fun y => decide (y.ref = t)) with
      | some y => some (j, x, y)
      | none => some (j, x, startThread x j t)

/-- A thread given a state. -/
def Block.putThread (b : Block) (y : Thread) : Block :=
  let rest : List Thread := b.cores.threads.filter (fun z => decide (z.ref ≠ y.ref))
  { b with cores := { b.cores with threads := y :: rest } }

/-- The cores of a cluster issue: its page takes part in RUNNING and DRAINING, and not in bivouac. -/
def Block.coreRuns (b : Block) (c : Nat) : Bool := decide (b.pageState (pScl c) = 2 ∨ b.pageState (pScl c) = 3) && !b.fatal

/-- A thread is ready: it waits for nothing (R248, R257). -/
def Block.ready (b : Block) (t : ThreadRef) : Bool :=
  match b.thread t with
  | some (_, _, y) => y.waiting.isNone && !y.parked
  | none => false

/-- The thread that issued last on a thread's core. -/
def Block.lastIssue (b : Block) (t : ThreadRef) : Option Nat :=
  (b.cores.last.find? (fun e => decide (e.1 = (t.cluster.val, t.core.val)))).map (·.2)

/-- The thread's core gives it the next issue step: with two ready threads they alternate (R248). -/
def Block.turn (b : Block) (t : ThreadRef) : Bool := decide (b.lastIssue t ≠ some t.thread) || !b.ready { t with thread := 1 - t.thread }

/-- The thread noted as the last to issue on its core. -/
def Block.noteIssue (b : Block) (t : ThreadRef) : Block :=
  let key := (t.cluster.val, t.core.val)
  let rest : List ((Nat × Nat) × Nat) := b.cores.last.filter (fun e => decide (e.1 ≠ key))
  { b with cores := { b.cores with last := (key, t.thread) :: rest } }

/-- A thread issues its next instruction (R248, R249): one handshake of CNT0, and the position moves on. A position outside
the code section is an execution fault (R252). -/
def Block.issue (b : Block) (t : ThreadRef) (k : Nat → Job → Thread → Block → Block) : Block :=
  match b.thread t with
  | none => b
  | some (j, x, y) =>
    if y.waiting.isSome ∨ y.parked ∨ !b.coreRuns t.cluster.val ∨ !b.turn t then b
    else
      let b := (b.noteIssue t).bump (pScl t.cluster.val) 0
      if x.codeLen < y.pc + 4 then b.execFault t j else k j x { y with pc := y.pc + 4 } b

/-- An instruction that only changes its thread. -/
def Block.issueLocal (b : Block) (t : ThreadRef) (f : Thread → Thread) : Block :=
  b.issue t (fun _ _ y b => b.putThread (f y))

/-- Scalar register n. -/
def Thread.sreg (y : Thread) (n : Fin 32) : BitVec 32 := y.s.getD n.val 0
/-- Vector register n. -/
def Thread.vreg (y : Thread) (n : Fin 16) : BitVec 128 := y.v.getD n.val 0
/-- A scalar register written. -/
def Thread.setS (y : Thread) (n : Fin 32) (x : BitVec 32) : Thread := { y with s := y.s.set n.val x }
/-- A vector register written. -/
def Thread.setV (y : Thread) (n : Fin 16) (x : BitVec 128) : Thread := { y with v := y.v.set n.val x }

/-- A thread that cannot go on waits: it parks (R257), since a core holds at most two threads of a job, or one of a search, and two
park entries. -/
def Block.park (b : Block) (t : ThreadRef) (y : Thread) (w : Waiting) : Block :=
  let n := b.cores.order
  let b := b.putThread { y with waiting := some w, parked := true, order := n }
  { b with cores := { b.cores with order := n + 1 } }.bump (pScl t.cluster.val) 3

/-! ## Counter instructions (R262 to R265) -/

/-- The counter of a thread's core. -/
def ownCtr (t : ThreadRef) (c : Fin 48) : CounterRef := .core t.cluster t.core c

/-- The threads that wait on a counter of a core, by when they issued their WAIT. -/
def Block.waiters (b : Block) (t : ThreadRef) (c : Nat) : List Thread :=
  b.cores.threads.filter (fun y => decide (y.ref.cluster = t.cluster ∧ y.ref.core = t.core) &&
    (match y.waiting with | some (.ctr k _) => decide (k = c) | _ => false))

/-- SIG (R262): a signal of n sent to a counter of a core of the same job or of a matrix core bound to it; any other target,
or n outside 1 to 65,535, is an execution fault. -/
def sigStep (t : ThreadRef) (target : CounterRef) (n : Nat) (b : Block) : Block :=
  b.issue t (fun j _ y b =>
    match b.ctrInfo target with
    | some i => if i.job = j ∧ 1 ≤ n ∧ n ≤ 65535 then (b.putThread y).sendSignal (some t) target n j else b.execFault t j
    | none => b.execFault t j)

/-- SIG. -/
def ownSig (thread : ThreadRef) (target : CounterRef) (n : Nat) (s : State) : Result := .next (s.on (sigStep thread target n))

/-- WAIT (R262, R263): VALUE at least n and no earlier WAIT on the counter: n is subtracted. Otherwise the thread parks. An n
above BOUND is an underflow at issue. -/
def waitStep (t : ThreadRef) (c : Fin 48) (n : Nat) (b : Block) : Block :=
  b.issue t (fun j _ y b =>
    match b.ctrInfo (ownCtr t c) with
    | none => b
    | some i =>
      if n = 0 ∨ 65535 < n then b.execFault t j
      else if i.bound < n then
        (b.putThread { y with cond := 0 }).overUnder (ownCtr t c) i 1 (b.ctr (ownCtr t c) i.init).value
      else if n ≤ (b.ctr (ownCtr t c) i.init).value ∧ b.waiters t c.val = [] then (b.putThread y).subCtr (ownCtr t c) i n
      else b.park t y (.ctr c.val n))

/-- WAIT. -/
def ownWait (thread : ThreadRef) (ctr : Fin 48) (n : Nat) (s : State) : Result := .next (s.on (waitStep thread ctr n))

/-- TAKE (R262). -/
def takeStep (t : ThreadRef) (c : Fin 48) (n : Nat) (b : Block) : Block :=
  b.issue t (fun j _ y b =>
    match b.ctrInfo (ownCtr t c) with
    | none => b
    | some i =>
      let v := (b.ctr (ownCtr t c) i.init).value
      if n = 0 ∨ 65535 < n then b.execFault t j
      else if n ≤ v then (b.putThread { y with cond := 1 }).subCtr (ownCtr t c) i n
      else (b.putThread { y with cond := 0 }).overUnder (ownCtr t c) i 1 v)

/-- TAKE. -/
def ownTake (thread : ThreadRef) (ctr : Fin 48) (n : Nat) (s : State) : Result := .next (s.on (takeStep thread ctr n))

/-- TEST (R262): VALUE returned, nothing else changed. -/
def testStep (t : ThreadRef) (c : Fin 48) (rd : Fin 32) (b : Block) : Block :=
  b.issue t (fun _ _ y b =>
    match b.ctrInfo (ownCtr t c) with
    | none => b
    | some i => b.putThread (y.setS rd (BitVec.ofNat 32 (b.ctr (ownCtr t c) i.init).value)))

/-- TEST. -/
def ownTest (thread : ThreadRef) (ctr : Fin 48) (rd : Fin 32) (s : State) : Result := .next (s.on (testStep thread ctr rd))

/-! ## Arithmetic (R249 to R252) -/

/-- A comparison's result. -/
def flag32 (p : Bool) : BitVec 32 := if p then 1 else 0

/-- A result that R249 does not fix for operands with the top bit set. -/
def mulHigh (x y : BitVec 32) : BitVec 32 :=
  if x.msb || y.msb then Config.scalarFree 0 x y else BitVec.ofNat 32 (x.toNat * y.toNat / 2 ^ 32)

/-- A scalar integer instruction (R249, R250): results wrap modulo 2³²; `none` is an execution fault. -/
def intOp (op : IntOp) (y : Thread) (codeLen : Nat) : Option Thread :=
  match op with
  | .add d a c => some (y.setS d (y.sreg a + y.sreg c))
  | .sub d a c => some (y.setS d (y.sreg a - y.sreg c))
  | .and d a c => some (y.setS d (y.sreg a &&& y.sreg c))
  | .or d a c => some (y.setS d (y.sreg a ||| y.sreg c))
  | .xor d a c => some (y.setS d (y.sreg a ^^^ y.sreg c))
  | .shl d a c => some (y.setS d (y.sreg a <<< (min 32 (y.sreg c).toNat)))
  | .shr d a c => some (y.setS d (y.sreg a >>> (min 32 (y.sreg c).toNat)))
  | .sar d a c => some (y.setS d ((y.sreg a).sshiftRight (min 32 (y.sreg c).toNat)))
  | .mulLow d a c => some (y.setS d (y.sreg a * y.sreg c))
  | .mulHigh d a c => some (y.setS d (mulHigh (y.sreg a) (y.sreg c)))
  | .eq d a c => some (y.setS d (flag32 (decide (y.sreg a = y.sreg c))))
  | .ltS d a c => some (y.setS d (flag32 ((y.sreg a).slt (y.sreg c))))
  | .ltU d a c => some (y.setS d (flag32 ((y.sreg a).ult (y.sreg c))))
  | .select d a c e => some (y.setS d (if y.sreg a ≠ 0 then y.sreg c else y.sreg e))
  | .constant d v => some (y.setS d v)
  | .branch a target =>
    if y.sreg a = 0 then some y
    else if target % 4 = 0 ∧ target + 4 ≤ codeLen then some { y with pc := target } else none
  | .unimplemented => none

/-- SCALAR_INTEGER. -/
def scalarIntegerStep (t : ThreadRef) (op : IntOp) (b : Block) : Block :=
  b.issue t (fun j x y b => match intOp op y x.codeLen with | some y => b.putThread y | none => b.execFault t j)

/-- SCALAR_INTEGER. -/
def ownScalarInteger (thread : ThreadRef) (op : IntOp) (s : State) : Result := .next (s.on (scalarIntegerStep thread op))

/-- min or max of two binary32 values: a NaN propagates; of two zeros of opposite sign the spec names none. -/
def minMax32 (max : Bool) (x y : BitVec 32) : BitVec 32 :=
  if f32Real x = .nan ∨ f32Real y = .nan then nan32
  else if eq32 x y then (if x = y then x else Config.scalarFree (if max then 2 else 1) x y)
  else if lt32 x y = max then y else x

/-- A scalar binary32 instruction (R249, R250). -/
def floatOp (op : FloatOp) (y : Thread) : Thread :=
  match op with
  | .add d a c => y.setS d (add32 (y.sreg a) (y.sreg c))
  | .sub d a c => y.setS d (sub32 (y.sreg a) (y.sreg c))
  | .mul d a c => y.setS d (mul32 (y.sreg a) (y.sreg c))
  | .eq d a c => y.setS d (flag32 (eq32 (y.sreg a) (y.sreg c)))
  | .lt d a c => y.setS d (flag32 (lt32 (y.sreg a) (y.sreg c)))
  | .le d a c => y.setS d (flag32 (lt32 (y.sreg a) (y.sreg c) || eq32 (y.sreg a) (y.sreg c)))
  | .min d a c => y.setS d (minMax32 false (y.sreg a) (y.sreg c))
  | .max d a c => y.setS d (minMax32 true (y.sreg a) (y.sreg c))
  | .key d a => y.setS d (orderKey (y.sreg a))
  | .fromInt32 d a => y.setS d (int32f (y.sreg a).toInt)
  | .fromFmt d a f => y.setS d (numTo32 f (y.sreg a).toNat)
  | .toBf16 d a => y.setS d (BitVec.ofNat 32 (toBf16 (y.sreg a)))

/-- The instruction is one of R249: there is no conversion from INT4. -/
def floatOpKnown : FloatOp → Bool
  | .fromFmt _ _ .int4 => false
  | _ => true

/-- SCALAR_BINARY32: an encoding the module does not implement is an execution fault (R252). -/
def scalarBinary32Step (t : ThreadRef) (op : FloatOp) (b : Block) : Block :=
  b.issue t (fun j _ y b => if floatOpKnown op then b.putThread (floatOp op y) else b.execFault t j)

/-- SCALAR_BINARY32. -/
def ownScalarBinary32 (thread : ThreadRef) (op : FloatOp) (s : State) : Result := .next (s.on (scalarBinary32Step thread op))

/-- The lanes of a vector register, lowest first: 16 of 8 bits, or 8 of 16 bits when `wide`. -/
def lanes (wide : Bool) (x : BitVec 128) : List Nat :=
  let w := if wide then 16 else 8
  (List.range (128 / w)).map (fun i => nbits x.toNat (w * i) w)

/-- A vector register from its lanes. -/
def ofLanes (wide : Bool) (l : List Nat) : BitVec 128 :=
  let w := if wide then 16 else 8
  BitVec.ofNat 128 (l.reverse.foldl (fun a x => a * 2 ^ w + x % 2 ^ w) 0)

/-- A lane's value, signed or unsigned. -/
def laneVal (wide signd : Bool) (v : Nat) : Int := if signd then signed (if wide then 16 else 8) v else v

/-- An exact lane result as the lane holds it: wrapped, or clamped to the lane's range (R250). -/
def laneOut (wide sat signd : Bool) (z : Int) : Nat :=
  let w := if wide then 16 else 8
  let lo : Int := if signd then -(2 ^ (w - 1)) else 0
  let hi : Int := if signd then 2 ^ (w - 1) - 1 else 2 ^ w - 1
  let z := if sat then max lo (min hi z) else z
  (z % (2 ^ w : Int)).toNat

/-- A lane by lane operation of two registers. -/
def laneMap (wide : Bool) (f : Nat → Nat → Nat) (x y : BitVec 128) : BitVec 128 :=
  ofLanes wide (List.zipWith f (lanes wide x) (lanes wide y))

/-- The sum of 16 INT8 × INT8 products (R249, R250). -/
def dot8 (x y : BitVec 128) : BitVec 32 :=
  BitVec.ofInt 32 ((List.zipWith (fun a c => signed 8 a * signed 8 c) (lanes false x) (lanes false y)).foldl (· + ·) 0)

/-- A SIMD instruction (R249, R250). -/
def simdOp (op : SimdOp) (y : Thread) : Thread :=
  match op with
  | .add w sat sg d a c => y.setV d (laneMap w (fun p q => laneOut w sat sg (laneVal w sg p + laneVal w sg q)) (y.vreg a) (y.vreg c))
  | .sub w sat sg d a c => y.setV d (laneMap w (fun p q => laneOut w sat sg (laneVal w sg p - laneVal w sg q)) (y.vreg a) (y.vreg c))
  | .min w sg d a c => y.setV d (laneMap w (fun p q => if laneVal w sg p ≤ laneVal w sg q then p else q) (y.vreg a) (y.vreg c))
  | .max w sg d a c => y.setV d (laneMap w (fun p q => if laneVal w sg p ≤ laneVal w sg q then q else p) (y.vreg a) (y.vreg c))
  | .eq w d a c => y.setV d (laneMap w (fun p q => if p = q then 2 ^ 16 - 1 else 0) (y.vreg a) (y.vreg c))
  | .lt w sg d a c => y.setV d (laneMap w (fun p q => if laneVal w sg p < laneVal w sg q then 2 ^ 16 - 1 else 0) (y.vreg a) (y.vreg c))
  | .select d a c e => y.setV d ((y.vreg a &&& y.vreg c) ||| (~~~ (y.vreg a) &&& y.vreg e))
  | .shuffle w d a c =>
    let src := lanes w (y.vreg a)
    y.setV d (ofLanes w ((lanes w (y.vreg c)).map (fun i => src.getD (i % src.length) 0)))
  | .dot8 d lane a c =>
    let r := y.vreg d
    let at_ := 32 * lane.val
    let keep := r &&& ~~~ ((0xFFFFFFFF#128) <<< at_)
    y.setV d (keep ||| ((dot8 (y.vreg a) (y.vreg c)).setWidth 128 <<< at_))

/-- SIMD. -/
def ownSimd (thread : ThreadRef) (op : SimdOp) (s : State) : Result :=
  .next (s.on (fun b => b.issueLocal thread (simdOp op)))

/-- A span of the frame lies inside it and is aligned to its size (R249, R252). -/
def inFrame (x : Job) (addr len align : Nat) : Bool := decide (addr + len ≤ x.frame) && decide (addr % align = 0)

/-- LSUM4 (R249, R250): 4 nibbles of a code looked up in the table's next 4 × 16 bytes and added to an accumulator. -/
def lsum4Step (t : ThreadRef) (acc : Fin 32) (code : BitVec 16) (table : Nat) (b : Block) : Block :=
  b.issue t (fun j x y b =>
    if !inFrame x table 64 1 then b.execFault t j
    else
      let sum := (List.range 4).foldl (fun n i => n + (y.frame.byte (table + 16 * i + nbits code.toNat (4 * i) 4)).toNat) 0
      b.putThread (y.setS acc (y.sreg acc + BitVec.ofNat 32 sum)))

/-- LSUM4. -/
def ownLsum4 (thread : ThreadRef) (acc : Fin 32) (code : BitVec 16) (table : Nat) (s : State) : Result :=
  .next (s.on (lsum4Step thread acc code table))

/-- The size and address of a load or store. -/
def storeSpan : StoreOp → Nat × Nat
  | .loadS n _ a | .storeS n _ a => (n, a)
  | .loadV _ a | .storeV _ a => (16, a)

/-- A load or store inside the frame (R249, R252): a scalar of 8 bytes takes two registers. -/
def storeOp (op : StoreOp) (y : Thread) : Thread :=
  match op with
  | .loadS n d a =>
    let v := leNat (Memory.read y.frame a n)
    let y := y.setS d (BitVec.ofNat 32 v)
    if n = 8 then y.setS (d + 1) (BitVec.ofNat 32 (v / 2 ^ 32)) else y
  | .storeS n r a =>
    let v := (y.sreg r).toNat + (if n = 8 then 2 ^ 32 * (y.sreg (r + 1)).toNat else 0)
    { y with frame := Memory.write y.frame a (toLe v n) }
  | .loadV d a => y.setV d (BitVec.ofNat 128 (leNat (Memory.read y.frame a 16)))
  | .storeV r a => { y with frame := Memory.write y.frame a (toLe (y.vreg r).toNat 16) }

/-- LOCAL_STORE. -/
def localStoreStep (t : ThreadRef) (op : StoreOp) (b : Block) : Block :=
  b.issue t (fun j x y b =>
    let n := (storeSpan op).1
    let size := match op with | .loadS _ _ _ | .storeS _ _ _ => decide (n = 1 ∨ n = 2 ∨ n = 4 ∨ n = 8) | _ => true
    if !size || !inFrame x (storeSpan op).2 n (max 1 n) then b.execFault t j else b.putThread (storeOp op y))

/-- LOCAL_STORE. -/
def ownLocalStore (thread : ThreadRef) (op : StoreOp) (s : State) : Result := .next (s.on (localStoreStep thread op))

/-- METER (R249): the die's meter follower read. Every follower is taken to differ from the IO die's meter by 0, of the one unit
that R74 allows (DESIGN CHOICE, log 116). -/
def meterStep (t : ThreadRef) (lo hi : Fin 32) (b : Block) : Block :=
  b.issueLocal t (fun y => (y.setS lo (BitVec.ofNat 32 b.meter)).setS hi (BitVec.ofNat 32 (b.meter / 2 ^ 32)))

/-- METER. -/
def ownMeter (thread : ThreadRef) (lo hi : Fin 32) (s : State) : Result := .next (s.on (meterStep thread lo hi))

/-- END (R249): the thread ends; its moves in flight go on. -/
def endStep (t : ThreadRef) (b : Block) : Block :=
  b.issue t (fun j _ y b =>
    if 64 ≤ j then b.endSearchThreads (fun z => decide (z.ref = t)) false
    else
      let l : List Thread := b.cores.threads.filter (fun z => decide (z.ref ≠ t))
      { b with cores := { b.cores with threads := l, moves := endMoves t y.frame b.cores.moves } }.setJob j
        (fun x => { x with ended := t :: x.ended }))

/-- END. -/
def execEnd (thread : ThreadRef) (s : State) : Result := .next (s.on (endStep thread))

/-! ## Block moves and tier requests (R249, R253, R364) -/

/-- The far side of a move exists: a 64 B aligned span of staging SRAM; or, of a batch run's threads moving out of their frames,
one of the run's result reference (R249, R271). -/
def Block.placeOk (b : Block) (x : Job) (toFrame : Bool) (place : MovePlace) (len : Nat) : Bool :=
  match place with
  | .staging a => decide (a % 64 = 0 ∧ a + len ≤ stagingBytes)
  | .result off =>
    match x.runCmd.bind b.cmd with
    | some c => !toFrame && !x.service && c.resValid && decide (off % 64 = 0 ∧ off + len ≤ c.res.len)
    | none => false

/-- MOVE (R249, R271): 64 B to 4 KiB, 64 B aligned, between the frame and the staging SRAM of the thread's die, or from the frame to
the result reference of a batch run. One that names no such span is an execution fault. -/
def moveStep (t : ThreadRef) (toFrame : Bool) (addr : Nat) (place : MovePlace) (len : Nat) (c : Fin 48) (b : Block) : Block :=
  b.issue t (fun j x y b =>
    if len < 64 ∨ 4096 < len ∨ len % 64 ≠ 0 ∨ !b.placeOk x toFrame place len ∨ !inFrame x addr len 64 then b.execFault t j
    else
      let (id, b) := (b.putThread y).fresh
      let l : List MoveRun := snoc b.cores.moves
        { id := id, thread := t, job := j, toFrame := toFrame, addr := addr, place := place, len := len, ctr := c.val }
      { b with cores := { b.cores with moves := l } })

/-- MOVE. -/
def execMove (thread : ThreadRef) (toFrame : Bool) (frameAddr : Nat) (place : MovePlace) (len : Nat) (ctr : Fin 48) (s : State) : Result :=
  .next (s.on (moveStep thread toFrame frameAddr place len ctr))

/-- The die of a cluster. -/
def threadDie (t : ThreadRef) : Nat := t.cluster.val / 256

/-- Counter c of a thread's core, given as a number. -/
def coreCtr (t : ThreadRef) (c : Nat) : CounterRef := .core t.cluster t.core (Fin.ofNat 48 c)

/-- A completion's signal to a counter of the core of the thread that issued the work (R249, R253): it applies at once, since
the data is in place; one whose counter is gone signals nothing. -/
def Block.signalDone (b : Block) (t : ThreadRef) (c : Nat) (quiet : Bool) : Block :=
  if quiet then b else (b.bump (pScl t.cluster.val) 7).addCtr (coreCtr t c) 1

/-- A move's data out of a frame put in place (R249, R271). -/
def Block.moveOut (b : Block) (m : MoveRun) (data : Bytes) : Block :=
  match m.place with
  | .staging a => b.putStaging m.job (threadDie m.thread) a data
  | .result off => match (b.job m.job).bind (·.runCmd) with | some id => b.writeResult id off data | none => b

/-- The staging bytes that a move brings into a frame. -/
def Block.moveIn (b : Block) (m : MoveRun) : Bytes :=
  match m.place with
  | .staging a => Memory.read (b.staging (threadDie m.thread)) a m.len
  | .result _ => []

/-- BLOCK_MOVE_COMPLETE (R253, R260): the data is in place and the counter is signalled; of a thread that has executed END only
data out of its frame has a place. Data of a killed thread is discarded. -/
def blockMoveComplete (id : Nat) (b : Block) : Block :=
  match b.cores.moves.find? (fun m => decide (m.id = id)) with
  | none => b
  | some m =>
    if b.bivouac then b
    else
      let rest : List MoveRun := b.cores.moves.filter (fun y => decide (y.id ≠ id))
      let b := ({ b with cores := { b.cores with moves := rest } }).portBytes m.thread.cluster.val m.len
      if m.killed then b
      else match m.after, b.thread m.thread with
        | some data, _ => (if m.toFrame then b else b.moveOut m data).signalDone m.thread m.ctr m.quiet
        | none, none => b
        | none, some (_, _, y) =>
          (if m.toFrame then b.putThread { y with frame := Memory.write y.frame m.addr (b.moveIn m) }
            else b.moveOut m (Memory.read y.frame m.addr m.len)).signalDone m.thread m.ctr m.quiet

/-- BLOCK_MOVE_COMPLETE. -/
def execBlockMoveComplete (move : Nat) (s : State) : Result := .next (s.on (blockMoveComplete move))

/-- The tile of a header: KIND, FORM and TILE of a key (R87, R364). -/
def tileNamed (key : Bytes) (t : Bytes) : Bool :=
  decide (le t 0 1 = le key 0 1 ∧ le t 1 1 = le key 1 1 ∧ le t 0x10 4 = le key 8 4)

/-- A state tile with the header the module builds (chapter 14, "Context state"). -/
def stateTileBytes (l : Layer) (n : Nat) (data : Bytes) : Bytes :=
  let body := padTo data 16384
  let head := toLe 3 1 ++ toLe 0 1 ++ toLe 1 2 ++ toLe 16384 4 ++ toLe l.object 2 ++ toLe 0 2 ++ toLe l.gen 4 ++ toLe n 4 ++
    toLe 0 4 ++ toLe 0 8 ++ toLe l.layer 2 ++ List.replicate 22 0
  head ++ toLe (crc64 (head ++ body)).toNat 8 ++ body

/-- The tile a key names (R364): `none` where it names none; the tile's bytes, empty where it cannot be read. -/
def Block.keyTile (b : Block) (j : Nat) (job : Option Job) (key : Bytes) : Option Bytes :=
  let kind := le key 0 1
  let form := le key 1 1
  let object := le key 2 2
  let ver := le key 4 4
  let n := le key 8 4
  let layer := le key 0xC 2
  if kind = 0 ∧ 0x10 ≤ form then
    match job with
    | none => none
    | some x =>
      if object ≠ j ∨ ver ≠ 0 ∨ layer ≠ 0 then none else
      let all := (List.range x.entries.length).flatMap (fun i =>
        (List.range ((x.entries[i]?).map (·.tiles) |>.getD 0)).filterMap (b.jobTile j x i))
      all.find? (tileNamed key)
  else if kind = 2 ∧ form = 0x20 then
    match b.tableOf object with
    | some t => if t.bindable ver ∧ n * rowsPerTile t.rowBytes < t.rows ∧ layer = 0 then
        some (if (span (n * rowsPerTile t.rowBytes) (rowsPerTile t.rowBytes)).all (fun r => decide (t.rows ≤ r) || b.holdsRow object r)
          then t.rowTile ver n else []) else none
    | none => none
  else if kind = 3 then
    match b.layers.find? (fun l => decide (l.object = object ∧ l.layer = layer)) with
    | some l => if form ≠ 0 ∨ ver ≠ 0 then none else (l.tiles[n]?).map (fun t => if t.tier.lost then [] else stateTileBytes l n t.data)
    | none => none
  else
    match (b.index object).version ver with
    | some v => if v.state = .mounting ∨ layer ≠ 0 then none else ((v.tiles.map (·.2)).find? (tileNamed key))
    | none => none

/-- Where flash has the tile that a key names, and as what the DRAM tier holds a copy of it; none while it lies in DRAM for good: a code
tile held there, a dirty state tile, one that flash does not have (R359, R364). -/
def Block.keyHome (b : Block) (j : Nat) (job : Option Job) (key : Bytes) : Option (CacheKey × (StripeRow × Member)) :=
  let kind := le key 0 1
  let form := le key 1 1
  let object := le key 2 2
  let ver := le key 4 4
  let n := le key 8 4
  let layer := le key 0xC 2
  if kind = 0 ∧ 0x10 ≤ form then
    job.bind (fun x =>
      let all := (List.range x.entries.length).flatMap (fun i => (List.range ((x.entries[i]?).map (·.tiles) |>.getD 0)).map (fun t => (i, t)))
      (all.find? (fun e => (b.jobTile j x e.1 e.2).any (tileNamed key))).bind (fun e =>
        (b.jobSite j x e.1 e.2).map (fun s => (.weight j e.1 e.2, s))))
  else if kind = 2 ∧ form = 0x20 then
    (b.tableOf object).bind (fun t =>
      let row := n * rowsPerTile t.rowBytes
      (b.rowSite t ver row).map (fun s => (b.rowKey t ver row, s)))
  else if kind = 3 then
    (b.layer object layer).bind (fun l => (b.stateSite l n).map (fun s => (l.key n, s)))
  else
    ((b.index object).version ver).bind (fun v => (v.tiles.find? (fun t => tileNamed key t.2)).bind (fun t =>
      if (b.goodTiles v).any (fun d => decide (d.tile = t.1)) then none
      else (b.tileSite v t.1).map (fun s => (.index object ver t.1, s))))

/-- A key's tile read as it is asked for: one that DRAM does not hold comes from flash in class 2 (R185, R362). -/
def Block.fetchKey (b : Block) (j : Nat) (key : Bytes) : Block :=
  match b.keyHome j (b.job j) key with | some (k, s) => b.fetchTile k (some s) | none => b

/-- A key's tile cannot be read from flash, and DRAM holds no copy of it, or no copy of it is left (R195, R394, R445). -/
def Block.keyLost (b : Block) (j : Nat) (key : Bytes) : Bool :=
  let object := le key 2 2
  let n := le key 8 4
  let gone : Bool :=
    if le key 0 1 = 2 ∧ le key 1 1 = 0x20 then
      (b.tableOf object).any (fun t => b.pageGone (.row object (le key 4 4) (n * rowsPerTile t.rowBytes)))
    else ((b.index object).version (le key 4 4)).any (fun v => v.tiles.any (fun t =>
      tileNamed key t.2 && b.pageGone (.tile object (le key 4 4) t.1)))
  gone || match b.keyHome j (b.job j) key with | some (k, s) => !b.cached k && !b.pageReadable s | none => false

/-- TILE (R364): the key's tile is asked for, and read from flash where DRAM does not hold it; a key outside the frame, a destination that is not 64 B aligned, or a key that
names no tile is an execution fault. -/
def tileStep (t : ThreadRef) (keyAddr staging : Nat) (c : Fin 48) (b : Block) : Block :=
  b.issue t (fun j x y b =>
    let key := Memory.read y.frame keyAddr 32
    if !inFrame x keyAddr 32 1 ∨ staging % 64 ≠ 0 ∨ stagingBytes < staging + tileBytes ∨ (b.keyTile j (b.job j) key).isNone then b.execFault t j
    else
      let (id, b) := ((b.putThread y).fetchKey j key).fresh
      { b with cores := { b.cores with tiles := snoc b.cores.tiles { id := id, thread := t, job := j, key := key, staging := staging, ctr := c.val } } }.portMessage
        t.cluster.val)

/-- TILE. -/
def execTile (thread : ThreadRef) (keyAddr staging : Nat) (ctr : Fin 48) (s : State) : Result :=
  .next (s.on (tileStep thread keyAddr staging ctr))

/-- TILE_COMPLETE (R364): the tile is in staging SRAM and the counter is signalled; a tile that cannot be read ends the run
TIER_FAULT. -/
def tileComplete (id : Nat) (readable : Bool) (b : Block) : Block :=
  match b.cores.tiles.find? (fun m => decide (m.id = id)) with
  | none => b
  | some m =>
    if b.bivouac then b
    else
      let rest : List TileReq := b.cores.tiles.filter (fun y => decide (y.id ≠ id))
      let b := { b with cores := { b.cores with tiles := rest } }
      if m.killed then b
      else match b.keyTile m.job (b.job m.job) m.key with
        | some bs =>
          if readable ∧ bs ≠ [] ∧ !b.keyLost m.job m.key then (b.putStaging m.job (threadDie m.thread) m.staging bs).signalDone m.thread m.ctr m.quiet
          else b.endRun m.job stTierFault
        | none => b.endRun m.job stTierFault

/-- TILE_COMPLETE. -/
def execTileComplete (request : Nat) (readable : Bool) (s : State) : Result := .next (s.on (tileComplete request readable))

/-! ## Invocations (R270) -/

/-- The oldest invocation that holds buffers and that no thread has taken. -/
def Job.nextInvocation (x : Job) : Option Invocation := x.queue.find? (fun i => !i.taken && i.slot.isSome)

/-- An invocation given to a thread: number, staging addresses and input length in s0 to s3. -/
def Block.giveInvocation (b : Block) (j : Nat) (x : Job) (y : Thread) (i : Invocation) : Block :=
  let bufs := x.buffers j (i.slot.getD 0)
  let w (n : Nat) : BitVec 32 := BitVec.ofNat 32 n
  let y := ((((y.setS 0 (w i.number)).setS 1 (w bufs.1)).setS 2 (w bufs.2)).setS 3 (w i.input.length))
  let queue : List Invocation := mapIf (fun k => decide (k.number = i.number)) (fun k => { k with taken := true }) x.queue
  (b.putThread y).putJob j (some { x with queue := queue })

/-- Invocations that wait take the buffers that are free. -/
def Block.fillInvocations (b : Block) (j : Nat) : Block :=
  match b.job j with
  | some x => (b.putJob j (some x.fillSlots)).copyInputs j x
  | none => b

/-- INVGET (R270): the oldest queued invocation is taken; with none the thread waits. It belongs to service jobs. -/
def invgetStep (t : ThreadRef) (b : Block) : Block :=
  b.issue t (fun j x y b =>
    if !x.service then b.execFault t j
    else
      let b := b.fillInvocations j
      match b.job j with
      | none => b
      | some x => match x.nextInvocation with
        | some i => b.giveInvocation j x y i
        | none => b.park t y .inv)

/-- INVGET. -/
def execInvget (thread : ThreadRef) (s : State) : Result := .next (s.on (invgetStep thread))

/-- The output of an encoder invocation becomes the query vector, and the search's shard requests go out (R150, R270). -/
def Block.encoded (b : Block) (id : Nat) (out : Bytes) : Block :=
  match b.searchOf id, b.cmd id with
  | some x, some c =>
    match (b.index x.index).version x.version with
    | none => b
    | some v =>
      if out.length ≠ 2 * v.root.dim then b.endSearch id stBadCommand
      else
        let q := (List.range v.root.dim).map (fun i => BitVec.ofNat 16 (le out (2 * i) 2))
        let b := b.setSearch id (fun s => { s with queries := s.queries.map (fun r => { r with vector := q }) })
        b.fanOut c x v [q]
  | _, _ => b

/-- INVEND (R270): the first `count` bytes of the output buffer go to the result reference, or become the query vector; the
buffers are freed and the invocation completes. One that has ended writes nothing and gives condition 0. A number that no
thread has taken, or a count above INV_OUT, is an execution fault. -/
def invendStep (t : ThreadRef) (number count : Nat) (b : Block) : Block :=
  b.issue t (fun j x y b =>
    match x.queue.find? (fun i => i.taken && decide (i.number = number)) with
    | none => b.execFault t j
    | some i =>
      if x.invOut < count then b.execFault t j
      else
        let out := Memory.read (b.staging x.die) (x.buffers j (i.slot.getD 0)).2 count
        let queue : List Invocation := x.queue.filter (fun k => decide (k.number ≠ number))
        let b := (b.putJob j (some { x with queue := queue })).fillInvocations j
        if i.ended then b.putThread { y with cond := 0 }
        else
          let b := b.putThread { y with cond := 1 }
          match i.cmd, i.search with
          | some id, _ => (b.writeResult id 0 out).finish id stOk { count := count }
          | none, some id => b.encoded id out
          | none, none => b)

/-- INVEND. -/
def execInvend (thread : ThreadRef) (number count : Nat) (s : State) : Result := .next (s.on (invendStep thread number count))

end Sys2Proof.Machine
end

