-- ==== Sys2Proof/Machine/Matrix.lean ====
section
/-! DEFINITION. Matrix-core steps, weight-tile schedules and MoE routing (R276 to R306, R314 to R320). Its rows: ISSUE_STEP,
MATMUL, DIST, TABLE, SCHEDULE_ENTRY_LANDING, ROUTE, WAIT_COMPLETE. -/

namespace Sys2Proof.Machine

/-! ## Exact products and groups (R280 to R282) -/

/-- A format code of R289. -/
def stepFmt : Nat → NumFmt
  | 0 => .int4 | 1 => .int8 | 2 => .e4m3 | 3 => .e5m2 | 4 => .bf16 | _ => .fp16

/-- An exact product, in units of 2^-298 (R280). -/
def product (x y : F32) : Real :=
  match f32Real x, f32Real y with
  | .fin _ 0, _ => .fin false 0
  | _, .fin _ 0 => .fin false 0
  | .nan, _ => .nan
  | _, .nan => .nan
  | .inf a, .inf b => .inf (a ^^ b)
  | .inf a, .fin b _ => .inf (a ^^ b)
  | .fin a _, .inf b => .inf (a ^^ b)
  | .fin a m, .fin b n => .fin (a ^^ b) (m * n)

/-- The signed value of a finite product. -/
def Real.val : Real → Int
  | .fin neg m => signedMag neg m
  | _ => 0

/-- The group result g of R281. -/
def groupSum (ps : List Real) : F32 :=
  let pos := decide (Real.inf false ∈ ps)
  let neg := decide (Real.inf true ∈ ps)
  if Real.nan ∈ ps ∨ (pos ∧ neg) then nan32
  else if pos then inf32 false
  else if neg then inf32 true
  else
    let z := (ps.map Real.val).foldl (· + ·) 0
    round32 (decide (z < 0)) z.natAbs 298

/-- The groups of a row of products: `g` at a time, in order. -/
def groupsOf (g : Nat) : Nat → List Real → List (List Real)
  | 0, _ => []
  | _ + 1, [] => []
  | fuel + 1, l => l.take g :: groupsOf g fuel (l.drop g)

/-- The accumulator over the groups in ascending order (R282). -/
def accumulate (start : F32) (gs : List (List Real)) (scales : List F32) : F32 :=
  (List.zipWith (fun g s => mul32 (groupSum g) s) gs scales).foldl (fun acc p => add32 p acc) start

/-- A result converted to OFMT (R312). -/
def outBits (ofmt : Nat) (v : F32) : Bytes :=
  match ofmt with
  | 0 => toLe v.toNat 4
  | 1 => toLe (toBf16 v) 2
  | 2 => toLe (toFp16 v) 2
  | 3 => toLe (toE4m3 v) 1
  | 4 => toLe (toE5m2 v) 1
  | _ => toLe (toInt8 v) 1

/-- Bytes of an OFMT value. -/
def outSize (ofmt : Nat) : Nat := if ofmt = 0 then 4 else if ofmt < 3 then 2 else 1

/-! ## The step descriptor (R289 to R291) -/

/-- A step descriptor read. -/
structure StepDesc where
  kind : Nat
  form : Nat
  axis : Nat
  accum : Bool
  listed : Bool
  metric : Nat
  afmt : Nat
  wfmt : Nat
  g : Nat
  ofmt : Nat
  waitCtr : Nat
  waitEn : Bool
  waitN : Nat
  act : Nat
  actStride : Nat
  out : Nat
  outStride : Nat
  rows : Nat
  src : Nat
  aux : Nat
  kdim : Nat
  ndim : Nat
  wbase : Nat
  sbase : Nat
  m : Nat
  code8 : Bool
deriving DecidableEq, Repr

/-- The descriptor as R289 lays it out. -/
def readStep (d : Bytes) : StepDesc :=
  let bit (off i : Nat) : Bool := decide (nbits (le d off 1) i 1 = 1)
  { kind := nbits (le d 0 1) 0 2, form := nbits (le d 0 1) 2 2, axis := nbits (le d 0 1) 4 1, accum := bit 0 5,
    listed := bit 0 6, metric := nbits (le d 0 1) 7 1, afmt := nbits (le d 1 1) 0 3, wfmt := nbits (le d 1 1) 3 3,
    g := nbits (le d 1 1) 6 2, ofmt := nbits (le d 2 1) 0 3, waitCtr := nbits (le d 3 1) 0 6, waitEn := bit 3 6,
    waitN := le d 4 2, act := le d 8 4, actStride := le d 0xC 4, out := le d 0x10 4, outStride := le d 0x14 4,
    rows := nbits (le d 0x18 4) 0 17, src := le d 0x1C 4, aux := le d 0x20 4, kdim := le d 0x24 2, ndim := le d 0x26 2,
    wbase := nbits (le d 0x28 4) 0 9, sbase := nbits (le d 0x28 4) 16 9, m := le d 0x2C 1, code8 := bit 0x2D 0 }

/-- A DIM as DIST and TABLE take it (R293, R294). -/
def dimOk (d : Nat) : Bool := decide (64 ≤ d ∧ d ≤ 4096 ∧ d % 16 = 0)

/-- Centroids per subquantiser of a TABLE step. -/
def StepDesc.k (d : StepDesc) : Nat := if d.code8 then 256 else 16

/-- Bytes of one output row. -/
def StepDesc.outRow (d : StepDesc) : Nat :=
  if d.kind = 2 then (if d.ofmt = 6 then d.m * d.k + 8 else 4 * d.m * d.k) else d.ndim * outSize d.ofmt

/-- The descriptor follows R289 to R291, as far as it can be told without the tiles. -/
def StepDesc.ok (d : StepDesc) : Bool :=
  let aligned := decide (d.act % 64 = 0 ∧ d.actStride % 64 = 0 ∧ d.out % 64 = 0 ∧ d.outStride % 64 = 0 ∧ d.src % 64 = 0 ∧ d.aux % 64 = 0)
  let common := decide (d.kind < 3 ∧ d.form < 3 ∧ d.g < 3 ∧ d.afmt < 6 ∧ d.wfmt < 6 ∧ d.ofmt < 7 ∧ 1 ≤ d.kdim) && aligned &&
    (d.listed || decide (1 ≤ d.rows ∧ d.rows ≤ 65536)) && (!d.waitEn || decide (1 ≤ d.waitN)) &&
    (!d.accum || decide (d.ofmt = 0)) && (decide (d.ofmt ≠ 6) || decide (d.kind = 2)) && (!d.listed || decide (d.kind = 0))
  common &&
  (match d.kind with
   | 0 =>
     let sk := if d.axis = 0 then d.kdim else d.ndim
     let sn := if d.axis = 0 then d.ndim else d.kdim
     decide (1 ≤ d.ndim ∧ sk % ktOf d.wfmt = 0 ∧ sn % 128 = 0) && (d.listed || decide (d.src = 0 ∧ d.aux = 0))
   | 1 => decide (d.afmt = 4 ∧ d.wfmt ≠ 0 ∧ d.ofmt = 0 ∧ 1 ≤ d.ndim ∧ d.ndim ≤ 1024) && dimOk d.kdim
   | _ => decide (d.afmt = 4 ∧ d.ndim = 0 ∧ d.src = 0 ∧ d.aux = 0 ∧ (d.ofmt = 0 ∨ d.ofmt = 6) ∧ d.m ∈ [16, 32, 64, 128] ∧
       d.kdim % (max 1 d.m) = 0 ∧ d.kdim / (max 1 d.m) ≤ 256) && dimOk d.kdim && (decide (d.ofmt = 0) || decide (d.outRow ≤ d.outStride)))

/-! ## Reading operands -/

/-- Element i of a packed row of a format (R310). -/
def packed (fmt : Nat) (bs : Bytes) (off i : Nat) : Nat :=
  match fmtBits fmt with
  | 4 => nbits (le bs (off + i / 2) 1) (4 * (i % 2)) 4
  | 8 => le bs (off + i) 1
  | _ => le bs (off + 2 * i) 2

/-- Bytes of a packed row. -/
def packedBytes (fmt n : Nat) : Nat := (n * fmtBits fmt + 7) / 8

/-- A packed row as binary32. -/
def row32 (fmt : Nat) (bs : Bytes) (n : Nat) : List F32 := (List.range n).map (fun i => numTo32 (stepFmt fmt) (packed fmt bs 0 i))

/-- Stored element (k, n) of a matrix tile (R287). -/
def tileElem (t : Bytes) (wfmt k n : Nat) : F32 :=
  let kt := ktOf wfmt
  if le t 1 1 = 0x10 then numTo32 (stepFmt wfmt) (packed wfmt t 64 (n * kt + k))
  else
    let q := n * (kt / 4) + k / 4
    let idx := nbits (le t (64 + packedBytes wfmt (kt * 64) + q / 2) 1) (4 * (q % 2)) 4
    if k % 4 = idx % 4 then numTo32 (stepFmt wfmt) (packed wfmt t 64 (2 * q))
    else if k % 4 = idx / 4 then numTo32 (stepFmt wfmt) (packed wfmt t 64 (2 * q + 1))
    else 0

/-- The tile at a granule. -/
def Mxc.tile (y : Mxc) (g : Nat) : Bytes := sget [] y.tiles g

/-- The tiles of a step's stored matrix, by (nb, kb) in order: `none` where one is missing, of another format or form, or
beyond granule 511 (R290, R291). -/
def Mxc.matrix (y : Mxc) (d : StepDesc) : Option (List Bytes) :=
  let sk := if d.axis = 0 then d.kdim else d.ndim
  let sn := if d.axis = 0 then d.ndim else d.kdim
  let n := sk / ktOf d.wfmt * (sn / 128)
  let first := y.tile d.wbase
  let gran := tileGran first
  (List.range n).mapM (fun i =>
    let t := y.tile (d.wbase + i * gran)
    if t ≠ [] ∧ (le t 1 1 = 0x10 ∨ le t 1 1 = 0x11) ∧ le t 1 1 = le first 1 1 ∧ nbits (le t 0x20 1) 0 3 = d.wfmt ∧
      d.wbase + (i + 1) * gran ≤ 512 then some t else none)

/-- The weight of reduction position p and output o (R278, R290). -/
def weightAt (d : StepDesc) (ts : List Bytes) (p o : Nat) : F32 :=
  let kt := ktOf d.wfmt
  let sk := if d.axis = 0 then d.kdim else d.ndim
  let k := if d.axis = 0 then p else o
  let n := if d.axis = 0 then o else p
  tileElem (ts.getD (n / 128 * (sk / kt) + k / kt) []) d.wfmt (k % kt) (n % 128)

/-- The elements of scale tiles from a granule on, from element `first` of the set, up to `all` of them (R315, R316). -/
def Mxc.scaleTiles (y : Mxc) (all : Nat) : Nat → Nat → Nat → Option (List F32)
  | 0, _, _ => none
  | fuel + 1, at_, first =>
    let t := y.tile at_
    let n := le t 0x2C 4
    if t = [] ∨ le t 1 1 ≠ 0x12 ∨ le t 0x28 4 ≠ first ∨ !scaleOk t then none
    else
      let l := (List.range n).map (fun i => BitVec.ofNat 32 (le t (64 + 4 * i) 4))
      if all < first + n then none
      else if first + n = all then some l
      else (Mxc.scaleTiles y all fuel (at_ + tileGran t) (first + n)).map (l ++ ·)

/-- The scale set of a MATMUL (R314, R316): element (q, o) at o × QN + q. The first tile gives the G code, QN and ON. -/
def Mxc.scales (y : Mxc) (d : StepDesc) : Option (List F32) :=
  let size := 32 * 2 ^ d.g
  let qn := (d.kdim + size - 1) / size
  let t := y.tile d.sbase
  if t = [] ∨ le t 1 1 ≠ 0x12 ∨ nbits (le t 0x20 1) 0 2 ≠ d.g then none
  else if nbits (le t 0x20 1) 2 1 = 1 then some (List.replicate (qn * d.ndim) (BitVec.ofNat 32 (le t 64 4)))
  else if le t 0x22 2 ≠ qn ∨ le t 0x24 4 ≠ d.ndim then none
  else y.scaleTiles (qn * d.ndim) 512 d.sbase 0

/-! ## What a step computes -/

/-- What a step does: rows written in staging SRAM, what its counters gain, and what it leaves in the accumulators and the weight
registers of the PEs (R276); or a fault of R291. -/
structure StepOut where
  writes : List (Nat × Bytes)
  steps : Nat := 0
  skipped : Nat := 0
  intake : Nat := 0
  dists : Nat := 0
  acc : List F32 := []
  inUse : List F32 := []
  spare : List F32 := []
deriving DecidableEq, Repr

/-- Reduction positions covered in one PE step (R277, R284), and outputs per pass. -/
def StepDesc.shape (d : StepDesc) (sparse : Bool) : Nat × Nat :=
  let depth := if d.form = 0 then 64 else 16
  let depth := if sparse ∧ d.axis = 0 then 2 * depth else depth
  let depth := if d.afmt = 0 ∧ d.wfmt = 0 then 2 * depth else depth
  (depth, if d.form = 2 then 1024 else 256)

/-- PE steps executed and skipped by a MATMUL (R277, R285): slices whose activations are all zero are skipped; WIDE takes four
rows in one step. -/
def StepDesc.peSteps (d : StepDesc) (sparse : Bool) (rows : List (List F32)) : Nat × Nat :=
  let (depth, width) := d.shape sparse
  let rate := if 4 ≤ d.afmt ∨ 4 ≤ d.wfmt then 4 else 1
  let passes := (d.ndim + width - 1) / width
  let sets := if d.form = 1 then (List.range ((rows.length + 3) / 4)).map (fun i => (rows.drop (4 * i)).take 4) else rows.map (fun r => [r])
  let slices := (d.kdim + depth - 1) / depth
  let idle := sets.foldl (fun n s => n + ((List.range slices).filter (fun i =>
    s.all (fun r => ((r.drop (depth * i)).take depth).all (fun x => decide (x = 0 ∨ x = 0x80000000#32))))).length) 0
  ((sets.length * slices - idle) * passes * rate, idle * passes * rate)

/-- PE steps of DIST and TABLE over some rows, reduction positions and outputs (R277): none is skipped, since a zero contributes to a
distance. -/
def StepDesc.plainSteps (d : StepDesc) (rows kdim ndim : Nat) : Nat :=
  let (depth, width) := d.shape false
  let rate := if 4 ≤ d.afmt ∨ 4 ≤ d.wfmt then 4 else 1
  (if d.form = 1 then (rows + 3) / 4 else rows) * ((kdim + depth - 1) / depth) * ((ndim + width - 1) / width) * rate

/-- The weights that the PEs hold for block n of a MATMUL, slice by slice within a pass (R277, R279; DESIGN CHOICE, log 159). -/
def StepDesc.block (d : StepDesc) (weight : Nat → Nat → F32) (sparse : Bool) (n : Nat) : List F32 :=
  let (depth, width) := d.shape sparse
  let slices := max 1 ((d.kdim + depth - 1) / depth)
  (span (n % slices * depth) depth).flatMap (fun p => (span (n / slices * width) width).map (fun o =>
    if p < d.kdim ∧ o < d.ndim then weight p o else 0))

/-- The last `n` of a list, and the last `n` before those. -/
def lastTwo {α : Type} (n : Nat) (l : List α) : List α × List α :=
  let rest := l.take (l.length - n)
  (l.drop (l.length - n), rest.drop (rest.length - n))

/-- The activation rows of a MATMUL: those of a dispatch list when LISTED (R297). -/
def StepDesc.rowList (d : StepDesc) (mem : Memory) : List Nat :=
  if d.listed then (List.range (leNat (Memory.read mem d.aux 4))).map (fun r => leNat (Memory.read mem (d.src + 4 * r) 4))
  else List.range d.rows

/-- Every span of a list lies in staging SRAM. -/
def inStaging (l : List (Nat × Nat)) : Bool := l.all (fun s => decide (s.1 + s.2 ≤ stagingBytes))

/-- MATMUL (R290, R297): `none` is a fault of R291. -/
def matmulOut (y : Mxc) (mem : Memory) (d : StepDesc) : Option StepOut :=
  if d.listed ∧ 65536 < leNat (Memory.read mem d.aux 4) then none
  else if d.listed ∧ leNat (Memory.read mem d.aux 4) = 0 then some { writes := [] }
  else match y.matrix d, y.scales d with
    | some ts, some sc =>
      let rows := d.rowList mem
      let len := packedBytes d.afmt d.kdim
      let size := 32 * 2 ^ d.g
      let qn := (d.kdim + size - 1) / size
      if !inStaging (rows.map (fun r => (d.act + r * d.actStride, len))) || !inStaging [(d.out + (rows.length - 1) * d.outStride, d.outRow)] ||
         !inStaging [(d.src, if d.listed then 4 * rows.length else 0), (d.aux, 4)] then none
      else
        let xs := rows.map (fun r => row32 d.afmt (Memory.read mem (d.act + r * d.actStride) len) d.kdim)
        let sparse := decide (le (ts.headD []) 1 1 = 0x11)
        let value (r o : Nat) (x : List F32) : F32 :=
          let ps := (List.range d.kdim).map (fun p => product (x.getD p 0) (weightAt d ts p o))
          let start := if d.accum then BitVec.ofNat 32 (leNat (Memory.read mem (d.out + r * d.outStride + 4 * o) 4)) else 0
          accumulate start (groupsOf size d.kdim ps) ((sc.drop (o * qn)).take qn)
        let values := (List.range rows.length).map (fun r => (List.range d.ndim).map (fun o => value r o (xs.getD r [])))
        let writes := (List.range rows.length).map (fun r =>
          (d.out + r * d.outStride, (values.getD r []).flatMap (outBits d.ofmt)))
        let pe := d.peSteps sparse xs
        let passes := (d.ndim + (d.shape sparse).2 - 1) / (d.shape sparse).2
        let blocks := passes * ((d.kdim + (d.shape sparse).1 - 1) / (d.shape sparse).1)
        some { writes := writes, steps := pe.1, skipped := pe.2, intake := rows.length * len * passes
               acc := (lastTwo 65536 values.flatten).1, inUse := d.block (weightAt d ts) sparse (blocks - 1)
               spare := if blocks < 2 then [] else d.block (weightAt d ts) sparse (blocks - 2) }
    | _, _ => none

/-- DIST (R293). -/
def distOut (mem : Memory) (d : StepDesc) : Option StepOut :=
  let q := 2 * d.kdim
  let vlen := packedBytes d.wfmt d.kdim
  if !inStaging [(d.act + (d.rows - 1) * d.actStride, q), (d.src + (d.ndim - 1) * d.aux, vlen),
      (d.out + (d.rows - 1) * d.outStride, d.outRow)] then none
  else
    let vecs := (List.range d.ndim).map (fun v => row32 d.wfmt (Memory.read mem (d.src + v * d.aux) vlen) d.kdim)
    let writes := (List.range d.rows).map (fun r =>
      let x := row32 4 (Memory.read mem (d.act + r * d.actStride) q) d.kdim
      (d.out + r * d.outStride, vecs.flatMap (fun v => toLe (distance d.metric x v).toNat 4)))
    let held := lastTwo 16384 vecs.flatten
    some { writes := writes, steps := d.plainSteps d.rows d.kdim d.ndim, intake := d.rows * q + d.ndim * vlen, dists := d.rows * d.ndim
           inUse := held.1, spare := held.2 }

/-- The codebook tiles from WBASE in tile order (R294). -/
def Mxc.codebook (y : Mxc) (d : StepDesc) : Option Bytes :=
  let bytes := 2 * d.k * d.kdim
  let n := (bytes + 16383) / 16384
  ((List.range n).mapM (fun i =>
    let g := d.wbase + 8 * i
    let t := y.tile g
    if t ≠ [] ∧ le t 1 1 = (if d.code8 then 2 else 1) ∧ g + tileGran t ≤ 512 then some (t.drop 64) else none)).map (fun l => l.flatten.take bytes)

/-- TABLE (R294, R319, R320): each subquantiser is a block of its own for the PEs (DESIGN CHOICE, log 159). -/
def tableOut (y : Mxc) (mem : Memory) (d : StepDesc) : Option StepOut :=
  match y.codebook d with
  | none => none
  | some cb =>
    let q := 2 * d.kdim
    if !inStaging [(d.act + (d.rows - 1) * d.actStride, q), (d.out + (d.rows - 1) * d.outStride, d.outRow)] then none
    else
      let writes := (List.range d.rows).map (fun r =>
        let x := row32 4 (Memory.read mem (d.act + r * d.actStride) q) d.kdim
        let t := distTable d.metric d.kdim d.m d.k cb x
        let bytes := if d.ofmt = 0 then t.flatMap (fun v => toLe v.toNat 4)
          else
            let (lo, inv) := tableScale t
            (t.map (fun v => BitVec.ofNat 8 (quantise lo inv v))) ++ toLe lo.toNat 4 ++ toLe inv.toNat 4
        (d.out + r * d.outStride, bytes))
      let held := lastTwo 16384 (row32 4 cb (d.k * d.kdim))
      some { writes := writes, steps := d.m * d.plainSteps d.rows (d.kdim / max 1 d.m) d.k, intake := d.rows * q
             inUse := held.1, spare := held.2 }

/-- What a step of a descriptor computes. -/
def stepOut (y : Mxc) (mem : Memory) (d : StepDesc) : Option StepOut :=
  match d.kind with
  | 0 => matmulOut y mem d
  | 1 => distOut mem d
  | _ => tableOut y mem d

/-! ## Steps (R289 to R292) -/

/-- A step put into a matrix core's queue. -/
def Block.queueStep (b : Block) (m : Nat) (x : Step) : Block :=
  let y := b.mxc m
  let l : List Step := snoc y.steps x
  (b.setMxc m { y with steps := l }).raiseMark (pMxc m) 0x110 5 l.length

/-- What a step's issuer runs still runs: a job, or the context of a search. -/
def Block.issuerRuns (b : Block) (j : Nat) : Bool := if j < 64 then b.jobRunning j else (b.ctx (j - 64)).isSome

/-- A step refused (R291): STEP_FAULT, and an execution fault of its issuing thread. -/
def Block.stepFault (b : Block) (m j : Nat) (t : ThreadRef) : Block := (b.raiseErr (pMxc m) 20 (b.runOp j)).execFault t j

/-- The matrix core that an index names: one of a job's; for search firmware the module takes the cores that serve search in turn
(DESIGN CHOICE, log 142). -/
def Job.mxc? (x : Job) (j index : Nat) : Option Nat := if j < 64 then x.mxcs[index]? else x.mxcs[index % x.mxcs.length]?

/-- ISSUE_STEP (R289, R291, R292): the 64 B descriptor in the thread's frame is checked and the step queued at the job's
matrix core of that index; an issue to a full queue waits. -/
def issueStepStep (t : ThreadRef) (index addr : Nat) (c : Fin 48) (b : Block) : Block :=
  b.issue t (fun j x y b =>
    if !inFrame x addr 64 1 then b.execFault t j
    else match x.mxc? j index with
      | none => b.execFault t j
      | some m =>
        let d := Memory.read y.frame addr 64
        if !(readStep d).ok then b.stepFault m j t
        else if (b.mxc m).steps.length < 16 then ((b.putThread y).portMessage t.cluster.val).queueStep m ⟨t, j, d, c.val⟩
        else b.park t y (.issue m d c.val))

/-- ISSUE_STEP. -/
def ownIssueStep (thread : ThreadRef) (mxc : Fin 64) (desc : Nat) (ctr : Fin 48) (s : State) : Result :=
  .next (s.on (issueStepStep thread mxc.val desc ctr))

/-- What a WAIT of a step or a schedule entry on a matrix-core counter does (R292, R301): it does not hold yet, or the block
with the amount subtracted. An amount above BOUND is an underflow: a counter fault, or MISALIGN and no subtraction. -/
def Block.mxcWait (b : Block) (m ctr n : Nat) (en : Bool) : Option Block :=
  let r : CounterRef := .matrix (Fin.ofNat 64 m) (Fin.ofNat 64 ctr)
  if !en then some b
  else match b.ctrInfo r with
    | none => none
    | some i =>
      let v := (b.ctr r i.init).value
      if i.bound < n then some (b.overUnder r i 1 v)
      else if n ≤ v then some (b.subCtr r i n)
      else none

/-- The step at the head of a matrix core's queue, run when its KIND is the one asked for and its WAIT holds (R292): outputs
written, counters advanced, and the issuer's counter signalled by 1. -/
def runStep (kind m : Nat) (b : Block) : Block :=
  match (b.mxc m).steps with
  | [] => b
  | x :: rest =>
    let d := readStep x.desc
    if d.kind ≠ kind ∨ !b.running (pMxc m) then b
    else match b.mxcWait m d.waitCtr d.waitN d.waitEn with
      | none => b
      | some b =>
        if !(b.issuerRuns x.job) then b
        else
          let y := b.mxc m
          let b := b.setMxc m { y with steps := rest }
          match stepOut (b.weights m) (b.staging (m / 32)) d with
          | none => b.stepFault m x.job x.thread
          | some o =>
            let b := o.writes.foldl (fun b w => b.putStaging x.job (m / 32) w.1 w.2) b
            let b := if o.steps + o.skipped = 0 then b
              else b.setMxc m { b.mxc m with acc := if kind = 0 then o.acc else (b.mxc m).acc, inUse := o.inUse, spare := o.spare }
            let b := ((b.bump (pMxc m) 0).bump (pMxc m) 1 o.steps).bump (pMxc m) 2 o.skipped
            let b := (b.bump (pMxc m) 4 o.intake).bump (pMxc m) 5 o.dists
            b.sendSignal none (coreCtr x.thread x.ctr) 1 x.job

/-- MATMUL. -/
def ownMatmul (mxc : Fin 64) (s : State) : Result := .next (s.on (runStep 0 mxc.val))
/-- DIST. -/
def ownDist (mxc : Fin 64) (s : State) : Result := .next (s.on (runStep 1 mxc.val))
/-- TABLE. -/
def ownTable (mxc : Fin 64) (s : State) : Result := .next (s.on (runStep 2 mxc.val))

/-! ## The weight-tile schedule (R301 to R303) -/

/-- SCHEDULE_ENTRY_LANDING (R288, R301, R302): the next entry of a core of a RUNNING job lands once its WAIT holds, from its DRAM copy,
which is then released, or else from its source; a tile that cannot be read, or that is refused, ends the run TIER_FAULT. -/
def scheduleLanding (m : Nat) (readable : Bool) (b : Block) : Block :=
  match b.mxcJob m with
  | none => b
  | some (j, x) =>
    let l := x.schedOf (x.mxcs.idxOf m)
    if x.st ≠ .running ∨ !b.running (pMxc m) then b
    else match l[(b.mxc m).next]? with
      | none => b
      | some (i, e) =>
        match b.mxcWait m e.waitCtr e.waitN e.waitEn with
        | none => b
        | some b =>
          if !b.jobRunning j then b
          else match (if readable ∧ ((b.mxc m).next ∈ (b.mxc m).copies ∨ b.entryReadable j x i e) then allTiles e.tiles (b.jobTile j x i) else none) with
            | none => b.endRun j stTierFault
            | some ts =>
              match b.landTiles m e.granule ts with
              | .error g => (b.refuseTile m g (b.runOp j)).endRun j stTierFault
              | .ok b =>
                let y := b.mxc m
                let b := if y.next ∈ y.copies then b else b.readEntry j x i e
                let b := (b.setMxc m { y with next := (y.next + 1) % max 1 l.length
                                              copies := y.copies.filter (fun n => decide (n ≠ y.next)) }).fetchAhead m
                if e.sigEn then b.addCtr (.matrix (Fin.ofNat 64 m) (Fin.ofNat 64 e.sigCtr)) 1 else b

/-- SCHEDULE_ENTRY_LANDING. -/
def ownScheduleEntryLanding (mxc : Fin 64) (readable : Bool) (s : State) : Result :=
  .next (s.on (scheduleLanding mxc.val readable))

/-! ## MoE routing (R220, R295, R296) -/

/-- A route block read (R295). -/
structure RouteDesc where
  gate : Nat
  t : Nat
  x : Nat
  k : Nat
  bf : Bool
  cap : Nat
  sel : Nat
  lists : Nat
  counts : Nat
deriving DecidableEq, Repr

/-- The block as R295 lays it out. -/
def readRoute (d : Bytes) : RouteDesc :=
  { gate := le d 0 4, t := nbits (le d 4 4) 0 17, x := nbits (le d 8 4) 0 11, k := nbits (le d 8 4) 11 4,
    bf := decide (nbits (le d 8 4) 15 1 = 1), cap := nbits (le d 0xC 4) 0 17, sel := le d 0x10 4, lists := le d 0x14 4,
    counts := le d 0x18 4 }

/-- Bytes of a gate value. -/
def RouteDesc.size (r : RouteDesc) : Nat := if r.bf then 2 else 4
/-- GSTRIDE. -/
def RouteDesc.gstride (r : RouteDesc) : Nat := roundUp (r.x * r.size) 64
/-- LSTRIDE. -/
def RouteDesc.lstride (r : RouteDesc) : Nat := roundUp (4 * r.cap) 64

/-- The block keeps the ranges and alignments of R295, within staging SRAM. -/
def RouteDesc.ok (r : RouteDesc) : Bool :=
  decide (1 ≤ r.t ∧ r.t ≤ 65536 ∧ 1 ≤ r.x ∧ r.x ≤ 1024 ∧ 1 ≤ r.k ∧ r.k ≤ 8 ∧ r.k ≤ r.x ∧ 1 ≤ r.cap ∧ r.cap ≤ 65536 ∧
    r.gate % 64 = 0 ∧ r.sel % 64 = 0 ∧ r.lists % 64 = 0 ∧ r.counts % 64 = 0) &&
  inStaging [(r.gate, r.t * r.gstride), (r.sel, 8 * r.t * r.k), (r.lists, r.x * r.lstride), (r.counts, 4 * r.x)]

/-- The experts a token selects, by rank, with their gate values as binary32 (R209, R210, R220). -/
def RouteDesc.select (r : RouteDesc) (mem : Memory) (t : Nat) : List (Nat × Nat) :=
  let bs := Memory.read mem (r.gate + t * r.gstride) (r.x * r.size)
  let row := (List.range r.x).map (fun i => le bs (i * r.size) r.size)
  ((topkRank (if r.bf then 1 else 0) true row).take r.k).map (fun e =>
    let v : F32 := if r.bf then bf16 (BitVec.ofNat 16 e.2.2) else BitVec.ofNat 32 e.2.2
    (e.2.1, if f32Real v = .nan then nan32.toNat else v.toNat))

/-- Pairs admitted in ascending (rank, token): the counts so far, and the pairs (token, rank, expert) admitted (R220). -/
def RouteDesc.chosen (r : RouteDesc) (sels : List (List (Nat × Nat))) : List (Nat × Nat × Nat) :=
  let pairs := (List.range r.k).flatMap (fun rank => (List.range sels.length).map (fun t =>
    (t, rank, (((sels.getD t [])[rank]?).map (·.1)).getD 0)))
  (pairs.foldl (fun (a : Sparse Nat × List (Nat × Nat × Nat)) p =>
    let n := sget 0 a.1 p.2.2
    if n < r.cap then (sset 0 a.1 p.2.2 (n + 1), p :: a.2) else a) ([], [])).2.reverse

/-- The outputs of a route operation, as spans of staging SRAM (R296). -/
def RouteDesc.outputs (r : RouteDesc) (mem : Memory) : List (Nat × Bytes) :=
  let sels := (List.range r.t).map (r.select mem)
  let adm := r.chosen sels
  let entry (t rank : Nat) : Bytes :=
    let e := ((sels.getD t [])[rank]?).getD (0, 0)
    toLe (e.1 + (if (t, rank, e.1) ∈ adm then 0 else 2 ^ 16)) 4 ++ toLe e.2 4
  let table := (List.range r.t).flatMap (fun t => (List.range r.k).flatMap (entry t))
  let tokens (x : Nat) : List Nat := (List.range r.t).filter (fun t => adm.any (fun p => decide (p.1 = t ∧ p.2.2 = x)))
  let list (x : Nat) : Bytes := (tokens x).flatMap (fun t => toLe t 4) ++ List.replicate (4 * (r.cap - (tokens x).length)) 0xFF
  [(r.sel, table)] ++ (List.range r.x).map (fun x => (r.lists + x * r.lstride, list x)) ++
  (List.range r.x).map (fun x => (r.counts + 4 * x, toLe (tokens x).length 4))

/-- A route operation issued by a thread (R295): a block outside the frame, or out of range or alignment, is an execution
fault; with no SLU page RUNNING the run ends DISABLED (R205). -/
def routeIssue (t : ThreadRef) (addr : Nat) (c : Fin 48) (b : Block) : Block :=
  b.issue t (fun j x y b =>
    let d := Memory.read y.frame addr 64
    if !inFrame x addr 64 1 || !(readRoute d).ok then b.execFault t j
    else if !b.anySlu then b.endRun j stDisabled
    else
      let deadline := if j < 64 then (x.runCmd.bind b.cmd).bind (·.deadline) else (b.ctx (j - 64)).bind (·.deadline)
      ((b.putThread y).portMessage t.cluster.val).startOp (.route j t d c.val) (threadDie t) deadline)

/-- A route operation in a slot completes: outputs in staging SRAM, the slot freed, the counter signalled by 1. -/
def routeComplete (id : Nat) (b : Block) : Block :=
  match b.ops.find? (fun o => decide (o.id = id)) with
  | none => b
  | some o =>
    match o.work, o.unit with
    | .route j t d c, some u =>
      if !b.running (pSlu u) ∧ b.pageState (pSlu u) ≠ 3 then b
      else
        let die := threadDie t
        let b := ((readRoute d).outputs (b.staging die)).foldl (fun b w => b.putStaging j die w.1 w.2) b
        ((b.endOp id).bump (pSlu u) 7).signalDone t c ((b.ctrInfo (coreCtr t c)).any (fun i => decide (i.job ≠ j)))
    | _, _ => b

/-- ROUTE (R220, R295, R296). -/
def routeStep (part : RouteStep) (b : Block) : Block :=
  match part with
  | .issue t addr c => routeIssue t addr c b
  | .complete id => routeComplete id b

/-- ROUTE. -/
def execRoute (part : RouteStep) (s : State) : Result := .next (s.on (routeStep part))

/-! ## Waiting threads (R257) -/

/-- A parked thread goes on. -/
def unpark (y : Thread) : Thread := { y with waiting := none, parked := false }

/-- WAIT_COMPLETE (R257, R263): a parked thread whose instruction can complete takes a free slot, and the instruction completes.
The WAITs on one counter complete in the order they were issued. -/
def waitComplete (t : ThreadRef) (b : Block) : Block :=
  match b.thread t with
  | none => b
  | some (j, x, y) =>
    if !b.coreRuns t.cluster.val then b
    else match y.waiting with
      | none => b
      | some (.ctr c n) =>
        let r := coreCtr t c
        match b.ctrInfo r with
        | none => b
        | some i =>
          let first := (b.waiters t c).all (fun z => decide (y.order ≤ z.order))
          if first ∧ n ≤ (b.ctr r i.init).value then (b.putThread (unpark y)).subCtr r i n else b
      | some .inv =>
        let b := b.fillInvocations j
        match (b.job j).bind (fun x => x.nextInvocation.map (fun k => (x, k))) with
        | some (x, k) => b.giveInvocation j x (unpark y) k
        | none => b
      | some (.issue m d c) =>
        if (b.mxc m).steps.length < 16 ∧ m ∈ x.mxcs then ((b.putThread (unpark y)).portMessage t.cluster.val).queueStep m ⟨t, j, d, c⟩ else b

/-- WAIT_COMPLETE. -/
def execWaitComplete (thread : ThreadRef) (s : State) : Result := .next (s.on (waitComplete thread))

end Sys2Proof.Machine
end

