-- ==== Sys2Proof/Machine/Endings.lean ====
section
/-! DEFINITION. Commands ended from outside their own course: deadlines, pitch closes, DRAIN_ABORT, members lost. Its rows:
DEADLINE, PITCH_CLOSE. -/

namespace Sys2Proof.Machine

/-! ## Abandoning a command -/

/-- A switch or retirement that waits for its keeper here is withdrawn. -/
def Block.dropAsk (b : Block) (id : Nat) : Block :=
  if b.indexes.all (fun e => !e.2.asks.any (fun r => decide (r.cmd = some id))) then b
  else { b with indexes := smap {} (fun x => { x with asks := x.asks.filter (fun r => decide (r.cmd ≠ some id)) }) b.indexes }

/-- The version that a command is bringing in. -/
def Block.versionOf (b : Block) (id : Nat) : Option (Nat × Version) :=
  b.indexes.findSome? (fun e => (e.2.versions.find? (fun v => v.busy && decide (v.cmd = some id))).map (fun v => (e.1, v)))

/-- An update ended from outside its course. One that holds a cairn has it voided (R232); one whose confirmation another place's
keeper may have recorded goes on to it (R234), until a module-fatal error ends it (R510). -/
def Block.abandonUpdate (b : Block) (u : Update) (st : Nat) : Block :=
  let here := decide ((b.index u.index).keeper = b.place)
  match u.step with
  | .durable | .cairn => b.finish u.cmd st
  | .record => b.voidUpdate u st
  | .confirm => if here ∨ b.fatal then b.voidUpdate u st else b

/-- The status with which a gather or scatter ends: one already found at an owner comes first where R329 or R336 has it before (R329,
R336). -/
def Block.foundFirst (b : Block) (id st : Nat) : Nat :=
  match b.gathers.find? (fun g => decide (g.cmd = id)), b.scatters.find? (fun x => decide (x.cmd = id)) with
  | some g, _ => firstStatus gatherOrder g.failed st
  | none, some x => firstStatus scatterOrder x.failed st
  | none, none => st

/-- A command ended with a status wherever it has come to: a mount or consolidation frees its version, JOB_LOAD its job, a
batch JOB_RUN kills its threads, a search is counted on its QPL page, an update's cairn is voided; every other command frees what
it holds. -/
def Block.abandon (b : Block) (id st : Nat) : Block :=
  match b.cmd id with
  | none => b
  | some c =>
    let b := b.dropAsk id
    match b.versionOf id, b.jobList.find? (fun e => decide (e.2.loadCmd = some id)),
        b.jobList.find? (fun e => decide (e.2.runCmd = some id)) with
    | some (i, v), _, _ => b.failMount i v st
    | none, some e, _ => b.failLoad e.1 st
    | none, none, some e => b.endRun e.1 st
    | none, none, none =>
      let b := if (st = stLate ∨ st = stAborted) ∧ (c.phase = .queued ∨ c.phase = .outside) then b.bump pTrf 6 else b
      if (b.searchOf id).isSome then b.endSearch id st
      else match b.updateOf id with | some u => b.abandonUpdate u st | none => b.finish id (b.foundFirst id st)

/-- A list of commands abandoned with one status. -/
def Block.abandonAll (b : Block) (ids : List Nat) (st : Nat) : Block := ids.foldl (fun b i => b.abandon i st) b

/-! ## Deadlines and pitches (R133 to R138, R148) -/

/-- An update that holds a cairn, or may hold one: its keeper at another place, which has a module, has been asked (R234). -/
def Block.holdsCairn (b : Block) (u : Update) : Bool :=
  let k := (b.index u.index).keeper
  decide (u.step = .record ∨ u.step = .confirm) ||
    (decide (u.step = .cairn) && u.asked && decide (k ∈ b.others) && b.placeReady k)

/-- A command that its deadline no longer ends: an update that holds a cairn or may hold one (R234), a switch or retirement its
keeper has begun, or, while the keeper's place has a module, may have begun (R109, R116, R118, R338), a secure discard at work
(R407). -/
def Block.deadlineFree (b : Block) (id : Nat) : Bool :=
  b.updates.any (fun u => decide (u.cmd = id) && b.holdsCairn u) ||
  b.switching.any (fun r => decide (r.cmd = some id)) ||
  b.tblSwitches.any (fun r => decide (r.cmd = some id) && r.begun) ||
  b.discards.any (fun d => decide (d.cmd = id)) ||
  (match b.cmd id with
   | some c => decide (c.phase = .working ∧ (c.opcode = 0x24 ∨ c.opcode = 0x26 ∨ c.opcode = 0x33)) &&
       (decide (c.opcode = 0x33) || b.placeReady (b.index c.object).keeper) &&
       !b.indexes.any (fun e => e.2.asks.any (fun r => decide (r.cmd = some id))) &&
       !b.tblSwitches.any (fun r => decide (r.cmd = some id))
   | none => false)

/-- The reading at which a forwarded or held request's budget is used up: that of a shard, or of a gather that has one (R148, R328). -/
def reqDue (r : ForwardReq) (arrival : Nat) : Option Nat :=
  match r with
  | .shard q => some (shardDue q arrival)
  | .table q => if q.budget = 0 then none else some (arrival + 10 * q.budget.toNat)
  | .records _ | .deletions _ _ => none

/-- The place that asks, and its number for the request. -/
def reqAsker : ForwardReq → Nat × Nat
  | .shard q => (q.fromPlace, q.reqId)
  | .table q => (q.fromPlace, q.tag)
  | .records m => (m.fromPlace, m.tag)
  | .deletions m _ => (m.fromPlace, m.tag)

/-- Requests of other places that wait here for a context, or are held in a CUTOVER, dropped without a reply (R148, R328); `p`
sees who asks and the reading at which the budget is used up. -/
def Block.dropWaiting (b : Block) (p : Nat × Nat → Nat → Bool) : Block :=
  let b := b.dropRequests (fun e => p (e.1.fromPlace, e.1.reqId) (shardDue e.1 e.2))
  let held (e : ForwardReq × Nat) : Bool := match reqDue e.1 e.2 with | some t => p (reqAsker e.1) t | none => false
  let trim (m : Migration) : Migration := { m with held := m.held.filter (fun e => !held e) }
  { b with plc := { b.plc with moves := b.plc.moves.map trim } }

/-- A command ended LATE wherever it is (R148, R463). -/
def Block.dropLate (b : Block) (id : Nat) : Block := b.abandon id stLate

/-- DEADLINE (R148): the work whose deadline the meter has reached is dropped; a shard request sends no reply, and
neither does a refinement item that serves another place (R198). -/
def deadlineStep (w : WorkRef) (b : Block) : Block :=
  match w with
  | .command id =>
    match b.cmd id with
    | some c => if b.passed c.deadline ∧ !b.deadlineFree id then b.dropLate id else b
    | none => b
  | .context id =>
    match b.ctx id with
    | some x =>
      match x.work with
      | .shard _ => if b.passed x.deadline then (b.bump (pQpl x.die) 3).freeCtxs [id] stLate else b
      | .admitted _ _ => b
    | none => b
  | .item c id =>
    match ((b.engine c.val).items ++ (b.engine c.val).held).find? (fun i => decide (i.id = id)) with
    | some i => match i.work with
      | .refine r => if r.fromPlace ≠ b.place ∧ b.passed i.deadline then b.dropItems (fun j => decide (j.id = id)) stLate else b
      | .cold _ => b
    | none => b
  | .request p tag => b.dropWaiting (fun a t => decide (a = (p, tag)) && b.passed (some t))

/-- DEADLINE. -/
def execDeadline (work : WorkRef) (s : State) : Result := .next (s.on (deadlineStep work))

/-- The types whose counters tenants see, in ascending type code (R481). -/
def viewTypes : List PageType :=
  [.kwf, .kwt, .trf, .cxp, .pim, .flc, .ftl, .bay, .scl, .mxc, .slu, .qpl, .tbl, .plc]

/-- The sum over a type's instances of CNTn, rounded down to a multiple of 1,024 (R481). -/
def Block.coarse (b : Block) (t : PageType) (n : Nat) : Nat :=
  ((List.range t.instances).foldl (fun k i => k + b.get ⟨t, i⟩ (0x40 + 8 * n)) 0) % 2 ^ 64 / 1024 * 1024

/-- The tenant view copied: counter sums, the marks of queues 0 to 35 rounded up as R466 states, and power averaged over
TEL_WIN, rounded down to 8 W (R481). -/
def Block.refreshView (b : Block) : Block :=
  let win := b.fld pSec 0x1A0 16 16 * 100000
  let l := b.governor.samples.filter (fun x => decide (b.meter ≤ x.1 + win))
  let avg (f : Nat × Nat × Nat → Nat) : Nat := l.foldl (fun n x => n + f x) 0 / max 1 l.length / 8 * 8
  let marks (q : Nat) : Nat × Nat := (roundUp (sget 0 b.trf.hwm q) 64, roundUp (sget 0 b.trf.delayHwm q) 1000)
  { b with sec := { b.sec with
      view := viewTypes.map (fun t => (List.range 8).map (b.coarse t))
      viewMarks := (List.range 36).map marks
      power := (avg (·.2.1), avg (·.2.2)) } }

/-- PITCH_CLOSE (R138, R148): the next pitch that has ended closes; everything assigned to it is dropped and its lane
purges. -/
def pitchClose (b : Block) : Block :=
  let p := b.qpl.closed
  if !b.pitches ∨ b.meter < b.get (pQpl 0) 0x110 + (p + 1) * b.pitchLen then b
  else
    let cmds := (b.cmds.filter (fun c => decide (c.pitch = some p))).map (·.id)
    let ctxs := b.qpl.ctxs.filter (fun x => decide (x.pitch = some p))
    let b := [0, 1].foldl (fun b d => (b.bump (pQpl d) 4).bump (pQpl d) 5
      (ctxs.filter (fun x => decide (x.die = d))).length) b
    let b := cmds.foldl (fun b i => b.dropLate i) b
    let shard := ctxs.filter (fun x => match x.work with | .shard _ => true | .admitted _ _ => false)
    let b := shard.foldl (fun b x => b.bump (pQpl x.die) 3) b
    let b := b.freeCtxs (shard.map (·.id)) stLate
    let b := (b.countEnded (b.trf.entries.filter (fun e => decide (e.pitch = some p)))).removeEntries (fun e => decide (e.pitch = some p))
    let b := b.dropWaiting (fun _ t => decide (b.pitchAt t = p))
    { b.refreshView with
             qpl := { b.qpl with closed := p + 1, purging := p % 8 :: b.qpl.purging.erase (p % 8) } }

/-- PITCH_CLOSE. -/
def execPitchClose (s : State) : Result := .next (s.on pitchClose)

end Sys2Proof.Machine
end

