-- ==== Sys2Proof/Machine/Sessions.lean ====
section
/-! DEFINITION. Key slots and client sessions (R475 to R482). Its rows: ARM, DISARM, KILL, SESSION_OPEN, SESSION_PROVE,
SESSION_CLOSE, SESSION_CLOSED, OPENING_TIMEOUT, TELEMETRY_NOTICE. -/

namespace Sys2Proof.Machine

/-! ## Keys -/

/-- `n` bytes drawn from the random generator (R470). -/
def Block.draw (b : Block) (n : Nat) : Bytes × Block :=
  ((Config.random b.free n).toList, { b with free := b.free + 1 })

/-- A key slot. -/
def Block.slot (b : Block) (s : Nat) : KeySlot := sget {} b.sec.slots s

/-- A key slot changed. -/
def Block.setSlot (b : Block) (s : Nat) (x : KeySlot) : Block :=
  { b with sec := { b.sec with slots := sset {} b.sec.slots s x } }

/-! ## The end of a session -/

/-- What the transport and the traffic manager hold of a session dropped, its meter disabled (R452), its keys zeroed: the
session is FREE. -/
def Block.freeSession (b : Block) (n : Nat) : Block :=
  let t := b.transport
  let of_ (m : OutMsg) : Bool := match m.toward with | .session k | .peer k _ => decide (k = n) | _ => false
  let queued (e : TrfEntry) : Bool := match e.kind with | .rope k _ _ _ | .openMsg k _ _ _ => decide (k = n) | _ => false
  let b := (b.egress.filter (fun e => of_ e.msg)).foldl (fun b e => b.markDelay e.queue e.arrived) b
  let b := { b with
    transport := { t with sent := t.sent.filter (fun m => decide (m.session ≠ n)),
                          reasm := t.reasm.filter (fun m => decide (m.session ≠ n)),
                          frames := t.frames.filter (fun m => decide (m.msg.1 ≠ n)), rx := serase n t.rx }
    egress := b.egress.filter (fun e => !of_ e.msg) }.removeEntries queued
  (b.setFlow n { b.flow n with en := false }).setSession n {}

/-- The commands of a session in flight. -/
def Block.sessionCmds (b : Block) (n : Nat) : List Nat :=
  (b.cmds.filter (fun c => match c.src with | .session k _ => decide (k = n) | .port _ => false)).map (·.id)

/-- A session killed (R480): its requests end ABORTED with no reply, its leases end, and it is FREE. -/
def Block.killSession (b : Block) (n : Nat) : Block :=
  let x := b.session n
  if x.state = .closed then b
  else
    let b := b.setSession n { x with state := .closed }
    let b := (b.abandonAll (b.sessionCmds n) stAborted).endLeases n
    ((b.freeSession n).bump pSec 2).raiseInt pKwt 17

/-! ## Slots (R475) -/

/-- A slot returned to EMPTY: its session killed, its key zeroed. FAILS stays until the slot is armed again (R491). -/
def Block.disarm (b : Block) (s : Nat) : Block :=
  let b := b.killSession s
  b.setSlot s { fails := (b.slot s).fails }

/-- The staged key: SLOT_KEY0 to SLOT_KEY7. -/
def Block.stagedKey (b : Block) : Bytes := (List.range 8).flatMap (fun i => toLe (b.get pSec (0x120 + 4 * i)) 4)

/-- A SLOT_CTRL write (R475). -/
def slotCtrlWrite (v : BitVec 32) (b : Block) : Block :=
  let s := b.fld pSec 0x10C 0 12
  let k := b.slot s
  match v.toNat % 8 with
  | 0 => b
  | 1 =>
    if k.st ≠ 0 ∨ b.tstate ≠ 1 then b.raiseErr pSec 18
    else
      let b := b.setSlot s { st := 1, key := b.stagedKey, peer := b.fld pSec 0x110 0 16, rights := b.fld pSec 0x114 0 7 }
      let b : Block := (List.range 8).foldl (fun b i => b.put pSec (0x120 + 4 * i) 0) b
      b.bump pSec 3
  | 2 => if k.st = 1 then b.disarm s else b.raiseErr pSec 18
  | 4 => if k.st = 1 then b.killSession s else b.raiseErr pSec 18
  | _ => b.raiseErr pSec 18

/-- ARM (R475): a SLOT_CTRL write. -/
def ownArm (value : BitVec 32) (s : State) : Result := .next (s.onWrite (slotCtrlWrite value))

/-- DISARM (R475): a SLOT_CTRL write. -/
def ownDisarm (value : BitVec 32) (s : State) : Result := .next (s.onWrite (slotCtrlWrite value))

/-- KILL (R475): a SLOT_CTRL write. -/
def ownKill (value : BitVec 32) (s : State) : Result := .next (s.onWrite (slotCtrlWrite value))

/-! ## Opening (R477 to R480) -/

/-- The command an OPEN message carries. -/
def Block.openCmd (b : Block) (m : OpenMsg) : Cmd := b.newCmd (.session m.session.toNat 0) m.desc m.payload

/-- The descriptor of an opening message is malformed (R476, R477). -/
def badOpen (b : Block) (m : OpenMsg) (op result : Nat) : Bool :=
  let c := b.openCmd m
  badFormat b c || decide (c.opcode ≠ op) || decide (c.seq ≠ 0) || decide (c.object ≠ m.session.toNat) ||
  decide (c.param 0 128 ≠ 0) || !c.payValid || decide (c.pay.addr ≠ 64) || decide (c.pay.len ≠ 64) ||
  !c.resValid || decide (c.res.len < result)

/-- The reply to an opening message: an OPEN message in its request's class (R429). -/
def Block.openReply (b : Block) (m : OpenMsg) (kind : MsgKind) (st : Nat) (result : Bytes) : Block :=
  let c := b.openCmd m
  let x : Extra := if st = stOk then { count := 1 } else {}
  b.send { toward := .peer m.session.toNat m.endpoint.toNat, cls := c.cls, kind := kind,
           data := padTo (recordBytes { c with wrote := false } true st x 0) 64 ++ result }

/-- An OPEN message leaves the ones handed over by TRF. -/
def Block.takeOpen (b : Block) (n : Nat) : Block :=
  match takeFirst (fun k => match k with | .openMsg s _ _ _ => decide (s = n) | _ => false) b.trf.handed with
  | some (_, l) => { b with trf := { b.trf with handed := l } }
  | none => b

/-- SESSION_OPEN (R480): NONCE_M drawn for an armed slot's own peer, or AUTH. -/
def sessionOpen (m : OpenMsg) (b : Block) : Block :=
  let n := m.session.toNat
  let b := b.takeOpen n
  let k := b.slot n
  if b.pageState pKwt ≠ 2 then b.openReply m .refused stDisabled []
  else if badOpen b m 0x70 64 then b.openReply m .refused stBadCommand []
  else if b.tstate ≠ 1 ∨ k.st ≠ 1 ∨ k.peer ≠ m.endpoint.toNat ∨ (b.session n).state ≠ .closed then
    b.openReply m .refused stAuth []
  else
    let (nonce, b) := b.draw 32
    let x : Session := { state := .opening, endpoint := k.peer, rights := k.rights, slot := n, since := b.meter,
                         credits := b.fld pKwt 0x114 0 9, nonceC := slice m.payload 0 32, nonceM := nonce }
    (b.setSession n x).openReply m .challenge stOk (padTo nonce 64)

/-- SESSION_OPEN. -/
def execSessionOpen (msg : OpenMsg) (s : State) : Result := .next (s.on (sessionOpen msg))

/-- The 96 bytes a proof covers (R478). -/
def Block.proofInput (b : Block) (n : Nat) (x : Session) (role : Nat) : Bytes :=
  padTo (padTo x.nonceC 32 ++ padTo x.nonceM 32 ++ toLe n 2 ++ toLe x.endpoint 2 ++ toLe b.endpoint 2 ++ toLe role 1) 96

/-- The session keys of R479: peer to module, module to peer. -/
def sessionKeys (key nonceC nonceM : Bytes) : Bytes × Bytes :=
  let salt := nonceC ++ nonceM
  let info (d : Nat) : Bytes := [0x6B, 0x77, 0x61, 0x67, 0x6F, 0x20] ++ (if d = 0 then [0x63, 0x32, 0x6D] else [0x6D, 0x32, 0x63])
  ((Config.hkdf512 key salt (info 0)).toList, (Config.hkdf512 key salt (info 1)).toList)

/-- The SESSION_PROVE result (R477). -/
def Block.proveResult (b : Block) (n : Nat) (x : Session) : Bytes :=
  padTo ((Config.hmac512 (b.slot n).key (b.proofInput n x 0x4D)).toList ++ toLe x.credits 2 ++ toLe x.rights 1 ++
    toLe 0 1 ++ toLe (b.get pSec 0x104) 4) 128

/-- A wrong PROOF_C (R480): AUTH, the session FREE, the failures of its slot counted; at 4 the slot is disarmed. -/
def proveRefused (m : OpenMsg) (fails : Nat) (b : Block) : Block :=
  let n := m.session.toNat
  let k := b.slot n
  let b := (b.openReply m .refused stAuth []).bump pSec 1
  let b := (b.setSlot n { k with fails := fails }).setSession n {}
  if fails < 4 then b else (b.disarm n).raiseErr pSec 16 0x71

/-- The session of a SESSION_PROVE is the one being opened with its peer. -/
def Block.proving (b : Block) (m : OpenMsg) : Bool :=
  decide (b.pageState pKwt = 2 ∧ b.tstate = 1 ∧ (b.session m.session.toNat).state = .opening ∧ (b.session m.session.toNat).endpoint = m.endpoint.toNat) &&
    !badOpen b m 0x71 128

/-- SESSION_PROVE (R471, R480). -/
def sessionProve (m : OpenMsg) (b : Block) : Block :=
  let n := m.session.toNat
  let b := b.takeOpen n
  let x := b.session n
  let k := b.slot n
  if b.pageState pKwt ≠ 2 then b.openReply m .refused stDisabled []
  else if badOpen b m 0x71 128 then b.openReply m .refused stBadCommand []
  else if b.tstate ≠ 1 then b.openReply m .refused stDisabled []
  else if x.state ≠ .opening ∨ x.endpoint ≠ m.endpoint.toNat then b.openReply m .refused stAuth []
  else if slice m.payload 0 64 = (Config.hmac512 k.key (b.proofInput n x 0x43)).toList then
    let keys := sessionKeys k.key x.nonceC x.nonceM
    let y : Session := { x with state := .opened, since := b.meter, keyIn := keys.1, keyOut := keys.2, nonceC := [], nonceM := [] }
    let result := b.proveResult n x
    let b := ((b.setRx n {}).setSession n y).setSlot n { k with fails := 0 }
    (((b.loadDefaults n).bump pSec 0).raiseInt pKwt 17).openReply m .proveReply stOk result
  else proveRefused m (k.fails + 1) b

/-- SESSION_PROVE. -/
def ownSessionProve (msg : OpenMsg) (s : State) : Result := .next (s.on (sessionProve msg))

/-- OPENING_TIMEOUT (R480): 1 ms after its reply an OPENING session is FREE again. -/
def openingTimeout (n : Nat) (b : Block) : Block :=
  let x := b.session n
  if x.state = .opening ∧ x.since + 100000 ≤ b.meter then b.setSession n {} else b

/-- OPENING_TIMEOUT. -/
def execOpeningTimeout (session : BitVec 12) (s : State) : Result := .next (s.on (openingTimeout session.toNat))

/-! ## Closing -/

/-- SESSION_CLOSE (R480): an OPEN session is CLOSING. -/
def sessionClose (id : Nat) (b : Block) : Block :=
  b.admitCmd id 0x72 [0] (fun c b =>
    match c.who with
    | some n =>
      let x := b.session n
      if x.state = .opened then b.setSession n { x with state := .closing, since := b.meter, closing := some id }
      else b.finish id stDisabled
    | none => b.finish id stBadCommand)

/-- SESSION_CLOSE. -/
def execSessionClose (cmd : Nat) (s : State) : Result := .next (s.on (sessionClose cmd))

/-- Messages of a session that wait in the egress queues sent now. -/
def Block.flushSession (b : Block) (n : Nat) : Block :=
  let mine (e : EgressEntry) : Bool := decide (e.msg.toward = .session n)
  (b.egress.filter mine).foldl (fun b e => b.transmitBytes e.msg e.bytes) { b with egress := b.egress.filter (fun e => !mine e) }

/-- SESSION_CLOSED (R480): once the session's other requests have replied, SESSION_CLOSE replies OK; the session's leases,
flow and keys go. -/
def sessionClosed (n : Nat) (b : Block) : Block :=
  let x := b.session n
  match x.closing with
  | none => b
  | some id =>
    if x.state ≠ .closing ∨ (b.sessionCmds n).any (fun i => decide (i ≠ id)) then b
    else
      let b := (b.finish id stOk { lateOk := false }).flushSession n
      (((b.endLeases n).freeSession n).bump pSec 2).raiseInt pKwt 17

/-- SESSION_CLOSED. -/
def execSessionClosed (session : BitVec 12) (s : State) : Result := .next (s.on (sessionClosed session.toNat))

/-! ## Telemetry (R481, R482) -/

/-- The 1,248 bytes of a telemetry notice. -/
def Block.telemetryBody (b : Block) (number : Nat) : Bytes :=
  let head := padTo (toLe 1 2 ++ toLe 0 2 ++ toLe (b.get pSec 0x104) 4 ++ toLe number 8 ++ toLe b.sec.power.1 2 ++
    toLe b.sec.power.2 2 ++ toLe (b.fld pSec 0x1A0 16 16) 4) 0x40
  let types := (List.range 14).flatMap (fun t => (List.range 8).flatMap (fun n => toLe ((b.sec.view.getD t []).getD n 0) 8))
  let queues := (List.range 36).flatMap (fun q => let m := b.sec.viewMarks.getD q (0, 0); toLe m.1 4 ++ toLe m.2 4)
  head ++ types ++ queues

/-- TELEMETRY_NOTICE (R482): TEL_PERIOD after the last ones, a notice to each OPEN session with the telemetry right. -/
def telemetryNotice (b : Block) : Block :=
  if b.meter < b.sec.lastTel + b.fld pSec 0x1A0 0 16 * 100000 then b
  else
    let l := b.sessions.filter (fun e => decide (e.2.state = .opened) && !e.2.rope && decide (nbits e.2.rights 6 1 = 1))
    l.foldl (fun b e =>
      let n := b.get pSec 0x1A4
      ((b.send { toward := .session e.1, cls := 0, kind := .telemetry, data := b.telemetryBody n }).bump32 pSec 0x1A4).bump pSec 6)
      { b with sec := { b.sec with lastTel := b.meter } }

/-- TELEMETRY_NOTICE. -/
def execTelemetryNotice (s : State) : Result := .next (s.on telemetryNotice)

end Sys2Proof.Machine
end

