-- ==== Sys2Proof/Machine/Transport.lean ====
section
/-! DEFINITION. The transport (R426 to R436): segments in, reassembly, acknowledgement, resends. Its rows:
SEGMENT_RECEIVED, REASM_WAIT_EXPIRY, ACK, RTO_EXPIRY. -/

namespace Sys2Proof.Machine

/-! ## Segments in -/

/-- The header of a segment, `none` where it breaks the layout of R426, reserved bits that are not 0 included (R427; DESIGN CHOICE, log
166). -/
def readSeg (s : Bytes) : Option SegHead :=
  let h : SegHead := { kind := nbits (le s 1 1) 0 3, cls := nbits (le s 1 1) 3 3, last := decide (nbits (le s 1 1) 6 1 = 1),
                       number := le s 2 2, dst := le s 4 2, src := le s 6 2, session := le s 8 2, len := le s 10 2,
                       msgId := le s 12 4, nonce := le s 16 8, msgLen := le s 24 4, epoch := le s 28 4, budget := le s 32 3 }
  if s.length < 48 ∨ le s 0 1 ≠ 1 ∨ nbits (le s 1 1) 7 1 = 1 ∨ h.kind = 7 ∨ 2047 < h.number ∨ 4095 < h.session ∨
      h.len = 0 ∨ 8192 < h.len ∨ h.msgLen = 0 ∨ 16777216 < h.msgLen ∨ (h.kind ≠ 4 ∧ h.budget ≠ 0) ∨ le s 35 13 ≠ 0 ∨
      s.length ≠ 48 + h.len + (if h.kind = 6 then 0 else 16) then none
  else some h

/-- A segment discarded for its authentication or its NONCE_CTR; the 16th closes the session (R429). -/
def Block.authDiscard (b : Block) (n : Nat) : Block :=
  let x := b.rx n
  let b := (b.setRx n { x with discards := x.discards + 1 }).bump pKwt 4
  let b := (b.put pKwt 0x118 (n + 2 ^ 31)).raiseErr pKwt 16
  if x.discards + 1 < 16 then b else b.killSession n

/-- The NONCE_CTR was accepted already, or lies 4,096 or more below the highest accepted (R429). -/
def RxSession.stale (x : RxSession) (nonce : Nat) : Bool :=
  decide (nonce ∈ x.accepted) || decide (nonce + 4096 ≤ x.highest)

/-- A NONCE_CTR accepted. -/
def RxSession.take (x : RxSession) (nonce : Nat) : RxSession :=
  let top := max x.highest nonce
  { x with highest := top, accepted := (nonce :: x.accepted).filter (fun k => decide (top < k + 4096)) }

/-- An acknowledgement of a message (R430). -/
def Block.ackTo (b : Block) (n cls msgId : Nat) : Block :=
  b.transmit { toward := .session n, cls := cls, kind := .ack, data := toLe msgId 4 ++ toLe 0 4 }

/-- A message of this module acknowledged: it is not resent, and FRAME_WIN moves on (R430, R432). -/
def Block.acked (b : Block) (n msgId : Nat) : Block :=
  let l : List SentMsg := b.transport.sent.filter (fun m => !decide (m.session = n ∧ m.msgId = msgId))
  ({ b with transport := { b.transport with sent := l } }).pumpFrames

/-- A place's module is at the other end of a session. -/
def Block.peerPlace (b : Block) (n p : Nat) : Bool := decide (p ≠ b.place) && (b.routes (.place p)).any (fun r => decide (r.1 = n))

/-- Requests of a session in flight here (R432): a client's commands; of a rope session the requests that wait in TRF or for their
event, and those that hold or await a context or an engine (DESIGN CHOICE, log 165). -/
def Block.inFlight (b : Block) (n : Nat) : Nat :=
  if !(b.session n).rope then (b.sessionCmds n).length
  else
    let asks (k : EntryKind) : Bool := match k with | .rope s q _ _ => decide (s = n ∧ q = 0) | _ => false
    let shard (x : Ctx) : Bool := match x.work with | .shard r => b.peerPlace n r.fromPlace | .admitted _ _ => false
    let item (i : Item) : Bool := match i.work with | .refine r => b.peerPlace n r.fromPlace | .cold _ => false
    ((b.trf.entries.map (·.kind) ++ b.trf.handed).filter asks).length + (b.qpl.ctxs.filter shard).length +
      (b.qpl.requests.filter (fun r => b.peerPlace n r.1.fromPlace)).length +
      (b.engines.flatMap (fun e => (e.2.items ++ e.2.held).filter item)).length

/-- A session has used up its CREDITS (R432). -/
def Block.noCredit (b : Block) (n : Nat) : Bool := decide ((b.session n).credits ≤ b.inFlight n)

/-- A REQUEST as a command of its session. -/
def Block.requestCmd (b : Block) (n msgId : Nat) (body : Bytes) : Cmd :=
  b.newCmd (.session n msgId) (padTo (slice body 0 64) 64) (body.drop 64)

/-- A REQUEST beyond its session's CREDITS answered (R432). -/
def Block.refuseCredit (b : Block) (c : Cmd) : Block :=
  let b := (b.bump pKwt 5).raiseErr pKwt 17 c.opcode
  ({ b with cmds := snoc b.cmds c, nextCmd := b.nextCmd + 1 }).finish c.id stCreditViolation { lateOk := false }

/-- A REQUEST of a client session (R420, R432, R449, R480): refused, or checked and put on its way. -/
def Block.clientRequest (b : Block) (n cls msgId : Nat) (body : Bytes) : Block :=
  let c := b.requestCmd n msgId body
  if b.noCredit n then b.refuseCredit c else b.accept c cls

/-- The ingress queue of a rope message or an OPEN message (R453, R454). -/
def Block.messageQueue (b : Block) (kind cls : Nat) (body : Bytes) : Nat × Option Nat × Option Nat :=
  match kind, cls with
  | 6, _ => (8, none, none)
  | 4, _ | 5, _ => (49, none, none)
  | _, 7 => (48, none, none)
  | _, 6 => (45, none, none)
  | _, 5 => (46, none, none)
  | 0, 4 =>
    let d := deadlineOf b.meter (le body 4 3)
    match d with
    | some t => if b.pitches && takesLane (le body 0 1) then (36 + b.pitchAt t % 8, some (b.pitchAt t), d) else (44, none, d)
    | none => (44, none, none)
  | _, _ => (44, none, none)

/-- A message put into its ingress queue. -/
def Block.queueMessage (b : Block) (kind cls : Nat) (k : EntryKind) (body : Bytes) : Block :=
  let (q, pitch, deadline) := b.messageQueue kind cls body
  b.enqueueMessage ⟨k, q, false, body.length, b.meter, pitch, deadline⟩

/-- A complete message (R430): acknowledged, delivered once, and put on its way. -/
def Block.deliverMessage (b : Block) (h : SegHead) (body : Bytes) : Block :=
  let n := h.session
  if h.kind = 6 then (b.bump pKwt 1).queueMessage 6 h.cls (.openMsg n h.src h.msgId body) body
  else
    let x := b.rx n
    let answered := decide (h.kind = 0 ∨ h.kind = 1 ∨ h.kind = 4)
    let b := if answered then b.ackTo n h.cls h.msgId else b
    if h.msgId ∈ x.delivered then b
    else
      let top := x.delivered.foldl (fun t k => if seqAfter k t then k else t) h.msgId
      let l := (h.msgId :: x.delivered).filter (inWindow top)
      let b := (b.setRx n { b.rx n with delivered := l }).bump pKwt 1
      if h.kind = 2 then b.acked n (le body 0 4)
      else if (b.session n).rope then
        if h.kind = 0 ∧ b.noCredit n then b.refuseCredit (b.requestCmd n h.msgId body)
        else b.queueMessage h.kind h.cls (.rope n h.kind h.msgId body) body
      else if h.kind = 0 then b.clientRequest n h.cls h.msgId body
      else b

/-- The message a segment belongs to, as it is so far. -/
def Block.reasmOf (b : Block) (h : SegHead) : Reasm :=
  (b.transport.reasm.find? (fun r => decide (r.src = h.src ∧ r.session = h.session ∧ r.msgId = h.msgId))).getD
    { src := h.src, session := h.session, msgId := h.msgId, kind := h.kind, cls := h.cls, len := h.msgLen }

/-- Reassembly (R427): a segment whose fields disagree with earlier ones of its message is discarded; the last one that is
missing completes the message. -/
def Block.reassemble (b : Block) (h : SegHead) (body : Bytes) : Block :=
  let r := b.reasmOf h
  let mine (s : Reasm) : Bool := decide (s.src = h.src ∧ s.session = h.session ∧ s.msgId = h.msgId)
  let total := r.parts.foldl (fun n p => n + p.2.length) 0
  let clash := decide (r.kind ≠ h.kind) || decide (r.cls ≠ h.cls) || decide (r.len ≠ h.msgLen) ||
    (match r.last with | some l => decide (l < h.number) || (h.last && decide (l ≠ h.number)) | none => false) ||
    (h.last && r.parts.any (fun p => decide (h.number < p.1)))
  let dup := r.parts.any (fun p => decide (p.1 = h.number))
  if clash ∨ (!dup ∧ h.msgLen < total + body.length) then b
  else
    let parts : List (Nat × Bytes) := if dup then r.parts else insertBy (fun x y => decide (x.1 < y.1)) (h.number, body) r.parts
    let last := if h.last then some h.number else r.last
    let rest : List Reasm := b.transport.reasm.filter (fun s => !mine s)
    let whole := parts.flatMap (·.2)
    if (match last with | some l => decide (parts.length = l + 1) | none => false) then
      let b := { b with transport := { b.transport with reasm := rest } }
      if whole.length = h.msgLen then b.deliverMessage h whole else b.raiseErr pKwt 21
    else
      let r : Reasm := { r with parts := parts, last := last, at_ := b.meter }
      { b with transport := { b.transport with reasm := snoc rest r } }

/-- The endpoint is a member under the latest notice, or no notice has come yet (R438). -/
def Block.isMember (b : Block) (endpoint : Nat) : Bool :=
  decide (b.rope.members = []) || b.rope.members.any (fun m => decide (m.id = endpoint) && !m.lost)

/-- A segment received (R426 to R430, R438). -/
def receiveSegment (s : Bytes) (b : Block) : Block :=
  if b.fatal ∨ (b.pageState pKwt ≠ 2 ∧ b.pageState pKwt ≠ 3) then b
  else match readSeg s with
  | none => b
  | some h =>
    let x := b.session h.session
    if h.dst ≠ b.endpoint then b
    else if h.kind = 6 then b.reassemble h (s.drop 48)
    else if (x.state ≠ .opened ∧ x.state ≠ .closing) ∨ x.endpoint ≠ h.src ∨ (!x.rope ∧ h.epoch ≠ 0) then b
    else if (b.rx h.session).stale h.nonce then b.authDiscard h.session
    else match Config.gcmOpen x.keyIn (ivOf h.session 0 h.nonce) (slice s 0 48) (s.drop 48) with
    | none => b.authDiscard h.session
    | some body =>
      let b := b.setRx h.session ((b.rx h.session).take h.nonce)
      if x.rope ∧ !b.isMember h.src ∧ ¬(h.kind = 0 ∧ h.cls = 7) then b   -- a joiner asks before it is a member (R505)
      else if x.rope ∧ b.rope.epoch < h.epoch ∧ h.kind ≠ 3 then
        b.send { toward := .session h.session, cls := 7, kind := .noticeAsk }
      else b.reassemble h (padTo (body.take h.len) h.len)

/-- SEGMENT_RECEIVED. -/
def ownSegmentReceived (segment : Bytes) (s : State) : Result := .next (s.on (receiveSegment segment))

/-- REASM_WAIT_EXPIRY (R427): a message still incomplete REASM_WAIT after its last segment is discarded. -/
def reasmExpiry (n id : Nat) (b : Block) : Block :=
  let old (r : Reasm) : Bool := decide (r.session = n ∧ r.msgId = id ∧ r.at_ + b.fld pKwt 0x10C 8 8 * 1000 ≤ b.meter)
  if b.transport.reasm.any old then
    ({ b with transport := { b.transport with reasm := b.transport.reasm.filter (fun r => !old r) } }).raiseErr pKwt 21
  else b

/-- REASM_WAIT_EXPIRY. -/
def execReasmWaitExpiry (session : BitVec 12) (msgId : BitVec 32) (s : State) : Result :=
  .next (s.on (reasmExpiry session.toNat msgId.toNat))

/-! ## Acknowledgement -/

/-- ACK (R430): the message named is not resent. -/
def execAck (session : BitVec 12) (msgId : BitVec 32) (s : State) : Result :=
  .next (s.on (fun b => b.acked session.toNat msgId.toNat))

/-- A rope or OPEN message leaves the ones handed over by TRF. -/
def Block.takeRope (b : Block) (n kind : Nat) : Block :=
  match takeFirst (fun k => match k with | .rope s q _ _ => decide (s = n ∧ q = kind) | _ => false) b.trf.handed with
  | some (_, l) => { b with trf := { b.trf with handed := l } }
  | none => b

/-! ## Resends (R435) -/

/-- RTO of a message in meter units: max(RTO_MIN, rem / 2), or NODL_RTO without a deadline (R435). -/
def Block.rto (b : Block) (m : SentMsg) : Nat :=
  match m.msg.deadline with
  | some d => max (b.fld pKwt 0x108 0 16 * 100) ((d - m.lastSent) / 2)
  | none => b.fld pKwt 0x108 16 16 * 100

/-- Some port holds a segment of the message for sending or replay. -/
def Block.portHolds (b : Block) (key : Nat × Nat) : Bool :=
  b.links.any (fun e => e.2.replay.any (fun f => decide (f.part.msg = key)) || e.2.waiting.any (fun p => decide (p.msg = key)))

/-- A message sent again, whole, with its MSG_ID and new NONCE_CTRs (R435). -/
def Block.resend (b : Block) (m : SentMsg) : Block :=
  let key := (m.session, m.msgId)
  let again (x : SentMsg) : SentMsg := { x with lastSent := b.meter, resends := x.resends + 1, segs := 0 }
  let sent : List SentMsg := mapIf (fun x => decide ((x.session, x.msgId) = key)) again b.transport.sent
  let frames : List WaitFrame := b.transport.frames.filter (fun w => decide (w.msg ≠ key))
  let b := { b with transport := { b.transport with sent := sent, frames := frames } }
  let budget := if m.kind = 4 then b.budgetOut m.msg else 0
  if b.fatal ∨ b.spent m.kind m.msg then b
  else b.launch m.kind m.msg.cls m.endpoint m.session m.msgId budget (b.stamp m.kind m.msg m.body) m.msg

/-- The message has budget for another send: RTO_MIN, where it has a deadline (R435). -/
def Block.mayResend (b : Block) (m : SentMsg) : Bool :=
  match m.msg.deadline with
  | some d => decide (b.fld pKwt 0x108 0 16 * 100 ≤ d - b.meter)
  | none => true

/-- RTO_EXPIRY (R435): an unacknowledged message is resent; one without a deadline that has had RESEND_MAX resends closes
its client session, or makes its rope peer count as not heard. -/
def rtoExpiry (n id : Nat) (b : Block) : Block :=
  match b.transport.sent.find? (fun m => decide (m.session = n ∧ m.msgId = id)) with
  | none => b
  | some m =>
    if b.meter < m.lastSent + b.rto m ∨ b.portHolds (n, id) then b
    else if m.msg.deadline.isSome then
      if b.mayResend m then (b.bump pKwt 2).resend m else b.acked n id
    else if m.resends < b.fld pKwt 0x10C 0 4 then (b.bump pKwt 2).resend m
    else
      let b := b.acked n id
      if (b.session n).rope then
        let places := (b.rope.members.filter (fun x => decide (x.id = m.endpoint))).map (·.place)
        { b with rope := { b.rope with heard := b.rope.heard.filter (fun h => !decide (h.place ∈ places)) } }
      else b.killSession n

/-- RTO_EXPIRY. -/
def execRtoExpiry (session : BitVec 12) (msgId : BitVec 32) (s : State) : Result :=
  .next (s.on (rtoExpiry session.toNat msgId.toNat))

end Sys2Proof.Machine
end

