-- ==== Sys2Proof/Machine/Link.lean ====
section
/-! DEFINITION. The optical ports and the link layer (R417 to R424, R433, R446 to R448). Its rows: PCS_LOCK, HELLO,
HELLO_TIMEOUT, HELLO_RETRY, SIGNAL_LOSS, DATA_FLIT, ACK_WAIT_EXPIRY, LINK_ACKNOWLEDGEMENT, NAK, REPLAY_WAIT_EXPIRY, GIVE_UP,
FRAME_RECEIVED. -/

namespace Sys2Proof.Machine

/-! ## Ports up and down -/

/-- The module takes part in the link: its KWF page is RUNNING or DRAINING (R446) and it is not in bivouac. -/
def Block.portLit (b : Block) (n : Nat) : Bool := decide (b.pageState (pKwf n) = 2 ∨ b.pageState (pKwf n) = 3)

/-- LINK_STATUS.UP follows R419; a change sets INT_STATUS.LINK_CHANGE (R448). -/
def Block.settleUp (b : Block) (n : Nat) : Block :=
  let x := b.link n
  let up := x.pcs && (x.hello || !b.linkMode n) && b.portLit n
  let b := b.setLink n { x with up := up }
  let b := if up = x.up then b else b.raiseInt (pKwf n) 16
  if up then (b.pump n).pumpFrames else b

/-- The port's part of the link layer as a fresh link has it: what waits and what is held is dropped. -/
def LinkPort.clear (x : LinkPort) : LinkPort :=
  { signal := x.signal, pcs := x.pcs, lastDown := x.lastDown, up := x.up, sent := x.sent }

/-- A port goes down for a cause of R448; one other than ENABLE sets LINK_DOWN. -/
def Block.portDown (b : Block) (n cause : Nat) (f : LinkPort → LinkPort) : Block :=
  let x := b.link n
  let b := (b.setLink n { f x with hello := false, lastDown := cause }).settleUp n
  if cause = 3 then b else b.raiseErr (pKwf n) 16

/-- The hello of this module: 1,024 flits per VC (R421, R423). -/
def Block.sendHello (b : Block) (n : Nat) : Block :=
  let b := b.control n { type := 2, hello := true } ((List.range 8).flatMap (fun _ => toLe 1024 2))
  b.setLink n { b.link n with lockAt := some b.meter, downAt := none }

/-- PCS_LOCK (R419): a frame-mode port is UP; a link-mode port sends its hello. -/
def pcsLock (n : Nat) (signal : BitVec 8) (b : Block) : Block :=
  if !b.portLit n then b
  else
    let b := b.setLink n { b.link n with pcs := true, signal := signal.toNat }
    let b := if b.linkMode n then b.sendHello n else b
    b.settleUp n

/-- PCS_LOCK. -/
def execPcsLock (port : Fin 8) (signal : BitVec 8) (s : State) : Result := .next (s.on (pcsLock port.val signal))

/-- HELLO (R419, R423): the partner's credits per VC; both sides number flits from 0 again. -/
def hello (n : Nat) (credits : List (BitVec 16)) (b : Block) : Block :=
  let x := b.link n
  if !b.portLit n ∨ !b.linkMode n ∨ !x.pcs then b
  else
    let cr : Sparse Nat := (List.range 8).foldl (fun l v => sset 0 l v (credits.getD v 0).toNat) []
    let x : LinkPort := { x with hello := true, lockAt := none, downAt := none, credits := cr, expect := 0, nakAt := none,
                                 unacked := 0, ackAt := none, inUse := [], assembly := [],
                                 nextSeq := if x.replay = [] then 0 else x.nextSeq }
    (b.setLink n x).settleUp n

/-- HELLO. -/
def execHello (port : Fin 8) (credits : List (BitVec 16)) (s : State) : Result := .next (s.on (hello port.val credits))

/-- HELLO_TIMEOUT (R419): no hello within 10 ms takes the port down. -/
def helloTimeout (n : Nat) (b : Block) : Block :=
  let x := b.link n
  match x.lockAt with
  | none => b
  | some t =>
    if b.portLit n ∧ b.linkMode n ∧ x.pcs ∧ !x.hello ∧ t + 1000000 ≤ b.meter then
      b.portDown n 4 (fun x => { x with lockAt := none, downAt := some b.meter })
    else b

/-- HELLO_TIMEOUT. -/
def execHelloTimeout (port : Fin 8) (s : State) : Result := .next (s.on (helloTimeout port.val))

/-- HELLO_RETRY (R419): 100 ms after it went down with LAST_DOWN 4 the port tries again. -/
def helloRetry (n : Nat) (b : Block) : Block :=
  match (b.link n).downAt with
  | none => b
  | some t => if b.portLit n ∧ b.linkMode n ∧ (b.link n).pcs ∧ t + 10000000 ≤ b.meter then b.sendHello n else b

/-- HELLO_RETRY. -/
def execHelloRetry (port : Fin 8) (s : State) : Result := .next (s.on (helloRetry port.val))

/-- SIGNAL_LOSS (R447, R448): the port goes down with LAST_DOWN 2; the flits it holds stay unacknowledged until it gives
up (R424). -/
def signalLoss (n : Nat) (signal : BitVec 8) (b : Block) : Block :=
  if !b.portLit n then b
  else b.portDown n 2 (fun x => { x with pcs := false, signal := signal.toNat, lockAt := none, downAt := none,
                                         inUse := [], assembly := [], nakAt := none, unacked := 0, ackAt := none })

/-- SIGNAL_LOSS. -/
def execSignalLoss (port : Fin 8) (signal : BitVec 8) (s : State) : Result := .next (s.on (signalLoss port.val signal))

/-! ## Acknowledgement of what this module sent -/

/-- FSEQ a lies before or at b, modulo 65,536, within the 8,192 flits that may be held. -/
def seqUpTo (a b : Nat) : Bool := decide ((b + 65536 - a) % 65536 < 8192)

/-- Flits up to an FSEQ freed from the replay buffer (R422, R424). -/
def LinkPort.ackUpTo (x : LinkPort) (seq now : Nat) : LinkPort :=
  let left := x.replay.filter (fun f => !seqUpTo f.fseq seq)
  if left.length = x.replay.length then x
  else { x with replay := left, progress := now, replayed := false, fails := 0 }

/-- LINK_ACKNOWLEDGEMENT (R422, R423): an acknowledgement and returned credits, on any flit. -/
def linkAck (n : Nat) (ack : Option Nat) (vc count : Nat) (b : Block) : Block :=
  let x := b.link n
  if !x.up ∨ !b.linkMode n then b
  else
    let x : LinkPort := match ack with | some a => x.ackUpTo a b.meter | none => x
    let x : LinkPort := { x with credits := sset 0 x.credits vc (sget 0 x.credits vc + count) }
    (b.setLink n x).pump n

/-- LINK_ACKNOWLEDGEMENT. -/
def execLinkAcknowledgement (port : Fin 8) (ackSeq : Option (BitVec 16)) (crVc : BitVec 3) (crCount : BitVec 12)
    (s : State) : Result :=
  .next (s.on (linkAck port.val (ackSeq.map (·.toNat)) crVc.toNat crCount.toNat))

/-- REPLAY_MAX and LINK_GIVEUP in meter units (R424, R447). -/
def Block.replayMax (b : Block) (n : Nat) : Nat := b.fld (pKwf n) 0x110 0 4
def Block.linkGiveup (b : Block) (n : Nat) : Nat := b.fld (pKwf n) 0x110 16 8 * 100

/-- The held flits sent again from the oldest (R424); an earlier replay of the oldest has failed. With REPLAY_MAX failed
replays the port waits for GIVE_UP instead. -/
def Block.replay (b : Block) (n : Nat) : Block :=
  let x := b.link n
  if x.replay = [] then b
  else
    let fails := if x.replayed then x.fails + 1 else x.fails
    let b := b.setLink n { x with fails := fails, replayed := true, progress := b.meter }
    if b.replayMax n ≤ fails then b
    else
      let b := (b.bump (pKwf n) 5).bumpHealth (pKwf n) 0x88
      x.replay.foldl (fun b f => (b.wire n f.bytes).bump (pKwf n) 0) b

/-- NAK (R424): flits up to ACK_SEQ are acknowledged, and the rest is replayed. -/
def nak (n ack : Nat) (b : Block) : Block :=
  let x := b.link n
  if !x.up ∨ !b.linkMode n then b else ((b.setLink n (x.ackUpTo ack b.meter)).replay n).pump n

/-- NAK. -/
def execNak (port : Fin 8) (ackSeq : BitVec 16) (s : State) : Result := .next (s.on (nak port.val ackSeq.toNat))

/-- REPLAY_WAIT_EXPIRY (R424): three quarters of LINK_GIVEUP without acknowledgement progress. -/
def replayWaitExpiry (n : Nat) (b : Block) : Block :=
  let x := b.link n
  if x.up ∧ x.replay ≠ [] ∧ x.fails < b.replayMax n ∧ 4 * x.progress + 3 * b.linkGiveup n ≤ 4 * b.meter then b.replay n
  else b

/-- REPLAY_WAIT_EXPIRY. -/
def execReplayWaitExpiry (port : Fin 8) (s : State) : Result := .next (s.on (replayWaitExpiry port.val))

/-- The messages that had a segment at a port, told to the transport: each is sent again at once on another port, if its
budget allows (R424, R435, R446). -/
def Block.reportPort (b : Block) (n : Nat) : Block :=
  let x := b.link n
  let keys := nub (x.replay.map (fun f => f.part.msg) ++ x.waiting.map (fun p => p.msg))
  let b := b.setLink n x.clear
  (b.transport.sent.filter (fun m => decide ((m.session, m.msgId) ∈ keys))).foldl (fun b m =>
    if b.mayResend m ∧ b.upPorts ≠ [] then (b.bump pKwt 3).resend m else b) b

/-- GIVE_UP (R424): LINK_GIVEUP after the oldest unacknowledged flit was first sent, or with REPLAY_MAX failed replays of
it, the port goes down, reports its messages and retrains. -/
def giveUp (n : Nat) (b : Block) : Block :=
  let x := b.link n
  match x.replay with
  | [] => b
  | f :: _ =>
    if f.first + b.linkGiveup n ≤ b.meter ∨ b.replayMax n ≤ x.fails then
      let b := (b.bump (pKwf n) 6).bumpHealth (pKwf n) 0x90
      (b.portDown n 1 (fun x => { x with pcs := false, lockAt := none, downAt := none })).reportPort n
    else b

/-- GIVE_UP. -/
def execGiveUp (port : Fin 8) (s : State) : Result := .next (s.on (giveUp port.val))

/-! ## Flits in -/

/-- An acknowledgement sent, with the credits of one VC when some have freed (R422, R423). -/
def Block.sendAck (b : Block) (n vc count : Nat) : Block :=
  let x := b.link n
  (b.setLink n { x with unacked := 0, ackAt := none }).control n
    { type := 0, ack := some x.lastIn, crVc := vc, crCount := count }

/-- ACK_WAIT in meter units. -/
def Block.ackWait (b : Block) (n : Nat) : Nat := b.fld (pKwf n) 0x114 8 8 * 10

/-- A DATA flit discarded: one NAK for the expected FSEQ, and the same again for a discard more than ACK_WAIT × 4 after
the last (R422). -/
def Block.flitDiscard (b : Block) (n : Nat) : Block :=
  let x := b.link n
  let send := match x.nakAt with | none => true | some t => decide (t + 4 * b.ackWait n < b.meter)
  if send then
    (b.setLink n { x with nakAt := some b.meter, unacked := 0, ackAt := none }).control n
      { type := 2, nak := true, ack := some x.lastIn }
  else b

/-- DATA_FLIT (R418, R421, R422): accepted in order, its segment going to the transport with its last flit, or discarded. -/
def dataFlit (n : Nat) (f : Bytes) (fecOk : Bool) (b : Block) : Block :=
  let x := b.link n
  if !x.up ∨ !b.linkMode n then b
  else if !fecOk then (((b.bump (pKwf n) 3).raiseErr (pKwf n) 17)).flitDiscard n
  else if f.length ≠ 256 ∨ le f 0xFC 4 ≠ (crc32 (slice f 0 0xFC)).toNat then
    ((b.bump (pKwf n) 4).raiseErr (pKwf n) 18).flitDiscard n
  else
    let vc := nbits (le f 0 1) 4 3
    let som := decide (nbits (le f 0 1) 7 1 = 1)
    let eom := decide (nbits (le f 1 1) 0 1 = 1)
    if nbits (le f 0 1) 0 4 ≠ 1 then b
    else if le f 4 2 ≠ x.expect then b.flitDiscard n
    else if 1024 ≤ sget 0 x.inUse vc then (b.raiseErr (pKwf n) 19).flitDiscard n
    else
      let x : LinkPort := if nbits (le f 8 1) 3 1 = 1 then x.ackUpTo (le f 6 2) b.meter else x
      let cr := nbits (le f 8 2) 0 3
      let x : LinkPort := { x with credits := sset 0 x.credits cr (sget 0 x.credits cr + nbits (le f 8 2) 4 12) }
      let seg := (if som then [] else sget [] x.assembly vc) ++ slice f 12 (le f 2 1)
      let used := sget 0 x.inUse vc + 1
      let x : LinkPort := { x with expect := (x.expect + 1) % 65536, nakAt := none, unacked := x.unacked + 1,
                                   ackAt := x.ackAt.orElse (fun _ => some b.meter),
                                   assembly := sset [] x.assembly vc (if eom then [] else seg),
                                   inUse := sset 0 x.inUse vc (if eom then 0 else used) }
      let b := ((b.setLink n x).bump (pKwf n) 1).pump n
      if eom then receiveSegment seg (b.sendAck n vc used)
      else if b.fld (pKwf n) 0x114 0 8 ≤ x.unacked then b.sendAck n 0 0
      else b

/-- DATA_FLIT. -/
def ownDataFlit (port : Fin 8) (flit : Bytes) (fecOk : Bool) (s : State) : Result :=
  .next (s.on (dataFlit port.val flit fecOk))

/-- ACK_WAIT_EXPIRY (R422): ACK_WAIT has passed with unacknowledged flits. -/
def ackWaitExpiry (n : Nat) (b : Block) : Block :=
  let x := b.link n
  match x.ackAt with
  | some t => if x.up ∧ t + b.ackWait n ≤ b.meter then b.sendAck n 0 0 else b
  | none => b

/-- ACK_WAIT_EXPIRY. -/
def execAckWaitExpiry (port : Fin 8) (s : State) : Result := .next (s.on (ackWaitExpiry port.val))

/-! ## Frames in -/

/-- A number of big-endian bytes. -/
def beNat (bs : Bytes) : Nat := leNat bs.reverse

/-- FRAME_RECEIVED (R418, R433): a frame of EtherType 0x8A5E brings one segment; any other frame is counted only. -/
def frameReceived (n : Nat) (f : Bytes) (fcsOk : Bool) (b : Block) : Block :=
  if !(b.link n).up ∨ b.linkMode n then b
  else if !fcsOk then (b.bump (pKwf n) 4).raiseErr (pKwf n) 18
  else
    let b := b.bump (pKwf n) 1
    let tagged := decide (beNat (slice f 12 2) = 0x8100)
    let off := if tagged then 16 else 12
    if beNat (slice f off 2) ≠ 0x8A5E ∨ f.length < off + 6 ∨ 9216 < f.length then b
    else
      let seg := slice f (off + 2) (f.length - off - 6)
      let src := le seg 6 2
      let b := match readSeg seg with
        | some h =>
          if h.kind = 6 ∧ 0x1000 ≤ src ∧ (b.neighbour src).isNone then
            { b with transport := { b.transport with macs := sset 0 b.transport.macs src (beNat (slice f 6 6) + 2 ^ 48) } }
          else b
        | none => b
      receiveSegment seg b

/-- FRAME_RECEIVED. -/
def ownFrameReceived (port : Fin 8) (frame : Bytes) (fcsOk : Bool) (s : State) : Result :=
  .next (s.on (frameReceived port.val frame fcsOk))

end Sys2Proof.Machine
end

