-- ==== Sys2Proof/Machine/Rope.lean ====
section
/-! DEFINITION. The rope (R436 to R445, R505 to R508, R514): membership, beats, losses, fencing, the stand-in, joining and
leaving. Its rows: BEAT_SEND, BEAT, DECLARE_LOST, MEMBERSHIP_NOTICE, FENCE, FENCE_WAIT_EXPIRY, RESTORE_END,
STANDIN_REBUILD_END, JOIN, LEAVE, DECLARE, JOIN_REQUEST, FORM_WAIT_EXPIRY, REPLY. -/

namespace Sys2Proof.Machine

/-! ## States -/

/-- JSTATE changed, with INT_STATUS.JSTATE_CHANGE (R515). -/
def Block.setJstate (b : Block) (n : Nat) : Block :=
  if b.rope.jstate = n then b else { b with rope := { b.rope with jstate := n } }.raiseInt pRop 16

/-- STANDIN changed, with INT_STATUS.STANDIN_CHANGE (R442, R515). -/
def Block.setStandin (b : Block) (n : Nat) : Block :=
  if b.rope.standin = n then b else { b with rope := { b.rope with standin := n } }.raiseInt pRop 17

/-- The end of a join attempt: JOIN_LAST, and JOIN_REFUSED when it ended other than OK (R515). -/
def Block.joinEnds (b : Block) (jstate st : Nat) : Block :=
  let b := (b.setJstate jstate).put pRop 0x114 st
  let b := { b with rope := { b.rope with formAt := none } }
  if st = stOk then b else b.raiseErr pRop 16

/-- This module's entry of the member table. -/
def Block.ownEntry (b : Block) : Option RopeMember := b.rope.members.find? (fun m => decide (m.id = b.endpoint) && !m.lost)

/-- The members in the rope: those not lost. -/
def Block.liveMembers (b : Block) : List RopeMember := b.rope.members.filter (fun m => !m.lost)

/-- BEAT_PERIOD in µs and BEAT_MISS in force (R437): the lead's. -/
def Block.beatCfg (b : Block) : Nat × Nat :=
  let own := (b.fld pKwt 0x13C 0 16, b.fld pKwt 0x13C 16 8)
  if b.lead then own else b.rope.leadBeat.getD own

/-- BEAT_MISS periods in meter units. -/
def Block.missTime (b : Block) : Nat := b.beatCfg.1 * b.beatCfg.2 * 100

/-- The place number under which a member is heard: 63 for a spare that stands in for no place. -/
def RopeMember.key (m : RopeMember) : Nat := m.place

/-- A place was heard within a span (R437). -/
def Block.heardIn (b : Block) (span place : Nat) : Bool :=
  b.rope.heard.any (fun h => decide (h.place = place ∧ b.meter < h.at_ + span))

/-- The HEARD map (R437). -/
def Block.heardMap (b : Block) : Nat :=
  (List.range 64).foldl (fun n p => if b.heardIn b.missTime p then n + 2 ^ p else n) 0

/-! ## Rope sessions (R437, R505) -/

/-- The rope slot key of two modules (R505). -/
def ropeSlotKey (key : Bytes) (x y : Nat) : Bytes :=
  let name : Bytes := [0x6B, 0x77, 0x61, 0x67, 0x6F, 0x20, 0x72, 0x6F, 0x70, 0x65]
  (Config.hkdf512 key [] (name ++ toLe (min x y) 2 ++ toLe (max x y) 2)).toList

/-- A rope session opened with another module, in the lowest empty slot. The exchange of R477 to R479 between two modules is
one step here. -/
def Block.openRope (b : Block) (id : Nat) : Block :=
  if (b.sessionOf id).isSome ∨ id = b.endpoint then b
  else match (List.range 4096).find? (fun s => decide ((b.slot s).st = 0 ∧ (b.session s).state = .closed)) with
  | none => b
  | some n =>
    let key := ropeSlotKey b.rope.key id b.endpoint
    let (nc, b) := b.draw 32
    let (nm, b) := b.draw 32
    let keys := sessionKeys key nc nm
    let x : Session := { state := .opened, rope := true, endpoint := id, slot := n, since := b.meter, credits := 256,
                         keyIn := keys.1, keyOut := keys.2 }
    ((((b.setSlot n { st := 2, key := key, peer := id }).setRx n {}).setSession n x).bump pSec 0).raiseInt pKwt 17

/-- A rope session closed and its slot emptied. -/
def Block.closeRope (b : Block) (n : Nat) : Block :=
  (((b.freeSession n).setSlot n {}).bump pSec 2).raiseInt pKwt 17

/-- The rope sessions with modules outside a list closed. -/
def Block.closeOthers (b : Block) (keep : List Nat) : Block :=
  (b.sessions.filter (fun e => e.2.rope && !decide (e.2.endpoint ∈ keep))).foldl (fun b e => b.closeRope e.1) b

/-! ## A place that loses its module (R444) -/

/-- The search waits for a place: for its shard pools, or for its refinement. -/
def Block.waitsFor (b : Block) (p : Nat) (x : Search) : Bool :=
  (!x.bound && x.asked.any (fun e => decide (e.2 = p) && !x.fetched.any (fun f => decide (f.1 = e.1)))) ||
  x.queries.any (fun q => decide (p ∈ q.places) || q.shards.any (fun s => decide (b.placeOfShard x.index s = p)) ||
    (q.asked && q.result.isNone && (match q.pool with | some l => l.any (fun e => decide (e.place = p)) | none => false)))

/-- An update that waits for a lost place ends PEER_LOST, its cairn voided when it has one (R227, R233); one that waits for
its keeper alone goes on waiting (R109). -/
def Block.updateLost (b : Block) (p : Nat) (u : Update) : Block :=
  let touched := if u.kind = .insert then u.owners else b.places
  match u.step with
  | .durable | .cairn => if p ∈ touched then b.finish u.cmd stPeerLost { lateOk := false } else b
  | .record => if p ∈ touched then b.voidUpdate u else b
  | .confirm => b

/-- What an index at this place does when a place's module leaves the rope: the keeper voids the cairns that place asked
for and did not confirm (R108), its changes without a cairn go, mounts end (R113), and a switch or retirement that it has not
applied ends (R116, R118). -/
def Block.indexLost (b : Block) (p ix : Nat) : Block :=
  let x := b.index ix
  let mine := decide (x.keeper = b.place)
  let b := if mine then (x.opened.filter (fun o => decide (o.place = p))).foldl (fun b o => voidCairn ix o.cairn b) b else b
  let x := b.index ix
  let keep (c : Option Nat) (t : Nat × Nat) : Bool := c.isSome || decide (t.1 ≠ p)
  let b := b.setIndex ix { x with
    side := x.side.filter (fun s => keep s.cairn s.tag)
    tombs := x.tombs.filter (fun s => keep s.cairn s.tag)
    groups := x.groups.filter (fun g => decide (g.fromPlace ≠ p))
    asks := x.asks.filter (fun r => decide (r.cmd.isSome ∨ r.fromPlace ≠ p)) }
  let b := ((b.index ix).versions.filter (fun v => v.busy || decide (v.state = .mounting))).foldl (fun b v =>
    if v.cmd.isSome then b.failMount ix v stPeerLost
    else if v.fromPlace = p then b.dropVersion ix v else b) b
  (b.switching.filter (fun r => decide (r.index = ix ∧ (r.checking ∨ p ∈ r.waiting)))).foldl (fun b r =>
    (({ b with switching := b.switching.filter (fun y => !decide (y = r)) }).answerSwitch r stPeerLost 0).beginSwitch ix) b

/-- Everything here that awaits a reply from a place's module, or depends on its place, ends PEER_LOST (R444). -/
def Block.placeLost (b : Block) (p : Nat) : Block :=
  let b := (b.qpl.searches.filter (b.waitsFor p)).foldl (fun b x => b.endSearch x.cmd stPeerLost) b
  let b := b.updates.foldl (fun b u => b.updateLost p u) b
  let b := (b.indexes.map (·.1)).foldl (fun b ix => b.indexLost p ix) b
  let b := b.tablesLost p
  let b := b.plc.moves.foldl (fun b m =>
    if m.source = p ∨ m.dest = p then migrationAbandon m.item false b else b) b
  b.jobsPeerLost

/-- What this place does for other places' searches dropped: their contexts, without a reply. -/
def Block.dropForeign (b : Block) : Block :=
  let foreign (r : ShardReq) : Bool := decide (r.fromPlace ≠ b.place)
  let ctxs := (b.qpl.ctxs.filter (fun x => match x.work with | .shard r => foreign r | .admitted _ _ => false)).map (·.id)
  let b := b.freeCtxs ctxs stPeerLost
  let b := b.dropItems (fun i => match i.work with | .refine r => decide (r.fromPlace ≠ b.place) | .cold _ => false) stPeerLost
  { b with qpl := { b.qpl with requests := b.qpl.requests.filter (fun r => !foreign r.1) } }

/-- The end of this module's part in a rope: its rope work ends PEER_LOST and its rope sessions close (R440, R508). -/
def Block.leaveRope (b : Block) : Block :=
  let others := b.others
  let b := others.foldl (fun b p => b.placeLost p) b.dropForeign
  let b := (b.setFld pGlb 0x110 24 3 0).closeOthers []
  let b := { b with rope := { b.rope with members := [], heard := [], notReady := [], departed := [], declaredAt := none, leadBeat := none,
                                          lastBeat := none, parity := [], retireAsked := false } }
  (b.proxiesLost.setStandin 0).notePhase

/-- The module fences itself (R440). -/
def Block.fenceSelf (b : Block) : Block :=
  let was := b.rope.jstate
  if was ≠ 3 then b else (((b.leaveRope.setJstate 4).raiseErr pKwt 19).bump pRop 4)

/-! ## Waiting work that goes on when a place is ready again (R109, R442) -/

/-- What waits for the keeper at a place asks it again, unless its deadline has passed meanwhile, and cairns left void are named to
it (R109, R116, R118, R233). -/
def Block.askAgain (b : Block) (p : Nat) : Block :=
  let keeper (u : Update) : Nat := (b.index u.index).keeper
  let b : Block := (b.updates.filter (fun u => decide (keeper u = p))).foldl (fun b u =>
    let m : OutMsg := { toward := .place p, cls := 4, kind := .cairnRequest, args := [u.index, u.cmd] }
    let deadline := (b.cmd u.cmd).bind (·.deadline)
    match u.step with
    | .cairn =>
      if b.passed deadline then b.finish u.cmd stLate
      else (b.setUpdate u.cmd (fun u => { u with asked := decide (p ≠ b.place) })).send { m with deadline := deadline }
    | .confirm => b.send { m with kind := .confirm, args := [u.index, u.cairn] }
    | _ => b) b
  let b := (b.indexes.filter (fun e => decide (e.2.keeper = p) && decide (e.2.owed ≠ []))).foldl (fun b e =>
    e.2.owed.foldl (fun b c => b.send { toward := .place p, cls := 4, kind := .voidCairn, args := [e.1, c] })
      (b.setIndex e.1 { b.index e.1 with owed := [] })) b
  let asks (c : Cmd) : Bool := decide (c.phase = .working ∧ (c.opcode = 0x24 ∨ c.opcode = 0x26) ∧ (b.index c.object).keeper = p)
  if p = b.place then (b.indexes.map (·.1)).foldl (fun b ix => b.beginSwitch ix) b
  else (b.cmds.filter asks).foldl (fun b c =>
    if b.passed c.deadline then b.finish c.id stLate
    else b.send { toward := .place p, cls := 4, kind := .switchAsk,
                  args := [c.id, c.object, c.param 0 32, c.param 32 32, c.param 64 1, c.opcode, b.askBudget c] }) b

/-- Places that have been reported ready (R442): what waits for them goes on; with none left, service jobs that a loss
stopped run again (R273, R444). -/
def Block.placesBack (b : Block) (l : List Nat) : Block :=
  if l = [] then b
  else
    let b := l.foldl (fun b p => b.askAgain p) b
    (if b.rope.notReady = [] then b.jobsRestart else b).notePhase

/-! ## Membership (R438, R506) -/

/-- The notice that states the membership as this module has it. -/
def Block.notice (b : Block) : Membership :=
  let live := b.liveMembers
  { epoch := BitVec.ofNat 32 b.rope.epoch, leadId := BitVec.ofNat 12 b.rope.leadId, ropeId := BitVec.ofNat 6 b.rope.ropeId
    members := live.map (fun m => (BitVec.ofNat 12 m.id, BitVec.ofNat 6 m.place, m.spare))
    notReady := b.rope.notReady.map (BitVec.ofNat 6 ·)
    beat := BitVec.ofNat 32 (b.beatCfg.1 + 65536 * b.beatCfg.2)
    macs := live.filterMap (fun m =>
      if m.id = b.endpoint then some (BitVec.ofNat 12 m.id, BitVec.ofNat 48 (b.get (pKwf 0) 0x108))
      else (b.neighbour m.id).map (fun x => (BitVec.ofNat 12 m.id, BitVec.ofNat 48 x)))
    held := b.indexes.flatMap (fun e => e.2.versions.map (fun v => (Fin.ofNat 16 e.1, v.root.version, decide (v.state = .current)))) }

/-- The membership sent to every member (R438), in class 7. -/
def Block.sendNotice (b : Block) : Block :=
  b.send { toward := .all, cls := 7, kind := .membership, body := .members b.notice }

/-- The member table a notice puts in force: its entries, and the entries of places that have no module. -/
def adoptTable (old : List RopeMember) (m : Membership) : List RopeMember :=
  let new : List RopeMember := m.members.map (fun e => { id := e.1.toNat, place := e.2.1.toNat, spare := e.2.2, joined := true })
  let gone := old.filter (fun o => !o.spare && !new.any (fun n => !n.spare && decide (n.place = o.place)))
  new ++ gone.map (fun o => { o with lost := true })

/-- The neighbour entries of a list of MAC addresses written (R433, R505). -/
def Block.learnMacs (b : Block) (l : List (Nat × Nat)) : Block :=
  { b with transport := { b.transport with macs := l.foldl (fun t e => sset 0 t e.1 (e.2 + 2 ^ 48)) b.transport.macs } }

/-- A spare whose entry names a place begins to stand in for it (R442). -/
def Block.claim (b : Block) : Block :=
  match b.ownEntry with
  | none => b
  | some e =>
    if !e.spare ∨ e.place = 63 ∨ b.rope.standin ≠ 0 then b
    else
      let b := b.setFld pGlb 0x110 18 6 e.place
      let b := { b with rope := { b.rope with claimed := e.place, declaredAt := some b.meter } }
      (b.setStandin 1).bump pRop 2

/-- A membership put in force at a member: its table, lead and epoch; places that lost their module (R444); places reported
ready; the spare's claim. -/
def Block.applyNotice (b : Block) (m : Membership) : Block :=
  let old := b.liveMembers
  let table := adoptTable b.rope.members m
  let stays (o : RopeMember) : Bool := table.any (fun n => !n.lost && decide (n.id = o.id))
  let gone := (old.filter (fun o => !stays o && decide (o.place ≠ 63))).map (·.place)
  let notReady : List Nat := m.notReady.map (·.toNat)
  let back := b.rope.notReady.filter (fun p => !decide (p ∈ notReady))
  let changed := decide (b.rope.epoch ≠ m.epoch.toNat)
  let b := { b with rope := { b.rope with members := table, epoch := m.epoch.toNat, leadId := m.leadId.toNat,
                                          ropeId := m.ropeId.toNat, notReady := notReady,
                                          departed := if notReady = [] then [] else nub (b.rope.departed ++ gone),
                                          leadBeat := some (m.beat.toNat % 65536, m.beat.toNat / 65536 % 256) } }
  let b := (b.put pKwt 0x138 m.epoch.toNat).setFld pGlb 0x110 24 1 (flag (decide (m.leadId.toNat = b.endpoint)))
  let b := b.learnMacs (m.macs.map (fun e => (e.1.toNat, e.2.toNat)))
  let b := if changed then b.raiseInt pKwt 16 else b
  let b := gone.foldl (fun b p => b.placeLost p) b
  let ids := (table.filter (fun n => !n.lost)).map (·.id)
  let b := ids.foldl (fun b i => b.openRope i) (b.closeOthers ids)
  (b.proxiesLost.claim.placesBack back).notePhase

/-- The durable data of the place freed: every index, table, region and pushed layer (R506, R507). -/
def Block.freeData (b : Block) : Block :=
  let b := b.ftl.zones.foldl (fun b z => if z.owner = .job ∧ !z.log then b else b.freeZone z.number false) b
  let b := b.uncache (fun k => match k with | .weight _ _ _ => false | _ => true)
  { b with indexes := [], shardMap := [], dramParts := [], dramTiles := [], tables := [], seqs := [], regions := [], layers := []
           plc := { b.plc with blockMap := [], moves := [], replicas := [], copies := [] } }

/-- The versions the rope holds ABSENT freed, and its CURRENT ones adopted, at a module that restores its place (R507);
changes recorded under void cairns are discarded (R108). -/
def Block.restorePlace (b : Block) (held : List (Fin 16 × Nat × Bool)) : Block :=
  let f (n : Nat) (x : Index) : Index :=
    let has (v : Version) : Bool := held.any (fun h => decide (h.1.val = n ∧ h.2.1 = v.root.version))
    let cur (v : Version) : Bool := held.any (fun h => decide (h.1.val = n ∧ h.2.1 = v.root.version) && h.2.2)
    let void (c : Option Nat) : Bool := match c with | some c => decide (c ∈ x.voids) | none => true
    { x with
      versions := (x.versions.filter has).map (fun v => { v with state := if cur v then .current else .mounted })
      side := x.side.filter (fun s => !void s.cairn), tombs := x.tombs.filter (fun s => !void s.cairn)
      deletes := x.deletes.filter (fun d => !decide (d.2 ∈ x.voids)) }
  let gone := b.indexes.flatMap (fun e => (e.2.versions.filter (fun v =>
    !held.any (fun h => decide (h.1.val = e.1 ∧ h.2.1 = v.root.version)))).map (fun v => (e.1, v.root.version)))
  let b := gone.foldl (fun b g => b.freeVersion g.1 g.2) b
  { b with indexes := smapKey {} f b.indexes }

/-- This module becomes a member (R506 step 5, R507): IDENT, JSTATE and rope sessions; a place that is not the one it has
stored starts empty. START and its first load window begin (R343, R349). A place it restores from its own flash is reported ready. -/
def Block.becomeMember (b : Block) (m : Membership) : Block :=
  match m.members.find? (fun e => decide (e.1.toNat = b.endpoint)) with
  | none => b
  | some e =>
    let place : Nat := e.2.1.toNat
    let b : Block := if b.rope.stored = some (m.ropeId.toNat, place) then (if 1 < m.epoch.toNat then b.restorePlace m.held else b)
      else b.freeData
    let ident := place * 64 + m.ropeId.toNat + flag (decide (m.leadId.toNat = b.endpoint)) * 4096 + flag e.2.2 * 8192 + 16384
    let b := b.setFld pGlb 0x110 12 15 ident
    let heard : List Heard := m.members.map (fun e => ⟨e.2.1.toNat, b.meter, 2 ^ 64 - 1⟩)
    let b := { b with rope := { b.rope with stored := some (m.ropeId.toNat, place), heard := heard, members := [], standin := 0 } }
    let b := { b with plc := { b.plc with started := false, startOver := false, far := [] } }
    let b : Block := (((b.applyNotice m).joinEnds 3 stOk).bump pRop 0).openWindow.notePhase
    if place ∈ b.rope.notReady ∧ !e.2.2 then
      let b := { b with rope := { b.rope with notReady := b.rope.notReady.filter (fun p => decide (p ≠ place)) } }
      (b.sendNotice).placesBack [place]
    else b

/-- a is after b as serial numbers. -/
def epochAfter (a b : Nat) : Bool := seqAfter a b

/-- MEMBERSHIP_NOTICE (R438, R440, R506): a joiner becomes a member; a member adopts a newer membership, or fences when it
excludes it; the epoch in force again reports places ready. -/
def membershipNotice (m : Membership) (b : Block) : Block :=
  let b := match b.sessionOf m.leadId.toNat with | some n => b.takeRope n 3 | none => b
  let mine := m.members.any (fun e => decide (e.1.toNat = b.endpoint))
  if b.rope.jstate = 2 then
    if mine then b.becomeMember m else (b.closeOthers []).joinEnds 0 stAborted
  else if b.rope.jstate ≠ 3 then b
  else if m.epoch.toNat = b.rope.epoch ∨ epochAfter m.epoch.toNat b.rope.epoch then
    if mine then b.applyNotice m else b.fenceSelf
  else b

/-- MEMBERSHIP_NOTICE. -/
def execMembershipNotice (notice : Membership) (s : State) : Result := .next (s.on (membershipNotice notice))

/-! ## Beats (R437) -/

/-- BEAT_SEND: BEAT_PERIOD after the last, a beat with the HEARD map to every member, each of them counted (R437, R515). -/
def beatSend (b : Block) : Block :=
  let due := match b.rope.lastBeat with | some t => decide (t + b.beatCfg.1 * 100 ≤ b.meter) | none => true
  if b.rope.jstate ≠ 3 ∨ !due ∨ b.sled.poweringOff then b
  else
    let spare := b.fld pGlb 0x110 25 1
    let b := { b with rope := { b.rope with lastBeat := some b.meter } }
    (b.send { toward := .all, cls := 7, kind := .beat, args := [b.place, spare, b.heardMap] }).bump pRop 5
      (b.liveMembers.filter (fun m => decide (m.id ≠ b.endpoint))).length

/-- BEAT_SEND. -/
def execBeatSend (s : State) : Result := .next (s.on beatSend)

/-- BEAT: the reading and the HEARD map of a member's latest beat; the spare's is kept under place 63 until it stands in. -/
def beat (place : Nat) (spare : Bool) (map : Nat) (b : Block) : Block :=
  if b.rope.jstate ≠ 3 ∨ !b.liveMembers.any (fun m => decide (m.place = place ∧ m.spare = spare)) then b
  else
    let l : List Heard := ⟨place, b.meter, map⟩ :: b.rope.heard.filter (fun h => decide (h.place ≠ place))
    { b with rope := { b.rope with heard := l } }.bump pRop 6

/-- BEAT. -/
def execBeat (place : BitVec 6) (spare : Bool) (heard : BitVec 64) (s : State) : Result :=
  .next (s.on (beat place.toNat spare heard.toNat))

/-! ## Declarations (R439, R442) -/

/-- The member table after a member is declared lost: a place of it waits for a module, which a free spare becomes. -/
def loseMember (l : List RopeMember) (gone : RopeMember) : List RopeMember :=
  if gone.place = 63 then l.filter (fun m => decide (m.id ≠ gone.id))
  else
    let l := if gone.spare then l.filter (fun m => decide (m.id ≠ gone.id))
      else mapIf (fun m => decide (m.id = gone.id)) (fun m => { m with lost := true }) l
    match l.find? (fun m => m.spare && decide (m.place = 63) && !m.lost) with
    | some s => mapIf (fun m => decide (m.id = s.id)) (fun m => { m with place := gone.place }) l
    | none => l

/-- A member declared lost by this module (R439): the epoch rises, the notice goes out, and the lost lead's role passes to
this module. -/
def Block.declareMember (b : Block) (gone : RopeMember) : Block :=
  let lead := if gone.id = b.rope.leadId then b.endpoint else b.rope.leadId
  let table := loseMember b.rope.members gone
  let notReady := if gone.place = 63 then b.rope.notReady else nub (gone.place :: b.rope.notReady)
  let m : Membership := { b.notice with
    epoch := BitVec.ofNat 32 (b.rope.epoch + 1), leadId := BitVec.ofNat 12 lead
    members := (table.filter (fun m => !m.lost)).map (fun m => (BitVec.ofNat 12 m.id, BitVec.ofNat 6 m.place, m.spare))
    notReady := notReady.map (BitVec.ofNat 6 ·) }
  (((b.bump pRop 1).raiseErr pKwt 18).applyNotice m).sendNotice

/-- The member under a place is unheard, and more than half of the members show it so (R439). -/
def Block.mayDeclare (b : Block) (place : Nat) : Bool :=
  let fresh := b.rope.heard.filter (fun h => decide (b.meter < h.at_ + b.missTime))
  let votes := (fresh.filter (fun h => decide (h.place ≠ place ∧ h.place ≠ b.place ∧ nbits h.map place 1 = 0) &&
    b.liveMembers.any (fun m => decide (m.place = h.place)))).length
  !b.heardIn b.missTime place && decide (b.liveMembers.length < 2 * (votes + 1))

/-- This module may declare the member (R439): the lead any other; the spare the lead; with no spare, as while it stands in (R445), the
module of lowest ID among those that hear one another the lead. -/
def Block.declares (b : Block) (m : RopeMember) : Bool :=
  let spares := b.liveMembers.filter (fun x => x.spare && decide (x.place = 63))
  let heard := b.liveMembers.filter (fun x => b.heardIn b.missTime x.place)
  if b.lead then decide (m.id ≠ b.endpoint)
  else decide (m.id = b.rope.leadId) &&
    (if spares = [] then heard.all (fun x => decide (b.endpoint ≤ x.id)) else spares.any (fun x => decide (x.id = b.endpoint)))

/-- A member may retire: the rope has a free spare to stand in for it (R513). -/
def Block.mayRetire (b : Block) (m : RopeMember) : Bool :=
  b.liveMembers.any (fun x => x.spare && decide (x.place = 63 ∧ x.id ≠ m.id))

/-- DECLARE_LOST (R439): place 63 names the spare; a member that has asked to retire need not be unheard (R513). -/
def declareLost (place : Nat) (retiring : Bool) (b : Block) : Block :=
  match b.liveMembers.find? (fun m => decide (m.place = place)) with
  | none => b
  | some m =>
    let grounds := if retiring then b.mayRetire m else b.mayDeclare place
    if b.rope.jstate = 3 ∧ b.declares m ∧ grounds then b.declareMember m else b

/-- DECLARE_LOST. -/
def execDeclareLost (place : Declared) (s : State) : Result := .next (s.on (declareLost place.place.toNat place.retiring))

/-- FENCE (R440): a member that has heard, itself included, fewer than half of the members for 2 × BEAT_MISS periods. -/
def fence (b : Block) : Block :=
  let heard := (b.liveMembers.filter (fun m => decide (m.id = b.endpoint) || b.heardIn (2 * b.missTime) m.place)).length
  if b.rope.jstate = 3 ∧ 2 * heard < b.liveMembers.length then b.fenceSelf else b

/-- FENCE. -/
def execFence (s : State) : Result := .next (s.on fence)

/-! ## The stand-in (R442, R443) -/

/-- The cairns of this place as keeper that some places asked for and did not confirm voided (R108). -/
def Block.voidOf (b : Block) (places : List Nat) : Block :=
  b.indexes.foldl (fun b e =>
    if e.2.keeper = b.place then (e.2.opened.filter (fun o => decide (o.place ∈ places))).foldl (fun b o => voidCairn e.1 o.cairn b) b
    else b) b

/-- The cairns that this place asked of itself as keeper and did not confirm voided (R108, R502). -/
def Block.voidOwn (b : Block) : Block := b.voidOf [b.place]

/-- A version as a stand-in restores it: what its tiles hold of the partitions of this place (R442). -/
def Block.restoreVersion (b : Block) (ix : Nat) (deletes : List (Nat × Nat)) (c : VersionCopy) : Version :=
  let r := parseRoot c.root
  let d := directory c.tiles r
  let v : Version :=
    { root := r, state := if c.current then .current else .mounted, tiles := c.tiles
      parts := (d.filter (fun e => decide (b.placeOfShard ix (shardOf e.part) = b.place))).map (readPart c.tiles r)
      nodes := (List.range r.partitions).map (fun n => (readNode c.tiles r n).1), shards := nub (d.map (fun e => shardOf e.part)) }
  { v with dels := buildDels v deletes }

/-- An index as a stand-in restores it: keeper and owner state, side list, tombstones and versions. Changes that no cairn
records, and those under void cairns, are discarded (R108, R442). -/
def Block.restoreIndex (b : Block) (c : IndexCopy) : Block :=
  let old := b.index c.index.val
  let versions := c.versions.map (b.restoreVersion c.index.val c.deletes)
  let x : Index :=
    { versions := versions, high := c.high, keeper := c.keeper, owners := c.owners, assigned := c.assigned, visible := c.visible
      opened := c.opened.map (fun o => ⟨o.1, o.2.1, o.2.2⟩), voids := nub (old.voids ++ c.voids), voided := c.voided
      localVc := max old.localVc (if c.keeper = b.place then c.visible else 0)
      side := match versions.head? with
        | some v => (List.range c.nextEntry).filterMap (readSideTiles v.root c.side c.vecs c.attrs)
        | none => []
      nextEntry := c.nextEntry, tombs := readTombTiles c.tombs, deletes := c.deletes, nextPage := 1 }
  let x := versions.foldl (fun (x : Index) v => x.takeCodebooks v.tiles v.root) x
  b.setIndex c.index.val (x.discardVoids x.voids)

/-- What a stand-in decodes of its place held here (R442): owner maps, migrations whose phase it resumes (R344), indexes, tables, pool regions and pushed layers; then
the cairns that the lost module asked of itself, and those of places whose modules have left meanwhile, are voided (R108). Pages that
cannot be decoded are data lost (R445). -/
def Block.restoreCopy (b : Block) (p : PlaceCopy) : Block :=
  let clean : Tier := { stack := 0, dirty := false }
  let gone : List LostPage := p.lost.filter (fun x => match x with | .tile _ _ _ | .row _ _ _ => true | .state _ _ _ | .pool _ _ => false)
  let table (t : TableCopy) : Table :=
    { number := t.number, efmt := t.efmt, prio := t.prio, retain := t.retain, rows := t.rows, rowBytes := t.rowBytes
      keeper := t.keeper, owners := t.owners, current := t.current, versions := (span (t.current - t.retain) (t.retain + 1)).map (fun v => { version := v }) }
  let region (r : RegionCopy) : Region :=
    let l : List PoolPage := r.data.map (fun d => { page := d.1, data := Memory.write [] 0 d.2, tier := { clean with lost := decide (.pool r.number d.1 ∈ p.lost) } })
    { number := r.number, pages := r.pages, current := r.version, durable := r.version, map := l, saved := l }
  let layer (l : LayerCopy) : Layer :=
    { object := l.object, layer := l.layer, gen := l.gen, prio := l.prio
      tiles := (List.zip (List.range l.tiles.length) l.tiles).map (fun d =>
        { data := d.2, tier := { clean with lost := decide (.state l.object l.layer d.1 ∈ p.lost) } }) }
  let move (m : MoveCopy) : Migration :=
    { item := m.item, source := m.source, dest := m.dest, phase := if m.retire then .retire else .cutover }
  let moves : List Migration := p.moves.map move ++ b.plc.moves.filter (fun m => !p.moves.any (fun c => decide (c.item = m.item)))
  let b := { b with
    ftl := { b.ftl with gone := gone ++ b.ftl.gone }
    shardMap := p.shardMap ++ b.shardMap, plc := { b.plc with blockMap := p.blockMap ++ b.plc.blockMap, moves := moves }
    tables := p.tables.map table ++ b.tables.filter (fun t => !p.tables.any (fun c => decide (c.number = t.number)))
    regions := p.regions.map region ++ b.regions.filter (fun r => !p.regions.any (fun c => decide (c.number = r.number)))
    layers := p.layers.map layer ++ b.layers.filter (fun l => !p.layers.any (fun c => decide (c.object = l.object ∧ c.layer = l.layer))) }
  let b := if p.lost = [] then b else (b.raiseErr pFtl 16).forceBand pFtl
  (p.indexes.foldl Block.restoreIndex b).voidOf (b.place :: b.rope.departed)

/-- FENCE_WAIT_EXPIRY: FENCE_WAIT after the declaration, restoring begins; changes under void cairns are discarded. -/
def fenceWaitExpiry (b : Block) : Block :=
  match b.rope.declaredAt with
  | none => b
  | some t =>
    if b.rope.standin = 1 ∧ t + 2 * b.missTime ≤ b.meter then
      let l := smap {} (fun x => x.discardVoids x.voids) b.indexes
      { b with indexes := l, rope := { b.rope with declaredAt := none } }.setStandin 2
    else b

/-- FENCE_WAIT_EXPIRY. -/
def execFenceWaitExpiry (s : State) : Result := .next (s.on fenceWaitExpiry)

/-- RESTORE_END: what is decoded from the rope-level copies is held here, and the place is reported ready. -/
def restoreEnd (items : List (ItemRef × ItemCopy)) (place : PlaceCopy) (b : Block) : Block :=
  if b.rope.standin ≠ 2 then b
  else
    let b := items.foldl (fun b i => b.takeCopy i.1 i.2) (b.restoreCopy place)
    let p := b.place
    let b := { b with rope := { b.rope with notReady := b.rope.notReady.filter (fun q => decide (q ≠ p)),
                                            stored := some (b.rope.ropeId, p) } }
    (((b.setStandin 3).bump pRop 7 (Config.rebuiltBytes 0 b.free)).sendNotice).placesBack [p]

/-- RESTORE_END. -/
def execRestoreEnd (items : Restored) (s : State) : Result := .next (s.on (restoreEnd items.items items.place))

/-- STANDIN_REBUILD_END: the stand-in is a member like any other. -/
def standinRebuildEnd (b : Block) : Block :=
  if b.rope.standin ≠ 3 then b
  else
    let f (m : RopeMember) : RopeMember := if m.id = b.endpoint then { m with spare := false } else m
    let l := (b.rope.members.filter (fun m => !(m.lost && decide (m.place = b.place)))).map f
    let b := { b with rope := { b.rope with members := l } }
    (((((b.setFld pGlb 0x110 25 1 0).setStandin 0).bump pRop 3).bump pRop 7 (Config.rebuiltBytes 1 b.free)).sendNotice).notePhase

/-- STANDIN_REBUILD_END. -/
def execStandinRebuildEnd (s : State) : Result := .next (s.on standinRebuildEnd)

/-! ## Joining (R506 to R508) -/

/-- An entry of the member table in ROP's registers, when VALID is set. -/
def Block.tableEntry (b : Block) (e : Nat) : Option RopeMember :=
  let v := b.get pRop (0x800 + 8 * e)
  if nbits v 19 1 = 1 then some { id := nbits v 0 12, place := nbits v 12 6, spare := decide (nbits v 18 1 = 1) } else none

/-- The entries with VALID set. -/
def Block.tableEntries (b : Block) : List RopeMember := (List.range 64).filterMap b.tableEntry

/-- The lead's member table and JOIN_CFG satisfy R506. -/
def Block.tableOk (b : Block) : Bool :=
  let l := b.tableEntries
  let n := b.fld pRop 0x10C 0 7
  decide (l.length = n) && decide (16 ≤ n) && decide (n ≤ 64) &&
  decide ((l.filter (·.spare)).length = 1) && l.all (fun m => decide (m.spare = true ↔ m.place = 63)) &&
  (List.range (n - 1)).all (fun p => decide ((l.filter (fun m => decide (m.place = p))).length = 1)) &&
  decide ((nub (l.map (·.id))).length = l.length) && l.any (fun m => decide (m.id = b.endpoint)) &&
  decide (b.fld pRop 0x104 7 12 = b.endpoint)

/-- The staged rope key: ROPE_KEY0 to ROPE_KEY7. -/
def Block.stagedRopeKey (b : Block) : Bytes := (List.range 8).flatMap (fun i => toLe (b.get pRop (0x120 + 4 * i)) 4)

/-- A JOIN (R506, R508). -/
def Block.startJoin (b : Block) : Block :=
  if b.rope.jstate ≠ 0 ∧ b.rope.jstate ≠ 4 ∧ b.rope.jstate ≠ 5 then b
  else if !b.running pKwt ∨ !b.running (pQpl 0) ∨ !b.running (pQpl 1) then b.joinEnds 5 stDisabled
  else if b.tstate ≠ 1 then b.joinEnds 5 stAuth
  else
    let b := { b with rope := { b.rope with key := b.stagedRopeKey } }
    if b.fld pRop 0x104 6 1 = 1 then
      if !b.tableOk then b.joinEnds 5 stBadCommand
      else
        let l := b.tableEntries.map (fun m => { m with joined := decide (m.id = b.endpoint) })
        { b with rope := { b.rope with members := l, epoch := 0, leadId := b.endpoint, ropeId := b.fld pRop 0x104 0 6,
                                       notReady := [], formAt := some b.meter } }.setJstate 1
    else
      let lead := b.fld pRop 0x104 7 12
      let b := { b with rope := { b.rope with members := [], epoch := 0, leadId := lead, ropeId := b.fld pRop 0x104 0 6,
                                              formAt := some b.meter } }
      let stored := match b.rope.stored with | some (r, p) => if r = b.rope.ropeId then p + 1 else 0 | none => 0
      let b := (b.openRope lead).setJstate 2
      b.send { toward := .module lead, cls := 7, kind := .joinRequest, args := [b.endpoint, b.get pSec 0x104, stored] }

/-- The formation completes: epoch 1, the first membership notice, and the lead itself a member (R506 steps 4 and 5). -/
def Block.formRope (b : Block) : Block :=
  let b := { b with rope := { b.rope with epoch := 1 } }
  let m : Membership := { b.notice with beat := BitVec.ofNat 32 (b.get pKwt 0x13C) }
  (b.becomeMember m).sendNotice

/-- The lead's answer to a join request (R506, R507). -/
def Block.joinReply (b : Block) (id st : Nat) : Block :=
  b.send { toward := .module id, cls := 7, kind := .joinReply, args := [st] }

/-- JOIN_REQUEST: a forming lead admits a joiner of its table; the lead of a formed rope gives it its stored place when that
has no module, or makes it the spare when there is none. With no session, the module's entry is no longer joined. -/
def joinRequest (r : JoinReq) (b : Block) : Block :=
  let id := r.moduleId.toNat
  let known := b.rope.members.any (fun m => decide (m.id = id))
  if b.rope.jstate = 1 then
    if !r.sessionOk then
      { b with rope := { b.rope with members := mapIf (fun m => decide (m.id = id ∧ id ≠ b.endpoint)) (fun m => { m with joined := false }) b.rope.members } }
    else if !known ∨ r.tenant.toNat = 0 ∨ r.tenant.toNat ≠ b.get pSec 0x104 then b.joinReply id stAuth
    else
      let l := mapIf (fun m => decide (m.id = id)) (fun (m : RopeMember) => { m with joined := true }) b.rope.members
      let b := ({ b with rope := { b.rope with members := l } }).openRope id
      let b := b.joinReply id stOk
      if l.all (·.joined) then b.formRope else b
  else if b.rope.jstate ≠ 3 ∨ !b.lead ∨ !r.sessionOk then b
  else if r.tenant.toNat = 0 ∨ r.tenant.toNat ≠ b.get pSec 0x104 then b.joinReply id stAuth
  else
    let serves (p : Nat) : Bool := b.liveMembers.any (fun m => decide (m.place = p))
    let empty (p : Nat) : Bool := b.rope.members.any (fun m => m.lost && decide (m.place = p)) && !serves p
    let enrol (place : Nat) (spare : Bool) : Block :=
      let rest := b.rope.members.filter (fun m => decide (m.id ≠ id) && !(m.lost && decide (m.place = place)))
      let b := { b with rope := { b.rope with members := snoc rest { id := id, place := place, spare := spare, joined := true } } }
      let m : Membership := { b.notice with epoch := BitVec.ofNat 32 (b.rope.epoch + 1) }
      ((((b.openRope id).joinReply id stOk).applyNotice m)).sendNotice
    match r.storedPlace with
    | some p => if empty p.toNat then enrol p.toNat false else if !serves 63 then enrol 63 true else b.joinReply id stOutOfRange
    | none => if !serves 63 then enrol 63 true else b.joinReply id stOutOfRange

/-- JOIN_REQUEST. -/
def execJoinRequest (req : JoinReq) (s : State) : Result := .next (s.on (joinRequest req))

/-- FORM_WAIT_EXPIRY (R506). -/
def formWaitExpiry (b : Block) : Block :=
  match b.rope.formAt with
  | some t =>
    if (b.rope.jstate = 1 ∨ b.rope.jstate = 2) ∧ t + b.fld pRop 0x110 0 16 * 100000 ≤ b.meter then
      ({ b.closeOthers [] with rope := { (b.closeOthers []).rope with members := [] } }).joinEnds 0 stLate
    else b
  | none => b

/-- FORM_WAIT_EXPIRY. -/
def execFormWaitExpiry (s : State) : Result := .next (s.on formWaitExpiry)

/-! ## Leaving, and the driver's declarations (R508) -/

/-- A LEAVE. -/
def Block.leaveNow (b : Block) : Block :=
  match b.rope.jstate with
  | 3 =>
    if b.lead ∧ b.liveMembers.any (fun m => decide (m.id ≠ b.endpoint)) then b.raiseErr pRop 17
    else
      let n := b.notice
      let m : Membership := { n with epoch := BitVec.ofNat 32 (b.rope.epoch + 1), members := n.members.filter (fun e => decide (e.1.toNat ≠ b.endpoint)),
                                     notReady := if b.place = 63 then n.notReady else nub (BitVec.ofNat 6 b.place :: n.notReady) }
      let b := b.transmit { toward := .all, cls := 7, kind := .membership, body := .members m }
      b.leaveRope.setJstate 0
  | 1 =>
    let b := b.transmit { toward := .all, cls := 7, kind := .leaveNotice }
    let b := b.closeOthers []
    ({ b with rope := { b.rope with members := [] } }).joinEnds 0 stAborted
  | 2 =>
    let b := b.transmit { toward := .module b.rope.leadId, cls := 7, kind := .leaveNotice, args := [b.endpoint] }
    (b.closeOthers []).joinEnds 0 stAborted
  | _ => b

/-- A DECLARE of a module ID. -/
def Block.declareNow (b : Block) (id : Nat) : Block :=
  match b.liveMembers.find? (fun m => decide (m.id = id)) with
  | some m => if b.rope.jstate = 3 ∧ b.lead ∧ id ≠ b.endpoint then b.declareMember m else b.raiseErr pRop 17
  | none => b.raiseErr pRop 17

/-- A JOIN_CTRL write (R515). -/
def joinCtrlWrite (v : BitVec 32) (b : Block) : Block :=
  let b := b.setFld pRop 0x108 16 12 (bits (v.setWidth 64) 16 12)
  let b := if v.getLsbD 0 then b.startJoin else b
  let b := if v.getLsbD 1 then b.leaveNow else b
  if v.getLsbD 2 then b.declareNow (bits (v.setWidth 64) 16 12) else b

/-- JOIN (R506): a JOIN_CTRL write. -/
def ownJoin (value : BitVec 32) (s : State) : Result := .next (s.onWrite (joinCtrlWrite value))

/-- LEAVE (R508): a JOIN_CTRL write. -/
def ownLeave (value : BitVec 32) (s : State) : Result := .next (s.onWrite (joinCtrlWrite value))

/-- DECLARE (R508): a JOIN_CTRL write. -/
def ownDeclare (value : BitVec 32) (s : State) : Result := .next (s.onWrite (joinCtrlWrite value))

/-! ## Replies -/

/-- The new owner of a shard has recorded deletions that waited here for its CUTOVER: the coordinator hears of it, once no more of them
are under way (R347). -/
def Block.deletionsDone (b : Block) (m : CairnMsg) (st : Nat) : Block :=
  let same (r : ForwardReq) : Bool := match r with
    | .deletions x _ => decide (x = m)
    | .table _ | .records _ | .shard _ => false
  let waits := b.plc.moves.any (fun v => v.held.any (fun e => same e.1)) ||
    b.transport.sent.any (fun e => match e.msg.body with | .forward r => same r | _ => false)
  if waits ∧ st = stOk then b else b.replyUpdate m.fromPlace m.tag .cairnRecorded st 0

/-- A REPLY that answers a request of this module, named by the request's MSG_ID: it acknowledges the request (R430), and
a parity place's reply to a log page counts as that page held (R441). A refinement that a place could not do ends its search, or its
query's block, as R153 has it. Deletions that a new owner has recorded count for the place that held them (R347). A join request that the lead refuses ends the join. -/
def replyIn (n id : Nat) (body : Bytes) (b : Block) : Block :=
  match b.transport.sent.find? (fun m => decide (m.session = n ∧ m.msgId = id ∧ m.kind = 0)) with
  | none => b
  | some m =>
    let b := (b.acked n id).takeRope n 1
    match m.msg.kind, m.msg.toward, m.msg.args with
    | .logCopy, .place p, [owner, page] =>
      if le body 2 1 ≠ stOk then b
      else if owner < 16 then b.pageHeld owner page p else b.tentHeld (owner - 16) page p
    | .forwarded, _, _ => match m.msg.body with | .forward (.deletions x _) => b.deletionsDone x (le body 2 1) | _ => b
    | .refineRequest, _, query :: number :: _ =>
      let st := le body 2 1
      if st = stOk then b else if st = stTierFault then b.faultQuery query number else b.endSearch query st
    | .joinRequest, _, _ =>
      if b.rope.jstate ≠ 2 ∨ le body 2 1 = stOk then b else (b.closeOthers []).joinEnds 5 (le body 2 1)
    | _, _, _ => b

/-- REPLY. -/
def execReply (session : BitVec 12) (msgId : BitVec 32) (body : Bytes) (s : State) : Result :=
  .next (s.on (replyIn session.toNat msgId.toNat body))

end Sys2Proof.Machine
end

