-- ==== Sys2Proof/Machine/Security.lean ====
section
/-! DEFINITION. Tenancy, firmware, attestation, debug, bivouac and the test access port (R469 to R474, R483 to R492). Its
rows: TENANT_WRITE, TENANT_RELEASE, SCRUB_DONE, STAGE, DROP_PENDING, FW_VERIFY_END, ATT_GO, ATT_DONE, SUBMIT, REVOKE,
FREEZE_WRITE, FREEZE_INPUT, BLOW, SVC_PRESENT, TRST_ASSERTED and the TAP instructions. -/

namespace Sys2Proof.Machine

/-! ## The field-lock fuse and a debug grant -/

/-- The field-lock fuse is blown (R490). -/
def Block.fieldLock (b : Block) : Bool := decide (b.sled.fuses % 2 = 1)

/-- AUTH of DBG_STATUS: 0 NONE, 1 GRANTED, 2 REFUSED; and PERMS (R487). -/
def Block.setAuth (b : Block) (auth perms : Nat) : Block := (b.setFld pDbg 0x100 1 2 auth).put pDbg 0x104 perms

/-- A debug grant ends (R487). -/
def Block.endGrant (b : Block) : Block := if b.fld pDbg 0x100 1 2 = 1 then b.setAuth 0 0 else b

/-- A permission of a token in force: 0 FREEZE, 1 READOUT, 2 SCAN. -/
def Block.granted (b : Block) (n : Nat) : Bool :=
  decide (b.fld pDbg 0x100 1 2 = 1) && decide (b.fld pDbg 0x104 n 1 = 1) && !b.fieldLock

/-- A new challenge drawn (R486). -/
def Block.newChallenge (b : Block) : Block :=
  let (c, b) := b.draw 64
  { b with sec := { b.sec with challenge := c } }

/-! ## Tenancy (R471 to R473) -/

/-- TSTATE changed; any debug grant ends (R487). -/
def Block.setTstate (b : Block) (n : Nat) : Block := (b.setFld pSec 0x100 0 2 n).endGrant

/-- A TENANT write (R471). -/
def tenantWriteReg (v : BitVec 32) (b : Block) : Block :=
  if b.tstate ≠ 0 then b.raiseErr pSec 19
  else if v = 0 then b
  else
    let (key, b) := b.draw 64
    let b := { b with sec := { b.sec with tenantKey := key } }
    (b.put pSec 0x104 v.toNat).setTstate 1

/-- TENANT_WRITE. -/
def ownTenantWrite (value : BitVec 32) (s : State) : Result := .next (s.onWrite (tenantWriteReg value))

/-- Every job stopped and unloaded with a status (R272, R273). -/
def Block.clearJobs (b : Block) (st : Nat) : Block :=
  b.jobList.foldl (fun b e =>
    let b := (b.failLoad e.1 st).cutRun e.1 st
    match b.job e.1 with | some x => b.unloadJob e.1 x | none => b) b

/-- Steps 1 to 3 of a release: slots disarmed and sessions killed, leases ended, jobs unloaded, every command in flight
ended ABORTED, every index, table, region and state object freed with no zone record. -/
def Block.releaseTenant (b : Block) : Block :=
  let b := b.sec.slots.foldl (fun b e => if e.2.st = 1 then b.disarm e.1 else b) b
  let b := b.regions.foldl (fun b r => if r.lease.isSome then (b.cancelPublish r.number stAborted).expireLease r.number else b) b
  let b := b.clearJobs stAborted
  let b := b.abandonAll (b.cmds.map (·.id)) stAborted
  { b with indexes := [], shardMap := [], switching := [], dramParts := [], dramTiles := [], cache := [], tables := [], seqs := [], regions := [], layers := []
           plc := { b.plc with blockMap := [], moves := [], replicas := [], copies := [] }
           ftl := { b.ftl with zones := [], rows := [], writes := [], programs := [], held := [] } }

/-- A TENANT_CTRL write (R472). -/
def tenantCtrlWrite (v : BitVec 32) (b : Block) : Block :=
  if v.toNat / 65536 ≠ 0x7E5A ∨ !v.getLsbD 0 then b
  else if b.joined ∨ b.tstate ≠ 1 then b.raiseErr pSec 19
  else ({ b.setTstate 2 with sec := { (b.setTstate 2).sec with scrubbing := true } }).releaseTenant

/-- TENANT_RELEASE. -/
def ownTenantRelease (value : BitVec 32) (s : State) : Result := .next (s.onWrite (tenantCtrlWrite value))

/-- The high-water mark registers, as (page type, offset, bits): STORE_HIGH, ACTIVE_HIGH, QUEUED_HIGH, THREADS_HIGH,
STEPS_HIGH, SLOTS_HIGH, CTX_HIGH. -/
def markRegs : List (PageType × Nat) :=
  [(.trf, 0x108), (.pim, 0x110), (.flc, 0x120), (.scl, 0x110), (.mxc, 0x110), (.slu, 0x108), (.qpl, 0x124)]

/-- The register is a counter other than SEC CNT7, or a high-water mark (R472 step 5). -/
def scrubbed (a : Nat) : Bool :=
  match pageOf a with
  | none => false
  | some p =>
    let off := a % 0x1000
    (decide (0x40 ≤ off ∧ off < 0x80) && !decide (p = pSec ∧ off = 0x78)) || markRegs.any (fun m => decide (m = (p.type, off)))

/-- Steps 4 to 6 of a release: every block erased but the FTL's metadata, absent cartridges unbound, memories, buffers,
counters, marks and the tenant view zeroed, keys zeroed. -/
def Block.scrub (b : Block) : Block :=
  let entries := b.ftl.entries.filter (fun n => decide ((b.bay n).st = bsOnline ∨ (b.bay n).st = bsDraining))
  let engine (e : Engine) : Engine := { used := e.used, window := e.window, shares := e.shares }
  let stack (x : Stack) : Stack := { x with sweeps := [], rows := [], waiting := [] }
  let b := { b with
    ftl := { b.ftl with entries := entries, reads := [], rewrites := [], bad := [], remap := [], gone := [] }
    engines := smap {} engine b.engines
    stackSet := smap {} stack b.stackSet
    cores := { b.cores with threads := [], ctrs := [], signals := [], moves := [], tiles := [], staging := [], spans := [], starts := []
                            last := [], mxcs := [] }
    ops := [], topks := []
    trf := { b.trf with entries := [], outside := [], handed := [], hwm := [], delayHwm := [], congested := [] }
    links := smap {} (fun x => { x with replay := [], waiting := [], assembly := [] }) b.links
    transport := { b.transport with reasm := [], frames := [] }
    regs := b.regs.filter (fun e => !scrubbed e.1)
    sec := { b.sec with view := [], viewMarks := [], power := (0, 0), tenantKey := [], slots := [], scrubbing := false } }
  b.put pSec 0x104 0

/-- SCRUB_DONE (R472): the scrub ends and the module is VACANT. -/
def scrubDone (b : Block) : Block :=
  if b.tstate ≠ 2 then b else ((b.scrub.setTstate 0).raiseInt pSec 16).bump pSec 7

/-- SCRUB_DONE. -/
def execScrubDone (s : State) : Result := .next (s.on scrubDone)

/-! ## Firmware (R483, R484) -/

/-- The firmware of a target. -/
def Block.firmware (b : Block) (t : Nat) : Firmware := sget {} b.sec.firmware t

def Block.setFirmware (b : Block) (t : Nat) (x : Firmware) : Block :=
  { b with sec := { b.sec with firmware := sset {} b.sec.firmware t x } }

/-- `n` bytes at an address lie within DMA_BASE to DMA_LIMIT. -/
def Block.inDma (b : Block) (a n : Nat) : Bool := decide (b.get pHlk 0x110 ≤ a) && decide (a + n ≤ b.get pHlk 0x118)

/-- FW_STATUS of an image under the checks of R484, in order: 2 when it passes. -/
def Block.checkImage (b : Block) (i : Bytes) : Nat :=
  let target := le i 6 1
  let len := le i 0xC 4
  if i = [] then 6
  else if le i 0 4 ≠ 0x5A494657 ∨ le i 4 2 ≠ 1 ∨ 2 < target ∨ le i 8 2 < le i 0xA 2 ∨ len = 0 ∨ 67108864 < len ∨
      i.length < 0x480 + len then 5
  else if Config.sha512 (slice i 0x80 512) ≠ Config.rootHash 0 ∨ !Config.pssOk (slice i 0x80 512) (slice i 0 0x280) (slice i 0x280 512) ∨
      (Config.sha512 (slice i 0x480 len)).toList ≠ slice i 0x10 64 then 3
  else if le i 8 2 < (b.firmware target).floor then 4
  else 2

/-- An FW_CTRL write (R484, R491). -/
def fwCtrlWrite (v : BitVec 32) (b : Block) : Block :=
  let sel := bits (v.setWidth 64) 12 2
  let b := if sel = 3 then b.raiseErr pSec 20 else b.setFld pSec 0x14C 12 2 sel
  let b := if v.getLsbD 1 then
      let b : Block := { b with sec := { b.sec with firmware := smap {} (fun x => { x with pending := none }) b.sec.firmware } }
      if b.fld pSec 0x14C 8 4 = 1 then b else b.setFld pSec 0x14C 8 4 0
    else b
  if !v.getLsbD 0 then b
  else if b.fld pSec 0x14C 8 4 = 1 then b.raiseErr pSec 4
  else
    let a := b.get pSec 0x140
    let n := b.get pSec 0x148
    let image := if b.inDma a n then b.hostRead a n else []
    { b.setFld pSec 0x14C 8 4 1 with sec := { (b.setFld pSec 0x14C 8 4 1).sec with verifying := some image } }

/-- STAGE (R484): an FW_CTRL write. -/
def execStage (value : BitVec 32) (s : State) : Result := .next (s.onWrite (fwCtrlWrite value))

/-- DROP_PENDING (R484): an FW_CTRL write. -/
def execDropPending (value : BitVec 32) (s : State) : Result := .next (s.onWrite (fwCtrlWrite value))

/-- FW_VERIFY_END (R484): the image is the target's pending image, or it is refused. -/
def fwVerifyEnd (b : Block) : Block :=
  match b.sec.verifying with
  | none => b
  | some i =>
    let st := b.checkImage i
    let b := { b with sec := { b.sec with verifying := none } }
    let b : Block := if st = 2 then
        let t := le i 6 1
        (b.setFirmware t { b.firmware t with pending := some (i.take (0x480 + le i 0xC 4)) }).bump pSec 5
      else b.raiseErr pSec 17
    (b.setFld pSec 0x14C 8 4 st).raiseInt pSec 17

/-- FW_VERIFY_END. -/
def ownFwVerifyEnd (s : State) : Result := .next (s.on fwVerifyEnd)

/-! ## Attestation (R485) -/

/-- The attestation report. -/
def Block.report (b : Block) : Bytes :=
  let image (t : Nat) : Bytes := (b.firmware t).image
  let nonce := (List.range 16).flatMap (fun i => toLe (b.get pSec (0x160 + 4 * i)) 4)
  let bitsAt := b.tstate + 4 * flag b.fieldLock + 8 * flag (decide (b.fld pDbg 0x100 1 2 = 1))
  let head := padTo (toLe 0x5A494154 4 ++ toLe 1 2 ++ toLe 0 2 ++ toLe b.sled.serial.toNat 8 ++ toLe (b.get pSec 0x104) 4 ++
    toLe bitsAt 4 ++ [0, 1, 2].flatMap (fun t => toLe (le (image t) 8 2) 2)) 0x40
  let measures := [0, 1, 2].flatMap (fun t => (Config.sha512 ((image t).drop 0x480)).toList)
  let signed := head ++ nonce ++ measures ++ (Config.hostMeasure b.free).toList ++ (Config.attPub b.sled.serial).toList
  let cert := (Config.attCert b.sled.serial).take 4096
  signed ++ (Config.attSign b.sled.serial b.free signed).toList ++ padTo (toLe cert.length 4) 0x40 ++ cert

/-- An ATT_CTRL write: GO starts a report unless one is being written. -/
def attCtrlWrite (v : BitVec 32) (b : Block) : Block :=
  if v.getLsbD 0 ∧ b.fld pSec 0x154 1 1 = 0 then b.setFld pSec 0x154 1 1 1 else b

/-- ATT_GO. -/
def execAttGo (value : BitVec 32) (s : State) : Result := .next (s.onWrite (attCtrlWrite value))

/-- ATT_DONE (R485): the report written at ATT_ADDR, or BAD_COMMAND for an address outside the DMA window. -/
def attDone (b : Block) : Block :=
  if b.fld pSec 0x154 1 1 = 0 then b
  else
    let r := b.report
    let a := b.get pSec 0x158
    let ok := b.inDma a r.length
    let b := if ok then ({ b.hostWrite a r with free := b.free + 1 }).bump pSec 4 else b
    ((b.setFld pSec 0x154 8 8 (if ok then stOk else stBadCommand)).setFld pSec 0x154 1 1 0).raiseInt pSec 18

/-- ATT_DONE. -/
def execAttDone (s : State) : Result := .next (s.on attDone)

/-! ## Debug authorisation (R486, R487) -/

/-- A token passes every check of R486. -/
def Block.tokenOk (b : Block) (t : Bytes) : Bool :=
  let tenant := le t 0x10 4
  !b.fieldLock && decide (le t 0 4 = 0x5A494454) && decide (le t 4 2 = 1) && decide (le t 8 8 = b.sled.serial.toNat) &&
  decide (tenant = b.get pSec 0x104) && decide (tenant = 0 → b.tstate = 0) &&
  decide (slice t 0x40 64 = padTo b.sec.challenge 64) && decide (Config.sha512 (slice t 0x280 512) = Config.rootHash 1) &&
  Config.pssOk (slice t 0x280 512) (slice t 0 0x80 ++ slice t 0x280 512) (slice t 0x80 512)

/-- A token submitted (R487). -/
def Block.submitToken (b : Block) (t : Bytes) : Block :=
  if b.tokenOk t then (b.setAuth 1 (nbits (le t 0x14 4) 0 3)).newChallenge else (b.setAuth 2 0).raiseErr pDbg 16

/-- The token buffer: 1,152 bytes at 0x800. -/
def Block.tokenBuffer (b : Block) : Bytes := (List.range 288).flatMap (fun i => toLe (b.get pDbg (0x800 + 4 * i)) 4)

/-- An AUTH_CTRL write (R487). -/
def authCtrlWrite (v : BitVec 32) (b : Block) : Block :=
  let b := if v.getLsbD 0 then b.submitToken b.tokenBuffer else b
  if v.getLsbD 1 then (b.setAuth 0 0).newChallenge else b

/-- SUBMIT (R487): an AUTH_CTRL write. -/
def ownSubmit (value : BitVec 32) (s : State) : Result := .next (s.onWrite (authCtrlWrite value))

/-- REVOKE (R487): an AUTH_CTRL write. -/
def execRevoke (value : BitVec 32) (s : State) : Result := .next (s.onWrite (authCtrlWrite value))

/-! ## Bivouac and the fuse (R488, R490) -/

/-- A request for bivouac (R488). -/
def Block.requestFreeze (b : Block) : Block :=
  if b.granted 0 then { b with bivouac := true } else if b.fieldLock then b else b.raiseErr pDbg 17

/-- FREEZE_WRITE (R488): a DBG.FREEZE write with GO and the key. -/
def freezeWriteReg (v : BitVec 32) (b : Block) : Block :=
  if v.toNat / 65536 = 0xB1F0 ∧ v.getLsbD 0 then b.requestFreeze else b

/-- FREEZE_WRITE. -/
def ownFreezeWrite (value : BitVec 32) (s : State) : Result := .next (s.onWrite (freezeWriteReg value))

/-- FREEZE_INPUT (R488): the input held for at least 1 µs. -/
def execFreezeInput (heldNs : Nat) (s : State) : Result :=
  .next (s.on (fun b => if 1000 ≤ heldNs then b.requestFreeze else b))

/-- A FUSE_CTRL write (R490). -/
def fuseCtrlWrite (v : BitVec 32) (b : Block) : Block :=
  if v.toNat / 65536 ≠ 0xF10C ∨ !v.getLsbD 0 ∨ b.tstate = 2 then b
  else ({ b with sled := { b.sled with fuses := b.sled.fuses ||| 1 } }).endGrant

/-- BLOW. -/
def execBlow (value : BitVec 32) (s : State) : Result := .next (s.onWrite (fuseCtrlWrite value))

/-! ## The test access port (R489, R527) -/

/-- A change of the TAP unless TRST_n holds it or the field-lock fuse is blown; TDO shows nothing then. -/
def Block.onTap (b : Block) (f : Tap → Block → Bits × Tap × Block) : Block :=
  if b.fieldLock ∨ b.tap.reset then { b with out := { b.out with tdo := [] } }
  else
    let (tdo, t, b) := f b.tap b
    { b with tap := t, out := { b.out with tdo := tdo } }

/-- The bits of a number, least significant first. -/
def lsbBits (v : Nat) (n : Nat) : Bits := (List.range n).map (fun i => v.testBit i)

/-- The bits of bytes, least significant first. -/
def bytesBits (bs : Bytes) : Bits := bs.flatMap (fun x => lsbBits x.toNat 8)

/-- The bypass register: it captures 0 and delays TDI by one bit. -/
def tapBypass (tdi : Bits) (t : Tap) : Bits × Tap :=
  ((false :: tdi).take tdi.length, { t with ir := 0xFF, bypass := tdi.getLastD false })

/-- BYPASS. -/
def execBypass (tdi : Bits) (s : State) : Result :=
  .next (s.onPowered (fun b => b.onTap (fun t b => ((tapBypass tdi t).1, (tapBypass tdi t).2, b))))

/-- IDCODE. -/
def execIdcode (s : State) : Result :=
  .next (s.onPowered (fun b => b.onTap (fun t b => (lsbBits 0x2604B74B 32, { t with ir := 0x01 }, b))))

/-- SAMPLE/PRELOAD: the pins are captured and shifted out, and TDI is loaded. -/
def execSamplePreload (tdi : Bits) (pins : Bits) (s : State) : Result :=
  .next (s.onPowered (fun b => b.onTap (fun t b => (pins, { t with ir := 0x02, boundary := tdi }, b))))

/-- EXTEST: in bivouac the boundary register drives the pins; otherwise it acts as BYPASS. -/
def execExtest (tdi : Bits) (s : State) : Result :=
  .next (s.onPowered (fun b => b.onTap (fun t b =>
    if b.bivouac then (t.boundary, { t with ir := 0x03, boundary := tdi, drives := true }, b)
    else ((tapBypass tdi t).1, { (tapBypass tdi t).2 with ir := 0x03 }, b))))

/-- CHALLENGE. -/
def execChallenge (s : State) : Result :=
  .next (s.onPowered (fun b => b.onTap (fun t b => (bytesBits (padTo b.sec.challenge 64), { t with ir := 0x10 }, b))))

/-- TOKEN: 9,216 bits shifted in and submitted at Update-DR; in bivouac no register changes. -/
def execToken (data : Bytes) (s : State) : Result :=
  .next (s.onPowered (fun b => b.onTap (fun t b =>
    ([], { t with ir := 0x11 }, if b.bivouac then b else b.submitToken (padTo (data.take 1152) 1152)))))

/-- FREEZE. -/
def execFreeze (s : State) : Result :=
  .next (s.onPowered (fun b => b.onTap (fun t b => ([], { t with ir := 0x12 }, if b.bivouac then b else b.requestFreeze))))

/-- CHAIN_SEL. -/
def execChainSel (chain : BitVec 16) (s : State) : Result :=
  .next (s.onPowered (fun b => b.onTap (fun t b => ([], { t with ir := 0x20, chain := chain.toNat }, b))))

/-- CHAIN_LEN. -/
def execChainLen (s : State) : Result :=
  .next (s.onPowered (fun b => b.onTap (fun t b => (lsbBits (Config.chainLen t.chain) 32, { t with ir := 0x21 }, b))))

/-- A chain's contents: those written by CHAIN_WRITE, else a free value. -/
def Block.chain (b : Block) (t : Tap) : Bits :=
  match t.chains.find? (fun e => decide (e.1 = t.chain)) with
  | some e => e.2
  | none => Config.chainBits t.chain b.free

/-- CHAIN_READ: in bivouac with READOUT granted the chain is shifted out; otherwise zeros. -/
def execChainRead (s : State) : Result :=
  .next (s.onPowered (fun b => b.onTap (fun t b =>
    let c := b.chain t
    (if b.bivouac ∧ b.granted 1 then c else c.map (fun _ => false), { t with ir := 0x22 }, b))))

/-- CHAIN_WRITE: in bivouac with SCAN granted the chain is shifted in; otherwise zeros are shifted out. -/
def execChainWrite (data : Bits) (s : State) : Result :=
  .next (s.onPowered (fun b => b.onTap (fun t b =>
    if b.bivouac ∧ b.granted 2 then
      (b.chain t, { t with ir := 0x23, chains := (t.chain, data) :: t.chains.filter (fun e => decide (e.1 ≠ t.chain)) }, b)
    else (data.map (fun _ => false), { t with ir := 0x23 }, b))))

/-- SVC_PRESENT (R527): the service plug is fitted or removed. -/
def execSvcPresent (present : Bool) (s : State) : Result :=
  .next (s.onSled (fun b => { b with sled := { b.sled with svcPresent := present } }))

/-- TRST_ASSERTED (R527): asserted, TRST_n holds the controller in Test-Logic-Reset, which selects IDCODE and ends
EXTEST. -/
def execTrstAsserted (asserted : Bool) (s : State) : Result :=
  .next (s.onSled (fun b =>
    { b with tap := if asserted then { b.tap with reset := true, ir := 0x01, drives := false } else { b.tap with reset := false } }))

end Sys2Proof.Machine
end

