-- ==== Sys2Proof/Machine/Startup.lean ====
section
/-! DEFINITION. Start-up, resets and module-fatal errors (R493 to R504, R510, R516). Its rows: POWER_UP,
START_UP_STAGE_END, STAGE_LIMIT_EXCEEDED, MODULE_FATAL, RESET_WARM, RESET_COLD, CFG_LOCK, BUSBAR_UNDERVOLTAGE,
POWER_STAGE_OVERCURRENT, POWER_RESTART, MATE_OPEN. -/

namespace Sys2Proof.Machine

/-! ## What survives a reset (R498 to R502) -/

/-- The code of a stage (R493). -/
def Stage.code : Stage → Nat
  | .rails => 0 | .boot => 1 | .dieLinks => 2 | .memory => 3 | .blocks => 4 | .media => 5 | .restore => 6 | .done => 7

/-- The bit of LAST_RESET for a reset (R42). -/
def ResetKind.code : ResetKind → Nat
  | .power => 0 | .warm => 1 | .cold => 2 | .button => 3

/-- An index at this place as RESTORE brings it back: versions that were MOUNTED or CURRENT, and the changes whose cairn is
recorded in programmed log pages. -/
def Index.durable (x : Index) : Index :=
  let stays (v : Version) : Bool := decide (v.state = .mounted ∨ v.state = .current)
  let page (n : Nat) : Bool := match x.logPages.find? (fun p => decide (p.number = n)) with | some p => p.programmed | none => true
  { x with
    versions := (x.versions.filter stays).map (fun v => { v with cmd := none, fromPlace := 0, tag := 0, waiting := [], busy := false })
    side := x.side.filter (fun s => s.cairn.isSome && page s.page)
    tombs := x.tombs.filter (fun s => s.cairn.isSome && page s.page)
    logPages := x.logPages.filter (·.programmed)
    groups := [], asks := [], lastSend := none }

/-- A table at this place as RESTORE brings it back: its definition, its CURRENT and retained versions, its committed
records. -/
def Table.durable (t : Table) : Table :=
  { t with sealing := false, versions := t.versions.filter (fun v => decide (v.version ≤ t.current)),
           pending := t.pending.filter (·.committed), groups := [], folded := none, sealFor := none, dropFor := none,
           defineFor := none, held := [] }

/-- An item written back: clean, its mirror freed; a lost one stays lost. -/
def Tier.written (t : Tier) : Tier := if t.lost then t else { t with dirty := false, mirror := none }

/-- A region restored: a warm reset's RESTORE writes CURRENT back, so that it is DURABLE; any other start-up returns to DURABLE
(R383, R500). Its lease and working copy end. -/
def Region.restored (warm : Bool) (r : Region) : Region :=
  let page (p : PoolPage) : PoolPage := { p with tier := p.tier.written }
  let map := (if warm then r.map else r.saved).map page
  { r with map := map, saved := map, current := if warm then r.current else r.durable,
           durable := if warm then r.current else r.durable, wc := [], lease := none }

/-- A pushed layer restored: a warm reset's RESTORE writes it back; any other start-up finds its last written-back generation. -/
def Layer.restored (warm : Bool) (l : Layer) : Option Layer :=
  if warm then some { l with tiles := l.tiles.map (fun t => { t with tier := t.tier.written }) }
  else
    let clean : Tier := { stack := 0, dirty := false }
    let lost (n : Nat) : Bool := !l.tiles.any (·.tier.dirty) && (match l.tiles[n]? with | some t => t.tier.lost | none => false)
    l.written.map (fun w =>
      { l with gen := w.1, prio := w.2.1, saved := none,
               tiles := (List.zip (List.range w.2.2.length) w.2.2).map (fun d => { data := d.2, tier := { clean with lost := lost d.1 } }) })

/-- What stage RESTORE writes back or gives up: the regions and layers of a reset's record (R498, R500). -/
def Kept.settle (k : Kept) (warm : Bool) : Kept :=
  { k with regions := k.regions.map (Region.restored warm), layers := k.layers.filterMap (Layer.restored warm) }

/-- The record of a reset when a power-up or a cold reset follows before it is restored: the DRAM tier is lost (R499). -/
def Kept.coldStart (k : Kept) : Kept := { k.settle false with dram := [], codeTiles := [] }

/-- The durable state as a reset finds it, with the dirty items that a warm reset keeps in DRAM. -/
def Block.snapshot (b : Block) (warm : Bool) : Kept :=
  let b := b.voidOwn
  let indexes := smap {} Index.durable b.indexes
  let has (d : DramPart) : Bool := indexes.any (fun e => decide (e.1 = d.index) && e.2.versions.any (fun v => decide (v.root.version = d.version)))
  let held (t : DramTile) : Bool := indexes.any (fun e => decide (e.1 = t.index) && e.2.versions.any (fun v => decide (v.root.version = t.version)))
  { tenant := b.get pSec 0x104, tstate := b.tstate, tenantKey := b.sec.tenantKey
    indexes := indexes
    shardMap := b.shardMap
    tables := (b.tables.filter (fun t => !t.dropping && t.defineFor.isNone)).map Table.durable
    seqs := b.seqs
    regions := b.regions
    layers := b.layers
    blockMap := b.plc.blockMap
    dram := if warm then b.dramParts.filter has else []
    codeTiles := if warm then b.dramTiles.filter held else [] }

/-- The value a register keeps over a warm reset: RWS and RWL fields, GLB.LOCK, what the straps give, the health block, the H to IO link, stack
roles, a debug grant and what PWR measures; every other field has its reset value (R499, R500). -/
def warmValue (a : Nat) (v : BitVec 64) : BitVec 64 :=
  match pageOf a with
  | none => resetValue a
  | some p =>
    let off := a % 0x1000
    let whole := decide (0x80 ≤ off ∧ off < 0x100) || decide (p = pGlb ∧ (off = 0x104 ∨ off = 0x108 ∨ off = 0x118)) ||
      decide (p.type = .kwf ∧ off = 0x108) || decide (p = pHlk ∧ off = 0x100) ||
      decide (p.type = .mem ∧ off = 0x104) || decide (p = pDbg ∧ off < 0x108 ∧ 0x100 ≤ off) || decide (p = pPwr ∧ 0x11C ≤ off)
    if whole then v
    else match findReg p off with
      | none => resetValue a
      | some d => d.fields.foldl (fun r f =>
          if f.acc = .rws ∨ f.acc = .rwl then setBits r f.lo f.width (bits v f.lo f.width) else r) (resetValue a)

/-- Registers changed one by one, those at their reset values dropped. -/
def mapRegs (f : Nat → BitVec 64 → BitVec 64) (l : Sparse (BitVec 64)) : Sparse (BitVec 64) :=
  (l.map (fun e => (e.1, f e.1 e.2))).filter (fun e => decide (e.2 ≠ resetValue e.1))

/-- The identity registers loaded from the sled (R42, R84, R447, R525). -/
def Block.loadIdentity (b : Block) : Block :=
  let b := ((b.put pGlb 0x104 b.sled.silicon.toNat).put pGlb 0x108 b.sled.serial.toNat).setFld pGlb 0x110 0 12 b.sled.moduleId
  let b := b.put pPwr 0x120 b.sled.tripLast
  (List.range 8).foldl (fun b n => b.put (pKwf n) 0x108 (sget 0 b.sled.macs n)) b

/-- A reset begins (R499): every command, session, job and lease ends without a record; memory of the flash, the sled and
the host stays; a warm reset keeps the DRAM tier, PHY training, slot keys and sticky state as well. A module that stays in its
stage goes on only from a cold reset or a power-up (R494, R503). -/
def Block.reset (b : Block) (k : ResetKind) : Block :=
  let warm := decide (k = .warm)
  let kept : Option Kept := if b.stage = .done then some (b.snapshot warm) else b.kept
  let kept : Option Kept := if warm then kept else kept.map Kept.coldStart
  let armed (s : KeySlot) : KeySlot := if s.st = 1 then s else {}
  let bay (x : Bay) : Bay := { x with st := bsEmpty, rail := warm && x.rail, attn := false, format := false, emptyAt := none }
  let stack (x : Stack) : Stack := if warm then { x with sweeps := [], waiting := [] } else {}
  let new : Block := {
    meter := if warm then b.meter else 0
    stage := if k = .power then .rails else if warm ∧ b.stuck then b.stage else .boot
    resetKind := k
    fatal := warm && b.fatal
    stuck := warm && b.stuck
    sled := { b.sled with power := .on, refusedFw := none, poweringOff := false }
    regs := if warm then mapRegs warmValue b.regs else []
    hostMem := b.hostMem
    nextCmd := b.nextCmd
    governor := if warm then b.governor else {}
    stackSet := smap {} stack b.stackSet
    ftl := { b.ftl with writes := [], programs := [], rebuild := none }
    engines := smap {} Engine.restart b.engines
    cache := if warm then b.cache else []
    bays := smap {} bay b.bays
    nextLease := b.nextLease
    roles := if warm then b.roles else {}
    rope := { stored := b.rope.stored, key := b.rope.key }
    health := if warm then b.health else {}
    cores := if warm then { fenced := b.cores.fenced } else {}
    sec := { firmware := b.sec.firmware, challenge := b.sec.challenge, slots := if warm then smap {} armed b.sec.slots else [] }
    tap := if warm then b.tap else { reset := b.tap.reset }
    kept := kept
    nextId := b.nextId
    free := b.free
    out := b.out }
  if warm then new else new.newChallenge.loadIdentity

/-- A GLB.RESET write (R43, R499). -/
def resetWrite (v : BitVec 32) (b : Block) : Block :=
  if v.toNat / 65536 ≠ 0xB4C5 then b
  else if v.getLsbD 1 then b.reset .cold
  else if v.getLsbD 0 then b.reset .warm
  else b

/-- RESET_WARM: a GLB.RESET write. -/
def execResetWarm (value : BitVec 32) (s : State) : Result := .next (s.onWrite (resetWrite value))

/-- RESET_COLD: a GLB.RESET write. -/
def execResetCold (value : BitVec 32) (s : State) : Result := .next (s.onWrite (resetWrite value))

/-- CFG_LOCK (R44): a GLB.LOCK write. -/
def lockWrite (v : BitVec 32) (b : Block) : Block := if v.getLsbD 0 then b.setFld pGlb 0x118 0 1 1 else b

/-- CFG_LOCK. -/
def execCfgLock (value : BitVec 32) (s : State) : Result := .next (s.onWrite (lockWrite value))

/-! ## Module-fatal errors (R510) -/

/-- A module-fatal error with a cause at a site: FATAL records it, every command ends TIER_FAULT, no page accepts work and
KWT sends nothing; before READY the module stays in its stage. -/
def Block.moduleFatal (b : Block) (cause site : Nat) : Block :=
  if cause = 0 ∨ 7 < cause ∨ b.fatal then b
  else
    let record := BitVec.ofNat 64 (cause + 16 * b.stage.code + 256 * site + 2 ^ 63)
    let early : Bool := decide (b.stage ≠ Stage.done)
    let b : Block := { b.setSled { b.sled with fatal := record } with fatal := true, stuck := early }
    b.abandonAll (b.cmds.map (·.id)) stTierFault

/-- MODULE_FATAL. -/
def execModuleFatal (cause site : Fin 16) (s : State) : Result := .next (s.on (fun b => b.moduleFatal cause.val site.val))

/-- STAGE_LIMIT_EXCEEDED (R494): cause 6, and the module stays in the stage. -/
def execStageLimitExceeded (s : State) : Result :=
  .next (s.on (fun b => if b.stage = .done ∨ b.stuck then b else { b.moduleFatal 6 2 with stuck := true }))

/-! ## The stages (R493 to R498) -/

/-- A page put to work by the module itself: ENABLE 1, RUNNING, STATE_CHANGE (R32, R497). -/
def Block.startPage (b : Block) (p : PageRef) : Block :=
  let x := ((b.setFld p 8 0 1 1).setState p 2).raiseInt p 1
  if p.type = .flc then Block.settleEngines b x else x

/-- The pages of a type. -/
def pagesOf (t : PageType) : List PageRef := (List.range t.instances).map (fun i => ⟨t, i⟩)

/-- BOOT of a target's pending image (R495): verified again, it becomes the running image and raises the floor, or is
discarded with its refusal in FW_STATUS. -/
def Block.activate (b : Block) (bad : List Nat) (t : Nat) : Block :=
  let x := b.firmware t
  match x.pending with
  | none => b
  | some i =>
    let st := b.checkImage i
    if st = 2 ∧ t ∉ bad then b.setFirmware t { image := i, pending := none, floor := max x.floor (le i 0xA 2) }
    else (b.setFirmware t { x with pending := none }).setFld pSec 0x14C 8 4 (if st = 2 then 3 else st)

/-- Stage BOOT ends, or the module stops in it for an image of target 0 or 2 (R495). From `State.reset`, where none has been
drawn, the challenge of R486 is drawn here (log 148). -/
def Block.endBoot (b : Block) (found : StageFindings) : Block :=
  let warm := decide (b.resetKind = .warm)
  let b := if warm ∨ b.sec.challenge ≠ [] then b else b.newChallenge
  let b := if warm then b else [0, 1, 2].foldl (fun b t => b.activate found.badPending t) b
  match found.badImages.find? (fun t => decide (t = 0 ∨ t = 2)) with
  | some t => { b with stuck := true, sled := { b.sled with refusedFw := some t } }
  | none => { b with stage := if warm then .blocks else .dieLinks }

/-- Stage DIE_LINKS ends (R496). -/
def Block.endLinks (b : Block) (found : StageFindings) : Block :=
  let n := min 2 found.hostLinkModules
  if n = 0 then b.moduleFatal 2 2
  else if found.dieLinkLost then b.moduleFatal 1 2
  else
    let b := (b.setFld pHlk 0x100 0 2 n).setFld pHlk 0x100 8 1 (flag (decide (n = 1)))
    { (b.startPage pGlb).startPage pHlk with stage := .memory }

/-- Stage MEMORY ends: stack roles (R496). A stack that fails its training is FAILED; MEM.ERR_STATUS.STACK_FAIL, which R179 gives a
stack that stops answering, is not set for it (DESIGN CHOICE, log 160). -/
def Block.endMemory (b : Block) (found : StageFindings) : Block :=
  let failed := (List.range 8).filter (fun n => decide (n ∈ found.failedStacks))
  let b := (pagesOf .mem).foldl Block.startPage b
  let spare : Nat := if 8 ∈ found.failedStacks then 3 else if failed = [] then 1 else 0
  let stands : Option Nat := if spare = 0 then failed.head? else none
  let b := { b with roles := { failed := failed, spare := spare, standFor := stands } }
  let b := failed.foldl (fun b n => b.setRole n 3) b
  let b := if spare = 1 then b else b.setRole 8 spare
  let b := match stands with | some n => b.setFld (pMem 8) 0x104 4 4 n | none => b
  { b with stage := .blocks }

/-- The page types that stage BLOCKS enables, and those it enables first after a warm reset (R497). -/
def blockTypes : List PageType := [.sec, .dbg, .pwr, .pim, .scl, .mxc, .slu, .idx, .tbl, .plc, .rop, .hlt]

/-- Stage BLOCKS ends, or search firmware is refused (R495, R497). -/
def Block.endBlocks (b : Block) (found : StageFindings) : Block :=
  if 1 ∈ found.badImages then b.moduleFatal 7 2
  else
    let types := if b.resetKind = .warm then [.glb, .hlk, .mem] ++ blockTypes else blockTypes
    { (types.flatMap pagesOf).foldl Block.startPage b with stage := .media }

/-- A bay at the end of stage MEDIA: a cartridge that the bay table names is ONLINE; another is being identified; an absent
one that holds members waits for its rebuild (R410, R494). -/
def Block.startBay (b : Block) (present : List Nat) (n : Nat) : Block :=
  let x := b.bay n
  let b := if n ∈ present then b.presentChanged n else b
  if n ∈ present then
    if n ∈ b.ftl.entries ∧ sget (0, 0) b.ftl.bayTable n = (x.serial, x.gen) ∧ x.bound = b.sled.serial.toNat then
      (b.setChannels n true).enterBay n bsOnline (fun x => { x with present := true, rail := true })
    else b.enterBay n bsIdentifying (fun x => { x.blank with present := true, rail := true })
  else
    let since := if b.holdsMembers n then some b.meter else none
    b.setBay n { x.blank with st := bsEmpty, present := false, rail := false, emptyAt := since }

/-- Stage MEDIA ends: FLC pages run whether or not a cartridge is present (R201). -/
def Block.endMedia (b : Block) (found : StageFindings) : Block :=
  let b := (pagesOf .flc).foldl Block.startPage (b.startPage pFtl)
  { (List.range 16).foldl (fun b n => b.startBay found.presentBays n) b with stage := .restore }

/-- The home copies of versions that were not restored freed; those of tables and jobs being written are freed too. -/
def Block.freeUnfinished (b : Block) : Block :=
  let lives (z : Zone) : Bool := match z.owner with
    | .index => b.indexes.any (fun e => decide (e.1 = z.object) && e.2.versions.any (fun v => decide (v.root.version = z.version)))
    | .table => b.tables.any (fun t => decide (t.number = z.object))
    | .job => false
  (b.ftl.zones.filter (fun z => !z.log && decide (z.st = .opened) && !lives z)).foldl (fun b z => b.freeZone z.number false) b

/-- Durable state restored (R498). -/
def Block.restore (b : Block) : Block :=
  match b.kept with
  | none => b
  | some k =>
    let k := k.settle (decide (b.resetKind = .warm))
    let b := (b.put pSec 0x104 k.tenant).setFld pSec 0x100 0 2 k.tstate
    let b := { b with
      kept := none
      sec := { b.sec with tenantKey := k.tenantKey }
      indexes := k.indexes, shardMap := k.shardMap, tables := k.tables, seqs := k.seqs, regions := k.regions, layers := k.layers
      plc := { b.plc with blockMap := k.blockMap }
      dramParts := k.dram, dramTiles := k.codeTiles }
    b.freeUnfinished

/-- The tiles of every restored version staged into DRAM after READY (R498). -/
def Block.restage (b : Block) : Block :=
  b.byPrio.foldl (fun b e => e.2.versions.foldl (fun b v =>
    (b.stageParts v true (Config.codePlace v.root.index v.root.version)).stageCopies v true) b) b

/-- Stage RESTORE ends: a scrub in progress is finished first (R473), LAST_RESET is written (R43), and READY is 1. -/
def Block.endRestore (b : Block) : Block :=
  let b := b.restore
  let b : Block := if b.tstate = 2 then scrubDone { b.releaseTenant with sec := { b.releaseTenant.sec with scrubbing := true } } else b
  let b : Block := { b.put pGlb 0x144 (2 ^ b.resetKind.code) with stage := .done }
  let b := if b.resetKind = .warm then b else b.restage
  b.notePhase

/-- START_UP_STAGE_END. -/
def stageEnd (found : StageFindings) (b : Block) : Block :=
  if b.stuck then b
  else match b.stage with
  | .rails => { b with stage := .boot, meter := 0 }
  | .boot => b.endBoot found
  | .dieLinks => b.endLinks found
  | .memory => b.endMemory found
  | .blocks => b.endBlocks found
  | .media => b.endMedia found
  | .restore => b.endRestore
  | .done => b

/-- START_UP_STAGE_END. -/
def execStartUpStageEnd (found : StageFindings) (s : State) : Result := .next (s.on (stageEnd found))

/-! ## Package power (R504, R518) -/

/-- POWER_UP: busbar power returns to a sled whose package is off; TRIP_LAST then counts from this power-on (R84). -/
def powerUp (b : Block) : Block :=
  if b.sled.power ≠ .off then b
  else (b.setSled { b.sled with tripLast := 0, mateOpen := false }).reset .power

/-- POWER_UP. -/
def execPowerUp (s : State) : Result := .next (s.onSled powerUp)

/-- Package power removed by the standby controller with a TRIP_LAST cause. -/
def Block.trip (b : Block) (cause : Nat) : Block :=
  if b.sled.power = .on then b.setSled { b.sled with power := .tripped cause, tripLast := cause, poweringOff := false } else b

/-- BUSBAR_UNDERVOLTAGE: cause 3. -/
def execBusbarUndervoltage (s : State) : Result := .next (s.onSled (fun b => b.trip 3))

/-- POWER_STAGE_OVERCURRENT: cause 4. -/
def execPowerStageOvercurrent (s : State) : Result := .next (s.onSled (fun b => b.trip 4))

/-- POWER_RESTART: the wait of a thermal trip or of an undervoltage is over; after an overcurrent only an SMBus request
starts a power-up. -/
def powerRestart (b : Block) : Block :=
  match b.sled.power with
  | .tripped c => if c = 4 then b else b.reset .power
  | _ => b

/-- POWER_RESTART. -/
def execPowerRestart (s : State) : Result := .next (s.onSled powerRestart)

/-- MATE_OPEN: the power stage turns off, and nothing is written back (R518). -/
def execMateOpen (s : State) : Result :=
  .next (s.onSled (fun b => { b with sled := { b.sled with power := .off, mateOpen := true, poweringOff := false } }))

end Sys2Proof.Machine
end

