-- ==== Sys2Proof/Machine/Pace.lean ====
section
/-! DEFINITION. The pace governor (R70 to R81). Its rows: SAG_FIRE, SAG_DEASSERT, SAG_HOLD_EXPIRY, THERMAL_LEVEL_CHANGE,
CAP_EVALUATION, SENSOR_FAIL, REFERENCE_LOST. -/

namespace Sys2Proof.Machine

/-! ## Sags (R76, R77) -/

/-- LEVEL_CTRL.SAG_LEVEL, 0 being treated as 1 (R84). -/
def Block.sagLevel (b : Block) : Nat := max 1 (b.fld pPwr 0x108 4 3)

/-- SAG_CFG.SAG_HOLD in meter units. -/
def Block.sagHold (b : Block) : Nat := b.fld pPwr 0x10C 8 16 * 100

/-- The supply at a site lies `below` mV under its domain's setpoint: at SAG_CFG.SAG_THRESH or more under it its sensor is
asserted (R76). -/
def Block.sags (b : Block) (below : Nat) : Bool := decide (b.fld pPwr 0x10C 0 8 ≤ below)

/-- SAG_FIRE: a sensor that becomes asserted brakes its domain, and the sag level is set when it was lower. -/
def sagFire (d k below : Nat) (b : Block) : Block :=
  let x := b.domain d
  if k ∈ x.asserted ∨ !b.sags below then b
  else
    let set := decide (x.sag < b.sagLevel)
    let b' := (b.setDomain d { x with asserted := k :: x.asserted, holdStart := none, sag := max x.sag b.sagLevel }).bump pPwr 5
    Block.levelEvents b (if set then (b'.bump pPwr 0).raiseInt pPwr 16 else b')

/-- SAG_FIRE. -/
def execSagFire (domain : Fin 12) (sensor : SagReading) (s : State) : Result :=
  .next (s.on (sagFire domain.val sensor.sensor.val sensor.below.toNat))

/-- SAG_DEASSERT: the supply has risen above the level; with the last sensor of the domain, the hold starts. -/
def sagDeassert (d k below : Nat) (b : Block) : Block :=
  let x := b.domain d
  if k ∉ x.asserted ∨ b.sags below then b
  else
    let rest := x.asserted.erase k
    b.setDomain d { x with asserted := rest, holdStart := if rest = [] ∧ 0 < x.sag then some b.meter else none }

/-- SAG_DEASSERT. -/
def execSagDeassert (domain : Fin 12) (sensor : SagReading) (s : State) : Result :=
  .next (s.on (sagDeassert domain.val sensor.sensor.val sensor.below.toNat))

/-- SAG_HOLD_EXPIRY: the sag level falls by 1, and the next hold starts while it is above 0. -/
def sagHoldExpiry (d : Nat) (b : Block) : Block :=
  let x := b.domain d
  match x.holdStart with
  | some t =>
    if t + b.sagHold ≤ b.meter ∧ 0 < x.sag then
      let next : Option Nat := if x.sag = 1 then none else some (t + b.sagHold)
      Block.levelEvents b (b.setDomain d { x with sag := x.sag - 1, holdStart := next })
    else b
  | none => b

/-- SAG_HOLD_EXPIRY. -/
def execSagHoldExpiry (domain : Fin 12) (s : State) : Result := .next (s.on (sagHoldExpiry domain.val))

/-! ## Temperature (R78) -/

/-- The steps k of 1 to 7 whose temperature THERM_START + 2(k − 1) °C, less some half degrees, has been reached. -/
def thermSteps (start temp less : Nat) : Nat :=
  ((List.range 7).filter (fun k => decide (2 * start + 4 * k ≤ temp + less))).length

/-- The thermal level at a temperature in half degrees: with 1 °C of hysteresis, a step is kept down to 1 °C below the temperature at
which it is entered, that temperature among them, and left at the next half degree below it, 1.5 °C below (DESIGN CHOICE, log 98). -/
def thermLevel (start old temp : Nat) : Nat := max (thermSteps start temp 0) (min old (thermSteps start temp 2))

/-- A domain's thermal level brought in line with its temperature. -/
def Block.settleTherm (b : Block) (d temp : Nat) : Block :=
  let x := b.domain d
  let n := thermLevel (b.fld pPwr 0x110 0 8) x.therm temp
  let b' := b.setDomain d { x with therm := n }
  let b' := if x.therm < n then b'.bump pPwr 4 else b'
  let b' := if x.therm = 0 ∧ 0 < n then b'.raiseInt pPwr 18 else b'
  Block.levelEvents b b'

/-- THERMAL_LEVEL_CHANGE: a domain's junction temperature is measured; at 118 °C package power is removed. -/
def thermalChange (d temp : Nat) (b : Block) : Block :=
  let b := (b.put pPwr (0x180 + 4 * d) temp).settleTherm d temp
  if 236 ≤ temp then b.trip 1 else b

/-- The thermal levels under a new THERM_START. -/
def Block.settleTherms (b : Block) : Block := (List.range 12).foldl (fun b d => b.settleTherm d (b.get pPwr (0x180 + 4 * d))) b

/-- THERMAL_LEVEL_CHANGE. In bivouac the standby controller still removes power (R78, R488). -/
def ownThermalLevelChange (domain : Fin 12) (temp : BitVec 11) (s : State) : Result :=
  .next (s.onPowered (fun b =>
    if b.bivouac then (if 236 ≤ temp.toNat then b.trip 1 else b) else thermalChange domain.val temp.toNat b))

/-! ## Power caps (R80) -/

/-- Both averages, in 0.25 W, are below the caps less a margin in W. -/
def Block.belowCaps (b : Block) (pkg mod margin : Nat) : Bool :=
  decide (pkg + 4 * margin < 4 * b.fld pPwr 0x114 0 16 ∧ mod + 4 * margin < 4 * b.fld pPwr 0x114 16 16)

/-- Some average is above its cap. -/
def Block.aboveCap (b : Block) (pkg mod : Nat) : Bool :=
  decide (4 * b.fld pPwr 0x114 0 16 < pkg ∨ 4 * b.fld pPwr 0x114 16 16 < mod)

/-- The cap level and the run's starting evaluation after an evaluation (R80). -/
def Block.capNext (b : Block) (pkg mod : Nat) : Nat × Option Nat :=
  let g := b.governor
  if b.aboveCap pkg mod then (min 7 (g.cap + 1), none)
  else if b.belowCaps pkg mod (b.fld pPwr 0x118 16 8) then
    match g.runStart with
    | none => (g.cap, some b.meter)
    | some t => if 0 < g.cap ∧ t + b.fld pPwr 0x118 0 16 * 100 ≤ b.meter then (g.cap - 1, some b.meter) else (g.cap, some t)
  else (g.cap, none)

/-- CAP_EVALUATION: one evaluation each 100 µs, on the averages just taken. -/
def capEvaluation (pkg mod vin : Nat) (b : Block) : Block :=
  let g := b.governor
  if b.meter < g.capLast + 10000 then b
  else
    let r := b.capNext pkg mod
    let b' := ((b.put pPwr 0x1C0 pkg).put pPwr 0x1C4 mod).put pPwr 0x1C8 vin
    let keep := g.samples.filter (fun x => decide (b.meter ≤ x.1 + 1000000000))
    let b' : Block := { b' with governor := { g with cap := r.1, runStart := r.2, capLast := b.meter,
                                                     samples := snoc keep (b.meter, pkg / 4, mod / 4) } }
    let b' := if g.cap < r.1 then b'.bump pPwr 2 else b'
    let b' := if g.cap = 0 ∧ 0 < r.1 then b'.raiseInt pPwr 17 else b'
    Block.levelEvents b b'

/-- CAP_EVALUATION. -/
def execCapEvaluation (pkg mod vin : BitVec 16) (s : State) : Result :=
  .next (s.on (capEvaluation pkg.toNat mod.toNat vin.toNat))

/-! ## Failures (R75, R79) -/

/-- SENSOR_FAIL: the domain stays at level 4 or above until the next cold reset. -/
def sensorFail (d : Nat) (b : Block) : Block :=
  Block.levelEvents b ((b.setDomain d { b.domain d with failed := true }).raiseErr pPwr 17)

/-- SENSOR_FAIL. -/
def execSensorFail (domain : Fin 12) (s : State) : Result := .next (s.on (sensorFail domain.val))

/-- REFERENCE_LOST: the standby controller removes package power and starts a power-up at once. -/
def execReferenceLost (s : State) : Result :=
  .next (s.onSled (fun b => if b.sled.power = .on then (b.trip 2).reset .power else b))

end Sys2Proof.Machine
end

