-- ==== Sys2Proof/Machine/Pages.lean ====
section
/-! DEFINITION. The common states of pages (R31 to R39, R83, R501). Its rows: ENABLE_WRITE, DRAIN_ABORT_WRITE,
INITIALISATION_ENDS, DRAINED, SOFT_RESET_WRITE, SOFT_RESET_END, UNCONTAINED_BLOCK_ERROR, UNCORRECTABLE_ERROR,
ERR_INJECT_WRITE. -/

namespace Sys2Proof.Machine

/-! ## Work in flight (R31) -/

/-- Commands of some opcodes at work here. -/
def Block.atWork (b : Block) (ops : List Nat) : Nat :=
  (b.cmds.filter (fun c => decide (c.phase = .working ∧ c.opcode ∈ ops))).length

/-- STATE.INFLIGHT of a page before it saturates: the work items its chapter names. -/
def Block.inflight (b : Block) (p : PageRef) : Nat :=
  let n := p.inst
  match p.type with
  | .hlk => (b.cmds.filter (fun c => match c.src with | .port _ => true | .session _ _ => false)).length + b.proxies.length
  | .sec => (b.sessions.filter (fun e => decide (e.2.state = .opening))).length + (if b.sec.verifying.isSome then 1 else 0) +
      b.fld pSec 0x154 1 1 + (if b.sec.scrubbing then 1 else 0)
  | .kwf => (b.link n).waiting.length + (b.link n).replay.length + (b.transport.frames.filter (fun w => decide (w.port = n))).length
  | .kwt => b.transport.sent.length + b.transport.reasm.length +
      (b.cmds.filter (fun c => match c.src with | .port _ => false | .session _ _ => true)).length
  | .trf => b.trf.entries.length + b.egress.length
  | .cxp => if n = 0 then b.atWork [0x50, 0x51, 0x52, 0x53] else 0
  | .mem => (b.stack n).waiting.length + (b.stack n).sweeps.length
  | .pim => (b.stack n).sweeps.length
  | .flc => b.queued n
  | .ftl => b.ftl.writes.length + b.ftl.programs.length + (if b.ftl.rebuild.isSome then 1 else 0) + b.discards.length + b.mediaStarted +
      b.atWork [0x54, 0x55]
  | .bay => (bayChannels n).foldl (fun k c => k + b.queued c) 0
  | .scl => (match b.clusterJob n with | some e => if e.2.st = .running ∨ e.2.st = .stopping then e.2.threadsOn n else 0 | none => 0) +
      (b.searchThreads n).length
  | .mxc => (b.mxc n).steps.length
  | .slu => b.slotsUsed n
  | .qpl => b.ctxUsed n
  | .idx => b.indexes.foldl (fun k e => k + (e.2.versions.filter (fun v => v.coming || decide (v.state = .retiring))).length) 0 +
      (b.switching.filter (fun r => r.retire && r.cmd.isNone)).length + b.atWork [0x26] + (b.updates.filter (fun u => decide (u.step = .cairn))).length
  | .tbl => b.gathers.length + b.scatters.length + b.tblSwitches.length + (b.tables.map b.tableWork).sum +
      (b.plc.moves.map (fun m => (m.held.filter (fun e => ofTable e.1)).length)).sum
  | .plc => (b.plc.moves.filter b.party).length
  | .rop => (if b.rope.jstate = 1 ∨ b.rope.jstate = 2 then 1 else 0) + (if b.rope.standin = 1 ∨ b.rope.standin = 2 then 1 else 0)
  | .glb | .pwr | .hlt | .dbg => 0

/-- The operation of a selection unit's slot ends with its command (R221). -/
def Block.endSlot (b : Block) (o : SluOp) (st : Nat) : Block :=
  let b := b.dropOps (fun x => decide (x.id = o.id))
  match o.work with
  | .topkRow c _ => b.finish c st
  | .poolMerge c _ | .final c _ => b.endSearch c st
  | .shardMerge x _ => b.failCtx x st
  | .route j _ _ _ => b.endRun j st

/-- While no SLU page runs, work that waits for a slot ends DISABLED (R205). -/
def Block.starveOps (b : Block) : Block :=
  if b.anySlu then b else (b.ops.filter (fun o => decide (o.unit = none))).foldl (fun b o => b.endSlot o stDisabled) b

/-- Opcodes of the requests that the work items of a page serve, as far as a page's items serve requests (R38). -/
def Block.itemOps (b : Block) (p : PageRef) : List Nat :=
  let n := p.inst
  let at' (ops : List Nat) : List Nat := ((b.cmds.filter (fun c => decide (c.phase = .working ∧ c.opcode ∈ ops))).map (·.opcode))
  let runs (l : List Sweep) : List Nat := l.map (fun w => b.ctxOp w.ctx)
  match p.type with
  | .hlk => (b.cmds.filter (fun c => match c.src with | .port _ => true | .session _ _ => false)).map (·.opcode)
  | .kwt => (b.cmds.filter (fun c => match c.src with | .port _ => false | .session _ _ => true)).map (·.opcode)
  | .trf => b.trf.entries.filterMap (fun e => match e.kind with | .command id => some (b.opOf id) | _ => none)
  | .cxp => if n = 0 then at' [0x50, 0x51, 0x52, 0x53] else []
  | .mem => (b.stack n).waiting.filterMap (fun r => r.cmd.map b.opOf) ++ runs (b.stack n).sweeps
  | .pim => runs (b.stack n).sweeps
  | .flc => (b.engine n).items.map (fun i => b.workOp i.work)
  | .ftl => (b.pushes.map (·.cmd) ++ b.publishes.map (·.cmd) ++ b.discards.map (·.cmd)).map b.opOf ++ at' [0x54, 0x55]
  | .bay => (bayChannels n).flatMap (fun c => (b.engine c).items.map (fun i => b.workOp i.work))
  | .scl => ((b.clusterJob n).map (fun e => b.runOp e.1)).toList ++ (b.searchThreads n).map (fun y => b.runOp y.job)
  | .mxc => ((b.mxcJob n).map (fun e => b.runOp e.1)).toList ++ (b.mxc n).steps.map (fun s => b.runOp s.job)
  | .slu => (b.ops.filter (fun o => decide (o.unit = some n))).map (fun o => match o.work with
      | .topkRow c _ | .poolMerge c _ | .final c _ => b.opOf c
      | .shardMerge x _ => b.ctxOp x
      | .route j _ _ _ => b.runOp j)
  | .qpl => (b.qpl.ctxs.filter (fun x => decide (x.die = n))).map (fun x => b.ctxOp x.id)
  | .idx => b.indexes.flatMap (fun e => e.2.versions.filterMap (fun v => if v.busy then v.cmd.map b.opOf else none)) ++
      b.updates.map (fun u => b.opOf u.cmd)
  | .tbl => (b.gathers.map (·.cmd) ++ b.scatters.map (·.cmd) ++ b.tblSwitches.filterMap (·.cmd)).map b.opOf
  | .glb | .sec | .pwr | .kwf | .plc | .rop | .hlt | .dbg => []

/-- The FTL drops what it writes, and media work that it has begun waits again; a rebuild ends. -/
def Block.dropMedia (b : Block) : Block :=
  let b : Block := { b with ftl := { b.ftl with writes := [], programs := [], rebuild := none }
                            engines := smap {} (fun e => e.putBack (fun i => decide (i.work.cls = 4))) b.engines }
  (List.range 64).foldl Block.pullSlow b

/-- Every work item of a page ends with a status at its next handshake boundary (R32). DRAIN_ABORT ends no update that holds a
cairn (R234). -/
def Block.endItems (b : Block) (p : PageRef) (st : Nat) : Block :=
  let n := p.inst
  let held (id : Nat) : Bool := decide (st = stAborted) && b.updates.any (fun u => decide (u.cmd = id) && b.holdsCairn u)
  let idsWhere (f : Cmd → Bool) : List Nat := ((b.cmds.filter f).map (·.id)).filter (fun id => !held id)
  match p.type with
  | .hlk =>
    let b := b.abandonAll (idsWhere (fun c => match c.src with | .port _ => true | .session _ _ => false)) st
    b.proxies.foldl (fun b e => b.endProxy e.1 st) b
  | .sec =>
    let b := (b.sessions.filter (fun e => decide (e.2.state = .opening))).foldl (fun b e => b.freeSession e.1) b
    let b := if b.sec.verifying.isSome then (b.setFld pSec 0x14C 8 4 0).raiseInt pSec 17 else b
    let b := if b.fld pSec 0x154 1 1 = 1 then ((b.setFld pSec 0x154 8 8 st).setFld pSec 0x154 1 1 0).raiseInt pSec 18 else b
    { b with sec := { b.sec with verifying := none, scrubbing := false } }
  | .kwf => b.reportPort n
  | .kwt =>
    let b := b.abandonAll (idsWhere (fun c => match c.src with | .port _ => false | .session _ _ => true)) st
    { b with transport := { b.transport with sent := [], reasm := [], frames := [] } }
  | .trf =>
    let b := b.abandonAll (b.trf.entries.filterMap (fun e => match e.kind with | .command id => some id | _ => none)) st
    let outside := b.trf.outside
    let b := ((if st = stAborted then b.countEnded b.trf.entries else b).removeEntries (fun _ => true))
    let b := { b with trf := { b.trf with outside := outside.filter (fun e => match e.kind with | .command _ => false | _ => true) } }
    if st = stAborted then b else { b with egress := [] }
  | .cxp => if n = 0 then b.abandonAll (idsWhere (fun c => decide (c.phase = .working ∧ c.opcode ∈ [0x50, 0x51, 0x52, 0x53]))) st else b
  | .mem | .pim =>
    let b := ((b.stack n).sweeps.filter (fun w => decide (w.state ≠ .returning))).foldl (fun b w => match b.ctx w.ctx with | some x => b.endCtx x st | none => b.endSweep n w.id) b
    if p.type = .pim then b
    else
      let waiting := (b.stack n).waiting
      waiting.foldl (fun b r => match r.cmd with | some id => b.abandon id st | none => b) (b.setStack n { b.stack n with waiting := [] })
  | .flc => b.failEngine n st
  | .ftl =>
    let ids := b.pushes.map (·.cmd) ++ b.publishes.map (·.cmd) ++ b.discards.map (·.cmd) ++
      idsWhere (fun c => decide (c.phase = .working ∧ (c.opcode = 0x54 ∨ c.opcode = 0x55)))
    let b := b.abandonAll ids st
    let writes := b.ftl.programs.map (·.write) ++ b.ftl.writes
    writes.foldl (fun b w => b.failWrite w.what) b.dropMedia
  | .bay => (bayChannels n).foldl (fun b c => b.failEngine c st) b
  | .scl => match b.clusterJob n with
    | some e => if st = stAborted then b.beginStop e.1 none false else b.endRun e.1 st
    | none => (b.searchThreads n).foldl (fun b y => b.endRun y.job st) b
  | .mxc => match b.mxcJob n with
    | some e => b.endRun e.1 st
    | none => (b.mxc n).steps.foldl (fun b s => b.endRun s.job st) b
  | .slu => (b.ops.filter (fun o => decide (o.unit = some n))).foldl (fun b o => b.endSlot o st) b
  | .qpl => (b.qpl.ctxs.filter (fun x => decide (x.die = n))).foldl (fun b x => match x.work with
      | .admitted c _ => b.endSearch c st
      | .shard _ => b.failCtx x.id st) b
  | .idx =>
    let b := (b.updates.filter (fun u => !b.holdsCairn u)).foldl (fun b u => b.finish u.cmd st) b
    let b := (b.switching.filter (·.retire)).foldl (fun b r =>
      (({ b with switching := b.switching.filter (fun x => !decide (x = r)) }).answerSwitch r st 0).beginSwitch r.index) b
    let b := b.abandonAll (idsWhere (fun c => decide (c.phase = .working ∧ c.opcode = 0x26))) st
    b.indexes.foldl (fun b e => (e.2.versions.filter Version.coming).foldl (fun b v => b.failMount e.1 v st) b) b
  | .tbl => (b.abandonAll (b.gathers.map (·.cmd) ++ b.scatters.map (·.cmd) ++ b.tblSwitches.filterMap (·.cmd)) st).refuseTables st
  | .plc => (b.plc.moves.filter b.party).foldl (fun b m => migrationAbandon m.item (decide (st = stTierFault)) b) b
  | .glb | .pwr | .rop | .hlt | .dbg => b

/-! ## What a page's state means to its block -/

/-- QPL pages: ORIGIN is set when the first enters RUNNING after both were OFF; with both OFF no pitch exists (R134). -/
def Block.startPitches (b : Block) : Block :=
  if b.qpl.running then b
  else
    let b := (b.put (pQpl 0) 0x110 b.meter).put (pQpl 1) 0x110 b.meter
    { b with qpl := { b.qpl with running := true, closed := 0, purging := [] } }

/-- The end of pitches (R136). -/
def Block.stopPitches (b : Block) : Block :=
  if b.pitches then b else { b with qpl := { b.qpl with running := false, closed := 0, purging := [] } }

/-- What follows when a page begins or ceases to take work: waiting operations without a unit end (R205), and items go to other
engines (R184). -/
def Block.atStop (old : Block) (p : PageRef) (b : Block) : Block :=
  if p.type = .slu then b.starveOps else if p.type = .flc then Block.settleEngines old b else b

/-- What follows when a page reaches OFF: a port's link goes down (R446); a joined module without KWT is fenced (R449);
pitches end; a CXL link goes down (R384). -/
def Block.atOff (b : Block) (p : PageRef) : Block :=
  match p.type with
  | .kwf => b.portDown p.inst 3 LinkPort.clear
  | .kwt => b.fenceSelf
  | .qpl => b.stopPitches
  | .cxp =>
    let was := decide (b.fld p 0x100 8 1 = 1)
    let b := b.put p 0x100 0
    if was then b.raiseInt p 16 else b
  | _ => b

/-! ## CTRL (R32 to R35, R83) -/

/-- The pages that run from the end of start-up and take no ENABLE 0 and no SOFT_RESET (R83, R491, R514). -/
def fixedPage (t : PageType) : Bool := decide (t ∈ [.pwr, .sec, .dbg, .rop, .hlt])

/-- CTRL_CONFLICT. -/
def Block.conflict (b : Block) (p : PageRef) : Block := b.raiseErr p 4

/-- A SOFT_RESET that a page's chapter refuses: a cluster or matrix core bound to a job (R274, R307). -/
def Block.resetBound (b : Block) (p : PageRef) : Bool :=
  match p.type with
  | .scl => (b.clusterJob p.inst).isSome
  | .mxc => (b.mxcJob p.inst).isSome
  | _ => false

/-- SOFT_RESET written 1 (R32, R35); of a bay it has effect only in FAILED or REFUSED (R415). -/
def Block.startReset (b : Block) (p : PageRef) : Block :=
  let st := b.pageState p
  let bay := (b.bay p.inst).st
  if p.type = .bay ∧ bay ≠ bsFailed ∧ bay ≠ bsRefused then (if st = 2 ∨ st = 3 then b.conflict p else b)
  else if (st ≠ 0 ∧ st ≠ 4) ∨ b.resetBound p then b.conflict p
  else
    let b := (b.setFld p 8 0 2 0).setState p 0
    let b := if st = 4 ∨ p.type = .qpl then b.atOff p else b
    { b with resetting := p :: b.resetting }

/-- ENABLE written 1 or 0 (R32); of a bay, 0 drains it (R410). -/
def Block.writeEnable (b : Block) (p : PageRef) (on : Bool) : Block :=
  let st := b.pageState p
  if p.type = .bay then (if !on ∧ (b.bay p.inst).st = bsOnline then b.drainBay p.inst else b)
  else if on then (if st = 0 then (b.setFld p 8 0 1 1).setState p 1 else b)
  else if st = 1 then ((b.setFld p 8 0 1 0).setState p 0).atOff p
  else if st = 2 then Block.atStop b p ((b.setFld p 8 0 1 0).setState p 3)
  else b

/-- A page that the module itself drains: ENABLE 0, and its items end ABORTED at once where DRAIN_ABORT is 1 (R34). -/
def Block.drainPage (b : Block) (p : PageRef) : Block :=
  let b := b.writeEnable p false
  if b.aborting p then b.endItems p stAborted else b

/-- A CTRL write. -/
def ctrlWrite (p : PageRef) (v : BitVec 32) (b : Block) : Block :=
  let st := b.pageState p
  if !p.implemented then b.badAccess (p.at 8)
  else if p ∈ b.resetting then b.conflict p
  else if fixedPage p.type ∧ (v.getLsbD 2 ∨ !v.getLsbD 0) then b.conflict p
  else if v.getLsbD 2 then b.startReset p
  else if v.getLsbD 0 ∧ (st = 3 ∨ st = 4) then b.conflict p
  else
    let b := (b.setFld p 8 1 1 (flag (v.getLsbD 1))).writeEnable p (v.getLsbD 0)
    if b.aborting p then b.endItems p stAborted else b

/-- ENABLE_WRITE: a CTRL write. -/
def ownEnableWrite (page : PageRef) (value : BitVec 32) (s : State) : Result := .next (s.onWrite (ctrlWrite page value))

/-- DRAIN_ABORT_WRITE: a CTRL write. -/
def ownDrainAbortWrite (page : PageRef) (value : BitVec 32) (s : State) : Result := .next (s.onWrite (ctrlWrite page value))

/-- SOFT_RESET_WRITE: a CTRL write. -/
def ownSoftResetWrite (page : PageRef) (value : BitVec 32) (s : State) : Result := .next (s.onWrite (ctrlWrite page value))

/-! ## ENABLING, DRAINING and FAULT -/

/-- A page that enters FAULT (R32). -/
def Block.enterFault (b : Block) (p : PageRef) : Block :=
  Block.atStop b p (((b.setFld p 8 0 1 0).setState p 4).raiseInt p 1)

/-- INITIALISATION_ENDS: a page in ENABLING runs. PIM waits for its MEM page; units and scan cores that fail their tests are fenced
(R176, R274; for a unit with LUT_PARITY: DESIGN CHOICE, log 154). A cluster has its code loaded: search firmware, or a bound job's
(R255). A matrix core that fails enters FAULT, and ends the run of a job bound to it (R304, R307). A code store that fails its test
has a parity error: UNCONTAINED_BLOCK_ERROR, while the page is ENABLING (R274). -/
def initialisationEnds (p : PageRef) (failed : List Nat) (b : Block) : Block :=
  if !p.implemented ∨ b.pageState p ≠ 1 ∨ (p.type = .pim ∧ b.pageState (pMem p.inst) ≠ 2) then b
  else if p.type = .mxc ∧ failed ≠ [] then (b.endItems p stTierFault).enterFault p
  else
    let b := Block.atStop b p ((b.setState p 2).raiseInt p 1)
    match p.type with
    | .qpl => b.startPitches
    | .pim => failed.foldl (fun b u => unitFence p.inst u false b) b
    | .scl => failed.foldl (fun b u => b.fenceCore p.inst u false) (b.loadCode p.inst)
    | .mxc => b.landCodebooks p.inst
    | _ => b

/-- INITIALISATION_ENDS. -/
def execInitialisationEnds (page : PageRef) (failed : List Nat) (s : State) : Result :=
  .next (s.on (initialisationEnds page failed))

/-- DRAINED: a DRAINING page whose INFLIGHT is 0 enters OFF; a bay's own drain ends by BAY_DRAIN_END. -/
def drained (p : PageRef) (b : Block) : Block :=
  if !p.implemented ∨ b.pageState p ≠ 3 ∨ b.inflight p ≠ 0 ∨ p.type = .bay then b
  else ((b.setState p 0).raiseInt p 3).atOff p

/-- DRAINED. -/
def execDrained (page : PageRef) (s : State) : Result := .next (s.on (drained page))

/-- UNCONTAINED_BLOCK_ERROR (R32): the page's items end TIER_FAULT, ENABLE is cleared, and the page is in FAULT. PWR does
not enter FAULT (R83); a bay's FAULT is its FAILED state (R410); a port that was UP is down, LAST_DOWN having no cause for it (R446,
R448; DESIGN CHOICE, log 164). Of several requests that it hits, the first gives the error's
opcode (R38; DESIGN CHOICE, log 101). -/
def uncontainedError (p : PageRef) (n : Nat) (b : Block) : Block :=
  let st := b.pageState p
  if !p.implemented ∨ p.type = .pwr ∨ (st ≠ 1 ∧ st ≠ 2 ∧ st ≠ 3) ∨ !p.errBits.getLsbD n then b
  else
    let op := (b.itemOps p).headD 0
    let b := (b.endItems p stTierFault).raiseErr p n op
    if p.type = .bay then b.failBay p.inst
    else
      let b := b.enterFault p
      if p.type = .kwf then
        let was := (b.link p.inst).up
        let b := b.settleUp p.inst
        if was then b.raiseErr p 16 else b
      else b

/-- UNCONTAINED_BLOCK_ERROR. -/
def execUncontainedBlockError (page : PageRef) (bit : Fin 32) (s : State) : Result :=
  .next (s.on (uncontainedError page bit.val))

/-- UNCORRECTABLE_ERROR (R18, R37): the error is recorded with the request's opcode, and the request ends TIER_FAULT. A
local store's parity error fences its core (R274). -/
def uncorrectableError (p : PageRef) (n unit : Nat) (cmd : Option Nat) (b : Block) : Block :=
  if !p.implemented ∨ !p.errBits.getLsbD n then b
  else
    let b := b.raiseErr p n (match cmd with | some id => b.opOf id | none => 0)
    let b := if p.type = .scl ∧ n = 17 then b.fenceCore p.inst unit true else b
    match cmd with
    | some id => b.abandon id stTierFault
    | none => b

/-- UNCORRECTABLE_ERROR. -/
def execUncorrectableError (page : PageRef) (bit : Fin 32) (unit : Nat) (cmd : Option Nat) (s : State) : Result :=
  .next (s.on (uncorrectableError page bit.val unit cmd))

/-! ## Error injection (R39) -/

/-- An ERR_INJECT write: bits that the page uses are armed until an operation of the block raises them; none after the
field-lock fuse. -/
def errInjectWrite (p : PageRef) (v : BitVec 32) (b : Block) : Block :=
  if !p.implemented then b.badAccess (p.at 0x18)
  else if b.fieldLock then b
  else { b with injected := sset 0 b.injected p.base (sget 0 b.injected p.base ||| v &&& p.errBits.setWidth 32) }

/-- ERR_INJECT_WRITE. -/
def execErrInjectWrite (page : PageRef) (value : BitVec 32) (s : State) : Result :=
  .next (s.onWrite (errInjectWrite page value))

/-! ## SOFT_RESET (R501) -/

/-- A register of a page after its SOFT_RESET: RWS and RWL fields, PAGE_ID, PAGE_REV, the counters and the health block
stay; QPL keeps PITCH, HOP_ALLOW and ORIGIN (R154), CXP TERM_MAX and the view (R384), MEM its ROLE, GLB its LOCK and
identity; a stage of start-up loads the identity registers only. -/
def softValue (a : Nat) (v : BitVec 64) : BitVec 64 :=
  match pageOf a with
  | none => resetValue a
  | some p =>
    let off := a % 0x1000
    let keeps : List Nat := match p.type with
      | .qpl => [0x104, 0x108, 0x110]
      | .cxp => [0x108, 0x110, 0x12C]
      | .mem => [0x104]
      | .glb => [0x104, 0x108, 0x110, 0x118]
      | .kwf => [0x108]
      | .hlk => [0x100]
      | .plc => [0x114]
      | _ => []
    if decide (0x40 ≤ off ∧ off < 0x100) || keeps.contains off then v
    else match findReg p off with
      | none => resetValue a
      | some d => d.fields.foldl (fun r f =>
          if f.acc = .rws ∨ f.acc = .rwl then setBits r f.lo f.width (bits v f.lo f.width) else r) (resetValue a)

/-- The hidden state of a page's block cleared; flash, the DRAM tier and index-row marks stay. -/
def Block.clearBlock (b : Block) (p : PageRef) : Block :=
  let n := p.inst
  match p.type with
  | .hlk => { b with ports := [], proxies := [] }
  | .kwf => b.setLink n { signal := (b.link n).signal, pcs := (b.link n).pcs }
  | .kwt => { (b.sessions.foldl (fun b e => b.killSession e.1) b) with transport := {} }
  | .trf => { b with trf := { handed := b.trf.handed ++ b.trf.outside.map (·.kind) } }
  | .pim => b.setStack n { b.stack n with fenced := [] }
  | .flc => b.setEngine n (b.engine n).restart
  | .ftl => b.dropMedia
  | .scl => { b with cores := { b.cores with fenced := sset [] b.cores.fenced n [] } }.loadStore n .empty
  | .mxc => b.setMxc n {}
  | .bay =>
    if (b.bay n).present then b.enterBay n bsPowering (fun x => { x with rail := true })
    else b.enterBay n bsEmpty (fun x => { x.blank with emptyAt := if b.holdsMembers n then some b.meter else none })
  | _ => b

/-- SOFT_RESET_END. -/
def softResetEnd (p : PageRef) (b : Block) : Block :=
  if p ∉ b.resetting then b
  else
    let b := b.clearBlock p
    let f (a : Nat) (v : BitVec 64) : BitVec 64 := if pageOf a = some p then softValue a v else v
    { b with
      resetting := b.resetting.filter (fun q => decide (q ≠ p))
      injected := sset 0 b.injected p.base 0
      regs := mapRegs f b.regs }

/-- SOFT_RESET_END. -/
def execSoftResetEnd (page : PageRef) (s : State) : Result := .next (s.on (softResetEnd page))

end Sys2Proof.Machine
end

