-- ==== Sys2Proof/Machine/Health.lean ====
section
/-! DEFINITION. Health scoring (R511 to R513, R516). Its rows: HEALTH_EVALUATION, CLEAR_FATAL, CLEAR_PAGE. -/

namespace Sys2Proof.Machine

/-! ## Scores (R511) -/

/-- The health block of a page now. -/
def Block.healthNow (b : Block) (p : PageRef) : HealthSample :=
  { page := p.base, corr := b.get p 0x80, retry := b.get p 0x88, retrain := b.get p 0x90 }

/-- A page's counts at the evaluation one WINDOW before; 0 before eight evaluations have been made. -/
def Health.windowAgo (h : Health) (p : PageRef) : HealthSample :=
  let none' : HealthSample := { page := p.base, corr := 0, retry := 0, retrain := 0 }
  match h.samples[7]? with
  | none => none'
  | some l => (l.find? (fun s => decide (s.page = p.base))).getD none'

/-- The increase of a 64-bit count. -/
def rise (now before : Nat) : Nat := (now + 2 ^ 64 - before) % 2 ^ 64

/-- The score of a page whose health block is `now`. -/
def Block.score (b : Block) (p : PageRef) (now : HealthSample) : Nat :=
  let old := b.health.windowAgo p
  let tw := 0x200 + 4 * p.type.code
  min 0xFFFF (rise now.corr old.corr / 2 ^ b.fld pHlt tw 0 5 + b.fld pHlt tw 8 8 * rise now.retry old.retry +
    b.fld pHlt tw 16 8 * rise now.retrain old.retrain)

/-! ## Bands (R512) -/

/-- What forces a page's band holds. -/
def Block.bandCause (b : Block) (p : PageRef) : Bool :=
  match p.type with
  | .mem => decide (b.fld p 0x104 0 3 = 3) || decide (b.pageState p = 4)
  | .ftl => decide (b.fld p 0x10 16 1 = 1) || decide (b.pageState p = 4)
  | _ => decide (b.pageState p = 4)

/-- A page's band after its evaluation. -/
def Block.settleBand (b : Block) (p : PageRef) (score : Nat) : Block :=
  let x := b.bandRec p
  let old := b.bandOf p
  let sus := b.fld pHlt 0x104 0 16
  let fail := b.fld pHlt 0x104 16 16
  let target := if fail ≤ score then 2 else if sus ≤ score then 1 else 0
  if x.forced ∧ b.bandCause p then b
  else
    let x : Band := { x with forced := false }
    if old < target then ((b.setBandRec p { x with below := 0 }).setBand p target).bump pHlt target
    else if old = target then b.setBandRec p { x with below := 0 }
    else if x.below < 7 then b.setBandRec p { x with below := x.below + 1 }
    else ((b.setBandRec p { x with below := 0, taken := x.taken && decide (old ≠ 2) }).setBand p (old - 1)).bump pHlt 6

/-! ## Actions (R513) -/

/-- An action enabled by its bit of ACTION_EN. -/
def Block.actionEn (b : Block) (n : Nat) : Bool := decide (b.fld pHlt 0x108 n 1 = 1)

/-- An action taken. -/
def Block.actionTaken (b : Block) : Block := (b.bump pHlt 4).raiseInt pHlt 17

/-- The bay of a BAY or FLC page drained. -/
def Block.drainAction (b : Block) (n : Nat) : Option Block :=
  if b.actionEn 1 ∧ (b.bay n).st = bsOnline ∧ !b.drainRefused n then some (b.drainBay n) else none

/-- The action that a FAILING page prompts, where it can be taken. -/
def Block.action (b : Block) (p : PageRef) : Option Block :=
  match p.type with
  | .mem => if b.actionEn 0 ∧ p.inst < 8 ∧ b.roles.spare = 1 ∧ p.inst ∉ b.roles.failed then some (stackFailure p.inst b) else none
  | .bay => b.drainAction p.inst
  | .flc => b.drainAction (p.inst / 4)
  | .kwf =>
    if b.actionEn 2 ∧ b.pageState p = 2 ∧ (List.range 8).any (fun n => decide (n ≠ p.inst) && (b.link n).up)
    then some (b.drainPage p) else none
  | .scl | .mxc => if b.actionEn 3 then some b else none
  | .slu => if b.actionEn 3 then some b.starveOps else none
  | _ => none

/-- The action of a FAILING page taken once per rise. -/
def Block.act (b : Block) (p : PageRef) : Block :=
  if b.bandOf p ≠ 2 ∨ (b.bandRec p).taken then b
  else match b.action p with
    | none => b
    | some b => (b.setBandRec p { b.bandRec p with taken := true }).actionTaken

/-- The request to retire: to the lead, or from the lead to the spare. -/
def Block.retire (b : Block) : Block :=
  let spare := b.rope.members.find? (fun m => m.spare && decide (m.place = 63) && !m.lost)
  match spare with
  | none => b
  | some m =>
    if b.fld pHlt 0x10C 0 2 ≠ 2 ∨ !b.actionEn 4 ∨ !b.joined ∨ b.rope.retireAsked ∨ m.id = b.endpoint then b
    else
      let toward := if b.lead then m.id else b.rope.leadId
      let b := b.transmit { toward := .module toward, cls := 7, kind := .retireAsk, args := [b.endpoint] }
      ({ b with rope := { b.rope with retireAsked := true } }.bump pHlt 5).actionTaken

/-! ## Evaluations -/

/-- Readings between two evaluations: WINDOW / 8. -/
def Block.evalPeriod (b : Block) : Nat := b.fld pHlt 0x100 0 16 * 12500000

/-- One page evaluated. -/
def Block.evalPage (b : Block) (p : PageRef) : Block :=
  let s := b.score p (b.healthNow p)
  (b.setFld p 0x98 0 16 s).settleBand p s

/-- HEALTH_EVALUATION: every page is scored and banded, and the bands prompt their actions. -/
def healthEvaluation (b : Block) : Block :=
  if b.pageState pHlt ≠ 2 ∨ b.meter < b.health.lastAt + b.evalPeriod then b
  else
    let now := (allPages.map b.healthNow).filter (fun s => decide (s.corr + s.retry + s.retrain ≠ 0))
    let b := allPages.foldl Block.evalPage b
    let b := ({ b with health := { b.health with lastAt := b.meter, samples := now :: b.health.samples.take 7 } }.bump pHlt 0).settleModule
    (allPages.foldl Block.act b).retire

/-- HEALTH_EVALUATION. -/
def execHealthEvaluation (s : State) : Result := .next (s.on healthEvaluation)

/-! ## CLEAR (R512, R516) -/

/-- The page of a type code and an instance, when the module has it. -/
def pageOfCode (t n : Nat) : Option PageRef :=
  (PageType.all.find? (fun x => decide (x.code = t ∧ n < x.instances))).map (fun x => ⟨x, n⟩)

/-- The forced band of a page ended: it then falls as any other. -/
def Block.endForced (b : Block) (p : PageRef) : Block :=
  if (b.bandRec p).forced then (b.setBandRec p { b.bandRec p with forced := false, below := 0 }).bump pHlt 7 else b

/-- A write of HLT.CLEAR. -/
def hltClearWrite (v : BitVec 32) (b : Block) : Block :=
  let b := if v.getLsbD 0 then b.setSled { b.sled with fatal := 0 } else b
  if v.getLsbD 1 then
    match pageOfCode (nbits v.toNat 16 5) (nbits v.toNat 21 9) with
    | some p => b.endForced p
    | none => b
  else b

/-- CLEAR_FATAL: a CLEAR write. -/
def execClearFatal (value : BitVec 32) (s : State) : Result := .next (s.onWrite (hltClearWrite value))

/-- CLEAR_PAGE: a CLEAR write. -/
def execClearPage (value : BitVec 32) (s : State) : Result := .next (s.onWrite (hltClearWrite value))

end Sys2Proof.Machine
end

