-- ==== Sys2Proof/Machine/View.lean ====
section
/-! DEFINITION. What a register read returns where the register shows other state of the block (R9, R31, and the register
tables of the chapters). -/

namespace Sys2Proof.Machine

/-- A number cut to `n` bits, held at its largest value when it does not fit. -/
def sat (n v : Nat) : Nat := min v (2 ^ n - 1)

/-- A signed count of at most 32 bits, saturating. -/
def satSigned (v : Int) : Nat :=
  let x : Int := max (-2 ^ 31) (min v (2 ^ 31 - 1))
  (x % 2 ^ 32).toNat

/-- Word `i` of a bit map of numbers. -/
def mapWord (l : List Nat) (i : Nat) : Nat := (List.range 32).foldl (fun v k => if 32 * i + k ∈ l then v + 2 ^ k else v) 0

/-- A list's entries counted from zero where a test holds. -/
def countIf {α : Type} (p : α → Bool) (l : List α) : Nat := (l.filter p).length

/-! ## GLB, HLK, SEC and PWR -/

/-- GLB (R42). -/
def viewGlb (b : Block) (off v : Nat) : Nat :=
  match off with
  | 0x11C => flag (decide (b.stage = .done)) + 16 * b.stage.code
  | 0x120 => b.intSummary.toNat
  | _ => v

/-- HLK (R45, R46, R63). GO reads 1 while its access is under way (log 114). -/
def viewHlk (b : Block) (off v : Nat) : Nat :=
  if off = 0x130 then (List.range 64).foldl (fun n p => if (b.port p).violated then n + 2 ^ p else n) 0
  else if 0x180 ≤ off ∧ off < 0x200 ∧ off % 0x20 = 0x14 then
    v / 2 * 2 + flag (sget none b.proxies ((off - 0x180) / 0x20)).isSome
  else if 0x180 ≤ off ∧ off < 0x200 ∧ off % 0x20 = 0x10 then v + flag (sget none b.proxies ((off - 0x180) / 0x20)).isSome
  else if 0x800 ≤ off ∧ off % 0x20 = 4 then
    let p := (off - 0x800) / 0x20
    flag (b.portIdle p) + 2 * flag (b.port p).violated + 2 ^ 16 * b.portInflight p
  else v

/-- SEC (R491): the slot registers show the selected slot, SVN the selected target; STAGE and GO read 1 while what they
started is under way (log 114). -/
def viewSec (b : Block) (off v : Nat) : Nat :=
  let s := b.slot (b.fld pSec 0x10C 0 12)
  match off with
  | 0x100 => v + 4 * flag ((List.range 3).any (fun t => (b.firmware t).pending.isSome)) + 8 * flag b.fieldLock +
      2 ^ 4 * (if b.tstate = 2 then Config.progress b.free % 101 else 0)
  | 0x110 => s.peer
  | 0x114 => s.rights
  | 0x118 => s.st * 2 ^ 8 + s.fails * 2 ^ 10
  | 0x14C => v + flag b.sec.verifying.isSome
  | 0x154 => v + flag (decide (b.fld pSec 0x154 1 1 = 1))
  | 0x150 =>
    let x := b.firmware (b.fld pSec 0x14C 12 2)
    le x.image 8 2 + 2 ^ 16 * x.floor
  | _ => v

/-- PWR (R84). -/
def viewPwr (b : Block) (off v : Nat) : Nat :=
  if off = 0x100 then b.meter
  else if off = 0x11C then (List.range 9).foldl (fun n k => if b.quotaForced k then n + 2 ^ k else n) 0
  else if 0x140 ≤ off ∧ off < 0x170 then
    let d := (off - 0x140) / 4
    let x := b.domain d
    b.effLevel d + 2 ^ 4 * x.sag + 2 ^ 8 * x.therm + 2 ^ 12 * b.governor.cap + 2 ^ 16 * flag (decide (x.asserted ≠ [])) +
      2 ^ 17 * flag x.failed
  else v

/-! ## KWF, KWT and TRF -/

/-- KWF (R447). -/
def viewKwf (b : Block) (n off v : Nat) : Nat :=
  let x := b.link n
  match off with
  | 0x104 => flag x.up + 2 * flag x.pcs + 4 * x.signal + 2 ^ 10 * flag (x.hello && b.linkMode n)
  | 0x128 => sat 14 x.replay.length + 2 ^ 16 * flag x.replayed
  | 0x12C => x.lastDown
  | _ =>
    if 0x118 ≤ off ∧ off < 0x128 then
      let i := 2 * ((off - 0x118) / 4)
      sat 12 (sget 0 x.credits i) + 2 ^ 16 * sat 12 (sget 0 x.credits (i + 1))
    else v

/-- SESS_VIEW's code of a session state (R450). -/
def SessState.code : SessState → Nat | .closed => 0 | .opening => 1 | .opened => 2 | .closing => 3

/-- KWT (R450). -/
def viewKwt (b : Block) (off v : Nat) : Nat :=
  let n := b.fld pKwt 0x128 0 12
  let x := b.session n
  match off with
  | 0x100 => b.endpoint
  | 0x104 =>
    countIf (fun (e : Nat × Session) => decide (e.2.state = .opened)) b.sessions +
      2 ^ 16 * countIf (fun (e : Nat × Session) => decide (e.2.state = .opened) && e.2.rope) b.sessions
  | 0x120 => sget 0 b.transport.macs (b.fld pKwt 0x11C 0 16)
  | 0x12C => x.state.code + 4 * flag x.rope + 2 ^ 16 * x.endpoint
  | 0x130 => x.high
  | 0x134 => sat 9 (b.inFlight n) + 2 ^ 16 * x.credits
  | _ => v

/-- TRF's queue registers, of the queue that Q_SEL names (R464, R468). -/
def viewQueue (b : Block) (off v : Nat) : Nat :=
  let q := b.fld pTrf 0x280 0 7
  let dir := if q < 64 then 0 else 1
  let g := if q < 64 then groupOf q else egressGroup q
  match off with
  | 0x284 => b.depth q
  | 0x288 => sget 0 b.trf.hwm q
  | 0x28C => sget 0 b.trf.delayHwm q
  | 0x290 => if (50 ≤ q ∧ q < 64) ∨ 74 ≤ q then 0 else satSigned (if g < 10 then (b.shaper dir g).count else b.tokens dir (g - 10) / 100000)
  | 0x294 => b.headAge q
  | _ => v

/-- TRF (R468). -/
def viewTrf (b : Block) (off v : Nat) : Nat :=
  let f := b.fld pTrf 0x140 0 13
  let m := b.flow f
  match off with
  | 0x104 => b.trf.entries.length
  | 0x144 => flag m.en + 2 * flag m.unitBytes
  | 0x158 => b.flowKind f
  | 0x15C => m.tc / 100000
  | 0x160 => m.tp / 100000
  | 0x164 => m.green
  | 0x168 => m.yellow
  | 0x16C => m.red
  | 0x170 => m.ydrop
  | _ =>
    if 0x200 ≤ off ∧ off < 0x280 ∧ off % 0x10 = 8 then
      let i := (off - 0x200) / 0x10
      satSigned (b.tokens (i / 4) (i % 4) / 100000)
    else if 0x280 ≤ off then viewQueue b off v
    else v

/-! ## CXP, MEM, PIM, FLC, FTL and BAY -/

/-- VIEW_LEASE of a region (R385). -/
def viewLease : Option Region → Nat
  | none => 0
  | some r => match r.lease with
    | none => 1
    | some l => 1 + 2 + 4 * flag l.holder.isNone + 8 * flag l.lostWc + 2 ^ 4 * l.writer.getD 0 + 2 ^ 9 * flag l.writer.isNone +
        2 ^ 10 * l.holder.getD 0

/-- CXP (R385); the pool's registers show one pool in both pages. -/
def viewCxp (b : Block) (off v : Nat) : Nat :=
  let r := b.region (b.fld (pCxp 0) 0x12C 0 12)
  let lease : Option Lease := match r with | some r => r.lease | none => none
  match off with
  | 0x10C => sat 25 b.poolUsed
  | 0x114 => b.regions.length
  | 0x120 => b.get (pCxp 0) 0x120
  | 0x124 => sat 25 (countIf (fun (t : Tier) => t.mirror.isNone) b.dirtyItems)
  | 0x128 => sat 25 b.dirtyItems.length
  | 0x130 => viewLease r
  | 0x134 => match lease with | some l => l.id | none => 0
  | 0x138 => match r with | some r => r.wc.length | none => 0
  | 0x13C => match lease with | some l => sat 16 ((l.ends - b.meter) / 100000) | none => 0
  | _ => v

/-- MEM (R179): the refresh rate doubles above 85 °C. -/
def viewMem (b : Block) (n off v : Nat) : Nat :=
  match off with
  | 0x108 => sat 24 (b.indexRows n).length
  | 0x10C => flag (decide (170 < b.get pPwr (0x180 + 4 * (3 + n))))
  | _ => v

/-- PIM (R180). -/
def viewPim (b : Block) (n off v : Nat) : Nat :=
  let k := b.stack n
  match off with
  | 0x108 => b.quota n + 2 ^ 16 * flag (b.quotaForced n)
  | 0x10C => k.active
  | 0x114 => sat 20 (countIf (fun (w : Sweep) => decide (w.state = .queued)) k.sweeps)
  | 0x118 => k.fenced.length
  | _ => if 0x120 ≤ off ∧ off < 0x1A0 then mapWord k.fenced ((off - 0x120) / 4) else v

/-- FLC (R202, R203). -/
def viewFlc (b : Block) (c off v : Nat) : Nat :=
  let e := b.engine c
  let x := b.bay (c / 4)
  match off with
  | 0x108 => flag x.present + 2 * flag (x.rail && decide (x.st ≠ bsPowering)) + 4 * flag (b.substituted c) + 8 * flag x.suspend
  | 0x118 => e.credits.1 + 2 ^ 8 * e.credits.2 + 2 ^ 16 * (64 - min 64 (b.slowItems c))
  | 0x11C => b.queued c
  | _ => v

/-- FTL (R414). -/
def viewFtl (b : Block) (off v : Nat) : Nat :=
  match off with
  | 0x108 => match b.stage with | .restore | .done => b.zonesHeld | _ => 0
  | 0x10C => match b.stage with | .restore | .done => b.zonesHeld - b.ftl.zones.length | _ => 0
  | 0x130 => match b.stage with | .restore | .done => b.spareLeft | _ => 0
  | 0x134 => b.degraded
  | 0x138 => b.rebuildReg
  | 0x140 => b.logPages
  | _ => v

/-- BAY (R416). -/
def viewBay (b : Block) (n off v : Nat) : Nat :=
  let x := b.bay n
  match off with
  | 0x100 => x.st + 16 * flag x.present + 32 * flag x.rail + 64 * flag x.attn
  | 0x108 => x.serial
  | 0x110 => x.capacity + 2 ^ 16 * x.targets + 2 ^ 20 * x.luns + 2 ^ 24 * flag x.suspend
  | 0x114 => b.wear n
  | 0x11C => match x.emptyAt with | some t => sat 32 ((b.meter - t) / 100000000) | none => 0
  | _ => v

/-! ## SCL, MXC and SLU -/

/-- Threads of a cluster in slots, and parked: a core runs at most two of its threads in slots (R256, R257). -/
def Block.threadsShown (b : Block) (c : Nat) : Nat × Nat :=
  match b.clusterJob c with
  | none => (0, 0)
  | some (_, x) =>
    if x.st ≠ .running ∧ x.st ≠ .stopping then (0, 0)
    else
      let parked := countIf (fun (y : Thread) => decide (y.ref.cluster.val = c) && y.parked) b.cores.threads
      (x.threadsOn c - parked, parked)

/-- Threads of search contexts on a cluster in slots, and parked. -/
def Block.searchShown (b : Block) (c : Nat) : Nat × Nat :=
  let parked := countIf (fun (y : Thread) => y.parked) (b.searchThreads c)
  ((b.searchThreads c).length - parked, parked)

/-- CNT_VIEW of a counter (R275, R308): VALUE, MISALIGN, WAITING, REALIGN; 0 on a unit that no job has bound. -/
def Block.ctrShown (b : Block) (r : CounterRef) (waiting : Bool) : Nat :=
  match b.ctrInfo r with
  | none => 0
  | some i =>
    let x := b.ctr r i.init
    x.value + 2 ^ 16 * flag x.misalign + 2 ^ 17 * flag waiting + 2 ^ 18 * flag i.realign

/-- The state code of a job (R275). -/
def JobState.code : JobState → Nat | .loading => 1 | .loaded => 2 | .running => 3 | .stopping => 4

/-- A job entry of SCL 0 (R275). -/
def viewJob (b : Block) (j off : Nat) : Nat :=
  match b.job j with
  | none => 0
  | some x =>
    match off with
    | 0x00 => x.st.code + 2 ^ 4 * flag x.service + 2 ^ 5 * flag x.rope + 2 ^ 6 * flag x.determ + 2 ^ 8 * x.lastEnd
    | 0x04 => x.clusters.length + 2 ^ 16 * x.mxcs.length
    | 0x08 => x.runs
    | 0x0C => sat 13 x.queue.length
    | 0x10 => x.check
    | _ => 0

/-- SCL (R275). -/
def viewScl (b : Block) (c off v : Nat) : Nat :=
  let bound : Nat := match b.clusterJob c with | some e => e.1 | none => 0xFFFF
  let core := b.fld (pScl c) 0x120 0 10
  let k := b.fld (pScl c) 0x120 10 6
  let t : ThreadRef := ⟨Fin.ofNat 512 c, Fin.ofNat 576 core, 0⟩
  match off with
  | 0x108 => bound + 2 ^ 16 * flag (b.servesSearch c)
  | 0x10C => (b.threadsShown c).1 + (b.searchShown c).1 + 2 ^ 16 * ((b.threadsShown c).2 + (b.searchShown c).2)
  | 0x114 => (b.fencedCores c).length
  | 0x124 => b.ctrShown (.core t.cluster t.core (Fin.ofNat 48 k)) (decide (b.waiters t k ≠ []))
  | _ =>
    if 0x140 ≤ off ∧ off < 0x188 then mapWord (b.fencedCores c) ((off - 0x140) / 4)
    else if 0x800 ≤ off then viewJob b ((off - 0x800) / 0x20) (off % 0x20)
    else v

/-- MXC (R308). Landings and steps are whole, so no granule is being written and no step is RUNNING between two commands. -/
def viewMxc (b : Block) (m off v : Nat) : Nat :=
  let y := b.mxc m
  let bound : Nat := match b.mxcJob m with | some e => e.1 | none => 0xFFFF
  let k := b.fld (pMxc m) 0x120 0 6
  let r : CounterRef := .matrix (Fin.ofNat 64 m) (Fin.ofNat 64 k)
  let entry : Bool := match b.mxcJob m with
    | some (_, x) => decide (x.st = .running) &&
        ((x.schedOf (x.mxcs.idxOf m))[y.next]?).any (fun e => e.2.waitEn && decide (e.2.waitCtr = k))
    | none => false
  let waits : Bool := entry || (y.steps.head?.map (fun s => readStep s.desc)).any (fun d => d.waitEn && decide (d.waitCtr = k))
  match off with
  | 0x104 => bound + 2 ^ 16 * flag (decide (bound = 0xFFFF ∧ b.pageState (pMxc m) ≠ 4))
  | 0x108 => (b.weights m).tiles.foldl (fun n e => n + tileGran e.2) 0
  | 0x10C => y.steps.length
  | 0x114 => y.next + 2 ^ 16 * y.copies.length
  | 0x124 => b.ctrShown r waits
  | _ => v

/-- SLU (R222). -/
def viewSlu (b : Block) (u off v : Nat) : Nat := if off = 0x104 then b.slotsUsed u else v

/-! ## QPL, IDX, TBL and PLC -/

/-- QPL (R155, R156). -/
def viewQpl (b : Block) (d off v : Nat) : Nat :=
  match off with
  | 0x118 => if b.qpl.running then b.pitchAt b.meter else 0
  | 0x120 => b.ctxUsed d
  | 0x128 => b.waitingCount d
  | _ =>
    if 0x140 ≤ off ∧ off < 0x160 then
      let l := (off - 0x140) / 4
      let mine (x : Ctx) : Bool := decide (x.die = d) && (match x.pitch with | some p => decide (p % 8 = l) | none => false)
      countIf mine b.qpl.ctxs + 2 ^ 24 * flag (decide (l ∈ b.qpl.purging))
    else v

/-- V_STATE of a version (R112). -/
def VState.code : VState → Nat | .mounting => 1 | .mounted => 2 | .current => 3 | .retiring => 4

/-- The lowest of some numbers; 0 for none. -/
def lowestNat : List Nat → Nat
  | [] => 0
  | x :: xs => xs.foldl min x

/-- An index block (R121). -/
def viewIndex (b : Block) (i off : Nat) : Nat :=
  let x := b.index i
  let n := x.versions.length
  let keeper := decide (x.keeper = b.place) && decide (x.high ≠ 0)
  match off with
  | 0x00 => flag (decide (n ≠ 0)) + 2 * flag keeper + 4 * flag x.exhausted + 2 ^ 4 * n
  | 0x04 => match x.current with | some v => v.root.version | none => 0
  | 0x08 => x.localVc
  | 0x10 => if x.keeper = b.place then x.assigned else 0
  | 0x18 => x.keeper
  | 0x1C => x.side.length
  | 0x20 => x.tombs.length
  | 0x24 => x.high
  | 0x28 => lowestNat (x.versions.map (fun v => v.root.floor))
  | 0x30 => x.voided
  | _ => 0

/-- A version slot (R121); slots are filled in the order in which the versions were mounted. -/
def viewSlot (b : Block) (i s off : Nat) : Nat :=
  match (b.index i).versions[s]? with
  | none => 0
  | some v =>
    match off with
    | 0x0 => v.root.version
    | 0x4 => v.state.code + 2 ^ 16 * sat 16 (b.boundCount i v.root.version)
    | 0x8 => v.root.floor
    | _ => 0

/-- IDX (R121). -/
def viewIdx (b : Block) (off v : Nat) : Nat :=
  match off with
  | 0x108 => b.partsUsed
  | 0x110 => b.vecsUsed
  | 0x118 => b.hotVecs
  | _ =>
    if 0x400 ≤ off ∧ off < 0x800 then viewIndex b ((off - 0x400) / 0x40) (off % 0x40)
    else if 0x800 ≤ off ∧ off < 0xC00 then viewSlot b ((off - 0x800) / 0x40) (off % 0x40 / 0x10) (off % 0x10)
    else v

/-- Rows of a table held at this place, as owner or replica; those that versions share count once. -/
def Block.rowsHere (b : Block) (t : Table) : Nat :=
  t.rowsHeld ((List.range ((t.rows + 255) / 256)).filter (fun k => b.holdsRow t.number (256 * k)))

/-- The selected table's registers (R355). -/
def viewTable (b : Block) (off : Nat) : Nat :=
  match b.tableOf (b.fld pTbl 0x120 0 10) with
  | none => 0
  | some t =>
    match off with
    | 0x124 => 1 + 2 * flag (decide (t.keeper = b.place)) + 4 * flag t.dropping + 8 * flag t.sealing + 2 ^ 4 * t.efmt +
        2 ^ 7 * t.retain + 2 ^ 10 * t.prio + 2 ^ 12 * t.keeper
    | 0x128 => t.current
    | 0x12C => t.openV
    | 0x130 => t.oldest
    | 0x134 => t.rows
    | 0x138 => t.rowBytes
    | 0x13C => t.pending.length
    | _ => 0

/-- TBL (R355). -/
def viewTbl (b : Block) (off v : Nat) : Nat :=
  match off with
  | 0x108 => b.tables.length
  | 0x110 => b.tables.foldl (fun n t => n + b.rowsHere t * t.rowBytes) 0
  | 0x118 => b.tables.foldl (fun n t => n + t.pending.length) 0
  | _ => if 0x124 ≤ off ∧ off < 0x140 then viewTable b off else v

/-- PLC (R357). -/
def viewPlc (b : Block) (off v : Nat) : Nat :=
  match off with
  | 0x100 => b.plc.phase
  | 0x118 => sat 8 (b.plc.moves.filter b.party).length + 2 ^ 16 * b.plc.replicas.length
  | _ => v

/-! ## ROP, HLT and DBG -/

/-- A member as its register shows it (R515). -/
def RopeMember.word (m : RopeMember) : Nat :=
  m.id + 2 ^ 12 * m.place + 2 ^ 18 * flag m.spare + 2 ^ 19 + 2 ^ 20 * flag m.joined + 2 ^ 21 * flag m.lost

/-- MEMBERe: the entry the driver wrote, with its place in force, JOINED and LOST; at a module that is not the lead, the
member table in force. -/
def viewMember (b : Block) (e v : Nat) : Nat :=
  match b.tableEntry e with
  | some x =>
    match b.rope.members.find? (fun m => decide (m.id = x.id)) with
    | some m => m.word
    | none => if b.rope.members = [] then v else v + 2 ^ 21
  | none => if b.tableEntries ≠ [] then v else match b.rope.members[e]? with | some m => m.word | none => v

/-- ROP (R515). Restores and rebuilds keep no progress between their events; JOIN reads 1 while the join is under way
(log 114). -/
def viewRop (b : Block) (off v : Nat) : Nat :=
  if off = 0x100 then b.rope.jstate + 2 ^ 3 * b.rope.standin + 2 ^ 5 * b.rope.claimed +
    2 ^ 11 * (if 2 ≤ b.rope.standin then Config.progress b.free % 101 else 0)
  else if off = 0x108 then v + flag (decide (b.rope.jstate = 1 ∨ b.rope.jstate = 2))
  else if off = 0x118 then b.heardMap
  else if 0x800 ≤ off ∧ off < 0xA00 then viewMember b ((off - 0x800) / 8) v
  else v

/-- HLT (R516). -/
def viewHlt (b : Block) (off v : Nat) : Nat :=
  let pages (n : Nat) : Nat := countIf (fun (e : Nat × BitVec 64) => decide (e.1 % 0x1000 = 0x98 ∧ bits e.2 16 2 = n)) b.regs
  match off with
  | 0x10C => v + 4 * flag b.rope.retireAsked
  | 0x110 => pages 1 + 2 ^ 16 * pages 2
  | 0x118 => b.sled.fatal.toNat
  | _ => v

/-- DBG (R490, R492). -/
def viewDbg (b : Block) (off v : Nat) : Nat :=
  match off with
  | 0x100 => v + flag b.fieldLock + 2 ^ 4 * flag (b.sled.svcPresent && !b.fieldLock && !b.tap.reset)
  | 0x114 => flag b.fieldLock
  | _ =>
    if 0x140 ≤ off ∧ off < 0x180 then (if b.fieldLock then 0 else le b.sec.challenge (off - 0x140) 4)
    else v

/-! ## Every register -/

/-- The registers of the common part that show other state (R31). -/
def viewCommon (b : Block) (p : PageRef) (off v : Nat) : Nat :=
  match off with
  | 0x04 => v + b.sled.impl % 2 ^ 16
  | 0x08 => v + 4 * flag (decide (p ∈ b.resetting))
  | 0x0C => v + 2 ^ 16 * sat 16 (b.inflight p)
  | 0x20 => (b.intStatus p).toNat
  | _ => v

/-- What a read of a page's register returns, before WO fields are hidden. -/
def Block.view (b : Block) (p : PageRef) (off : Nat) : Nat :=
  let v := b.get p off
  if off < 0x100 then viewCommon b p off v
  else match p.type with
    | .glb => viewGlb b off v
    | .hlk => viewHlk b off v
    | .sec => viewSec b off v
    | .pwr => viewPwr b off v
    | .kwf => viewKwf b p.inst off v
    | .kwt => viewKwt b off v
    | .trf => viewTrf b off v
    | .cxp => viewCxp b off v
    | .mem => viewMem b p.inst off v
    | .pim => viewPim b p.inst off v
    | .flc => viewFlc b p.inst off v
    | .ftl => viewFtl b off v
    | .bay => viewBay b p.inst off v
    | .scl => viewScl b p.inst off v
    | .mxc => viewMxc b p.inst off v
    | .slu => viewSlu b p.inst off v
    | .qpl => viewQpl b p.inst off v
    | .idx => viewIdx b off v
    | .tbl => viewTbl b off v
    | .plc => viewPlc b off v
    | .rop => viewRop b off v
    | .hlt => viewHlt b off v
    | .dbg => viewDbg b off v

end Sys2Proof.Machine
end

