-- ==== Sys2Proof/Machine/Access.lean ====
section
/-! DEFINITION. Register accesses (R9, R26 to R30, R40, R44) and proxied pages (R63 to R65, R436). Their rows:
REGISTER_WRITE, INVALID_ACCESS, UNREACHABLE_ACCESS, LOWER_HALF_READ, UPPER_HALF_READ, INT_SUMMARY_READ, INT_CTRL_EN_WRITE,
PXY_GO, PROXY_TIMEOUT, PROXY_ACCESS, PROXY_REPLY. -/

namespace Sys2Proof.Machine

/-! ## Where an access lands (R26, R27) -/

/-- The register that an access names: its page, its row, its offset in the page, and whether a 32-bit access names the
upper half of a 64-bit register. -/
structure Target where
  page  : PageRef
  desc  : RegDesc
  off   : Nat
  upper : Bool
deriving DecidableEq, Repr

/-- The register at a window offset for a 32-bit or 64-bit access; none for an invalid access (R27). -/
def locate (a : Nat) (wide : Bool) : Option Target :=
  match pageOf a with
  | none => none
  | some p =>
    let off := a % 0x1000
    match findReg p off with
    | some d => if wide ∧ (d.bits ≠ 64 ∨ off % 8 ≠ 0) then none else some ⟨p, d, off, false⟩
    | none =>
      if wide ∨ off % 8 ≠ 4 then none
      else match findReg p (off - 4) with
        | some d => if d.bits = 64 then some ⟨p, d, off - 4, true⟩ else none
        | none => none

/-! ## Reads (R28, R40) -/

/-- A 32-bit read of half of a 64-bit register: the lower half loads the register's latch, the upper half returns and
empties it, or returns the live half. -/
def Block.readHalf (b : Block) (a v : Nat) (upper : Bool) : BitVec 64 × Block :=
  if upper then
    match sget none b.latches a with
    | some x => (x.setWidth 64, { b with latches := sset none b.latches a none })
    | none => (BitVec.ofNat 64 (v / 2 ^ 32), b)
  else (BitVec.ofNat 64 (v % 2 ^ 32), { b with latches := sset none b.latches a (some (BitVec.ofNat 32 (v / 2 ^ 32))) })

/-- A read of INT_SUMMARY: all-zero sets ARMED. -/
def Block.readSummary (b : Block) (v : Nat) : Block := if v = 0 then (b.setFld pGlb 0x124 1 1 1).notify else b

/-- A register read: the value it returns, and the block. -/
def regRead (a : Nat) (wide : Bool) (b : Block) : BitVec 64 × Block :=
  match locate a wide with
  | none => (0, b.badAccess a)
  | some t =>
    let v := (t.desc.hidden (BitVec.ofNat 64 (b.view t.page t.off))).toNat
    if t.desc.bits = 64 ∧ !wide then b.readHalf (t.page.at t.off) v t.upper
    else if t.page = pGlb ∧ t.off = 0x120 then (BitVec.ofNat 64 v, b.readSummary v)
    else (BitVec.ofNat 64 v, b)

/-- The value of a read given to its reader. -/
def Block.deliver64 (r : BitVec 64 × Block) : Block := { r.2 with out := { r.2.out with readData := r.1 } }

/-- A read by the host die. -/
def hostRead (a : Nat) (wide : Bool) (b : Block) : Block := Block.deliver64 (regRead a wide b)

/-- LOWER_HALF_READ: a read at a register's own address, of 32 bits, or of 64 when `wide`, which reads the whole register at
one instant and leaves its latch as it is (R28). -/
def ownLowerHalfRead (off : LowRead) (s : State) : Result := .next (s.onRead (hostRead off.off.toNat off.wide))

/-- UPPER_HALF_READ: a 32-bit read at the register's address plus 4. -/
def ownUpperHalfRead (off : BitVec 26) (s : State) : Result := .next (s.onRead (hostRead off.toNat false))

/-- INT_SUMMARY_READ. -/
def execIntSummaryRead (s : State) : Result := .next (s.onRead (hostRead (pGlb.at 0x120) false))

/-! ## Proxied accesses: the lead (R63 to R65) -/

/-- The body of a PROXY message (R436): TARGET, OFFSET and CTRL in 4 bytes each and DATA in 8, at their distances in 24. -/
def proxyBody (b : Block) (i : Nat) (ctrl : Nat) : Bytes :=
  let r (k : Nat) : Nat := b.get pHlk (pxyOff i + k)
  toLe (r 0) 4 ++ toLe (r 4) 4 ++ toLe ctrl 4 ++ toLe 0 4 ++ toLe (r 8) 8

/-- GO of slot `i`, idle: the conditions of R65 that are known at once, or the PROXY message. PXY_STATUS.STATUS reads 0 from
GO until the access ends (DESIGN CHOICE, log 114). -/
def Block.startProxy (b : Block) (i ctrl : Nat) : Block :=
  let b := b.bump pHlk 4
  let target := b.get pHlk (pxyOff i)
  let id := nbits target 0 12
  let type := nbits target 12 5
  if !b.lead ∨ type = 0x02 ∨ type = 0x16 then b.endProxy i 0x05
  else if !b.rope.members.any (fun m => decide (m.id = id) && !m.lost) then b.endProxy i 0x10
  else
    let b := { b.put pHlk (pxyOff i + 0x14) 0 with proxies := sset none b.proxies i (some ⟨b.meter, id⟩) }
    let m : OutMsg := { toward := .module id, cls := 7, kind := .proxy, args := [i], data := proxyBody b i ctrl,
                        deadline := some (b.meter + 10 * b.get pHlk (pxyOff i + 0x18)) }
    if id = b.endpoint then { b with out := { b.out with self := snoc b.out.self m } } else b.send m

/-- A proxy slot's access is under way: BUSY is 1 (R63). -/
def Block.proxyBusy (b : Block) (i : Nat) : Bool := (sget none b.proxies i).isSome

/-- A PXY_CTRL write: WRITE and WIDE are kept, and GO starts an access. While BUSY is 1 the write has no effect (R2, R63). -/
def pxyCtrlWrite (i : Nat) (v : BitVec 32) (b : Block) : Block :=
  if b.proxyBusy i then b
  else
    let b := b.put pHlk (pxyOff i + 0x10) (nbits v.toNat 1 2 * 2)
    if v.getLsbD 0 then b.startProxy i (v.toNat % 8) else b

/-- PXY_GO. -/
def execPxyGo (slot : Fin 4) (value : BitVec 32) (s : State) : Result := .next (s.onWrite (pxyCtrlWrite slot.val value))

/-- PROXY_TIMEOUT: the budget of a slot's access has run out. -/
def proxyTimeout (i : Nat) (b : Block) : Block :=
  match sget none b.proxies i with
  | none => b
  | some r => if r.start + 10 * b.get pHlk (pxyOff i + 0x18) ≤ b.meter then b.endProxy i 0x02 else b

/-- PROXY_TIMEOUT. -/
def execProxyTimeout (slot : Fin 4) (s : State) : Result := .next (s.on (proxyTimeout slot.val))

/-- PROXY_REPLY: the access of a slot ends with the target's status; a read leaves its data in PXY_DATA. -/
def proxyReply (i st : Nat) (data : BitVec 64) (b : Block) : Block :=
  match sget none b.proxies i with
  | none => b
  | some r =>
    let b := match b.transport.sent.find? (fun m => decide (m.kind = 4 ∧ m.msg.args = [i])) with
      | some m => b.acked m.session m.msgId
      | none => b
    let b := match b.sessionOf r.target with | some n => b.takeRope n 5 | none => b
    let b := if b.fld pHlk (pxyOff i + 0x10) 1 1 = 0 then b.setReg (pHlk.at (pxyOff i + 8)) data else b
    b.endProxy i st

/-- PROXY_REPLY. -/
def execProxyReply (slot : Fin 4) (status : BitVec 8) (data : BitVec 64) (s : State) : Result :=
  .next (s.on (proxyReply slot.val status.toNat data))

/-! ## Writes (R9, R44) -/

/-- The 64 bits that a write gives a register: a 32-bit write of half of a 64-bit register leaves the other half of its
kept fields, and writes 0 to the other half of its W1C, W1S and WO fields. -/
def writeWord (t : Target) (wide : Bool) (v old : BitVec 64) : BitVec 64 :=
  let w := v.toNat % 2 ^ 32
  if t.desc.bits = 32 then BitVec.ofNat 64 w
  else if wide then v
  else
    let placed := BitVec.ofNat 64 (if t.upper then w * 2 ^ 32 else w)
    let merged := setBits old (if t.upper then 32 else 0) 32 w
    t.desc.fields.foldl (fun r f =>
      if f.acc = .w1c ∨ f.acc = .w1s ∨ f.acc = .wo then setBits r f.lo f.width (bits placed f.lo f.width) else r) merged

/-- The generic effect of a write: each field by its access type, with the row's policy for values out of range and the
configuration lock for RWL fields. -/
def Block.writeFields (b : Block) (p : PageRef) (d : RegDesc) (off : Nat) (w : BitVec 64) : Block :=
  let r := applyFields b.locked d.policy d.fields w (b.reg (p.at off))
  let b := b.setReg (p.at off) r.1
  let b := if b.locked ∧ d.hasRwl then b.lockedWrite else b
  match r.2 with
  | some n => b.raiseErr p n
  | none => b

/-- A 32-bit register's written value. -/
abbrev low (w : BitVec 64) : BitVec 32 := w.setWidth 32

/-- An INT_CTRL write: EN written from 0 to 1 sets ARMED, and EN 0 clears it (R40). -/
def intCtrlWrite (v : BitVec 32) (b : Block) : Block :=
  let was := b.fld pGlb 0x124 0 1
  let armed := if !v.getLsbD 0 then 0 else if was = 0 then 2 else b.get pGlb 0x124 / 2 * 2
  (b.put pGlb 0x124 (flag (v.getLsbD 0) + armed)).notify

/-- INT_CTRL_EN_WRITE: an INT_CTRL write. -/
def execIntCtrlEnWrite (value : BitVec 32) (s : State) : Result := .next (s.onWrite (intCtrlWrite value))

/-- Writes of the common part (R31): ERR_MASK and INT_ENABLE ignore the bits that the page reserves (R8). -/
def writeCommon (p : PageRef) (d : RegDesc) (off : Nat) (w : BitVec 64) (b : Block) : Block :=
  match off with
  | 0x08 => ctrlWrite p (low w) b
  | 0x14 => (b.writeFields p d off (w &&& p.errBits)).notify
  | 0x24 => (b.writeFields p d off (w &&& p.intBits)).notify
  | 0x18 => errInjectWrite p (low w) b
  | 0x1C => if w.getLsbD 7 then b.put p 0x1C 0 else b
  | _ => b.writeFields p d off w

/-- GLB. -/
def writeGlb (d : RegDesc) (off : Nat) (w : BitVec 64) (b : Block) : Block :=
  match off with
  | 0x118 => lockWrite (low w) b
  | 0x124 => intCtrlWrite (low w) b
  | 0x140 => resetWrite (low w) b
  | _ => b.writeFields pGlb d off w

/-- HLK: a proxy slot takes no write while it is BUSY (R63), and the addresses of a port are written only while it is IDLE
(R47). -/
def writeHlk (d : RegDesc) (off : Nat) (w : BitVec 64) (b : Block) : Block :=
  if off = 0x128 then (b.writeFields pHlk d off w).notify
  else if 0x180 ≤ off ∧ off < 0x200 then
    let i := (off - 0x180) / 0x20
    if off % 0x20 = 0x10 then pxyCtrlWrite i (low w) b
    else if b.proxyBusy i then b else b.writeFields pHlk d off w
  else if 0x800 ≤ off then
    let p := (off - 0x800) / 0x20
    if off % 0x20 = 0 then portCtrlWrite p (low w) b
    else if b.portIdle p then b.writeFields pHlk d off w else b
  else b.writeFields pHlk d off w

/-- SEC. -/
def writeSec (d : RegDesc) (off : Nat) (w : BitVec 64) (b : Block) : Block :=
  match off with
  | 0x104 => tenantWriteReg (low w) b
  | 0x108 => tenantCtrlWrite (low w) b
  | 0x118 => slotCtrlWrite (low w) b
  | 0x14C => fwCtrlWrite (low w) b
  | 0x154 => attCtrlWrite (low w) b
  | _ => b.writeFields pSec d off w

/-- PWR: LEVEL_CTRL and THERM_CFG act on the levels at once. -/
def writePwr (d : RegDesc) (off : Nat) (w : BitVec 64) (b : Block) : Block :=
  let b' := b.writeFields pPwr d off w
  match off with
  | 0x108 => Block.levelEvents b b'
  | 0x110 => b'.settleTherms
  | _ => b'

/-- KWF: MODE is written only while the page is OFF. -/
def writeKwf (n : Nat) (d : RegDesc) (off : Nat) (w : BitVec 64) (b : Block) : Block :=
  if off = 0x100 ∧ b.pageState (pKwf n) ≠ 0 then b.raiseErr (pKwf n) 20 else b.writeFields (pKwf n) d off w

/-- KWT: NBR_MAC is the selected endpoint's entry; a lead tells its members of a new BEAT_CFG (R437). -/
def writeKwt (d : RegDesc) (off : Nat) (w : BitVec 64) (b : Block) : Block :=
  match off with
  | 0x120 =>
    { b with transport := { b.transport with macs := sset 0 b.transport.macs (b.fld pKwt 0x11C 0 16) (w.toNat % 2 ^ 49) } }
  | 0x13C =>
    let b' := b.writeFields pKwt d off w
    if b'.get pKwt 0x13C ≠ b.get pKwt 0x13C ∧ b'.lead ∧ b'.joined then b'.sendNotice else b'
  | _ => b.writeFields pKwt d off w

/-- TRF: the sample ring is set up while EN is 0; a shaper or bucket is brought up to now before its rate changes, and a bucket keeps its
tokens, up to its BURST, as that changes; the marks are those of the queue selected (R461, R464, R465, R468). -/
def writeTrf (d : RegDesc) (off : Nat) (w : BitVec 64) (b : Block) : Block :=
  let q := b.fld pTrf 0x280 0 7
  match off with
  | 0x10C => (b.writeFields pTrf d off w).noteCongestion
  | 0x110 => sampleCtrlWrite (low w) b
  | 0x114 | 0x118 | 0x120 => if b.fld pTrf 0x110 0 1 = 1 then b.raiseErr pTrf 17 else b.writeFields pTrf d off w
  | 0x144 => flowCtrlWrite (low w) b
  | 0x288 => { b with trf := { b.trf with hwm := sset 0 b.trf.hwm q (w.toNat % 2 ^ 17) } }
  | 0x28C => { b with trf := { b.trf with delayHwm := sset 0 b.trf.delayHwm q (w.toNat % 2 ^ 32) } }
  | _ =>
    let b :=
      if 0x1C0 ≤ off ∧ off < 0x200 then b.syncShaper ((off - 0x1C0) / 0x20) ((off - 0x1C0) % 0x20 / 4)
      else if 0x200 ≤ off ∧ off < 0x280 then b.chargeBucket ((off - 0x200) / 0x40) ((off - 0x200) % 0x40 / 0x10) 0
      else b
    let b' := b.writeFields pTrf d off w
    if 0x200 ≤ off ∧ off < 0x280 ∧ off % 0x10 = 4 then
      let k := (off - 0x200) / 0x10
      let lack : Int := (sget {} b.trf.buckets k).count + 100000 * ((b'.get pTrf off : Int) - (b.get pTrf off : Int))
      { b' with trf := { b'.trf with buckets := sset {} b'.trf.buckets k { sget {} b'.trf.buckets k with count := max 0 lack } } }
    else b'

/-- A write to one of two pages that writes both (R154, R384). -/
def Block.writeBoth (b : Block) (p : PageRef) (d : RegDesc) (off : Nat) (w : BitVec 64) : Block :=
  let b := b.writeFields p d off w
  b.setReg ((⟨p.type, 1 - p.inst⟩ : PageRef).at off) (b.reg (p.at off))

/-- CXP: the pool's registers are those of both pages. -/
def writeCxp (n : Nat) (d : RegDesc) (off : Nat) (w : BitVec 64) (b : Block) : Block :=
  if off = 0x108 ∨ off = 0x110 ∨ off = 0x12C then b.writeBoth (pCxp n) d off w else b.writeFields (pCxp n) d off w

/-- FLC: shares of more than 64 in all are refused (R203). -/
def writeFlc (c : Nat) (d : RegDesc) (off : Nat) (w : BitVec 64) (b : Block) : Block :=
  if off = 0x10C ∧ 64 < (List.range 5).foldl (fun n i => n + shareOf w i) 0 then b.raiseErr (pFlc c) 20
  else b.writeFields (pFlc c) d off w

/-- Bays in FOREIGN take AUTO_FORMAT (R410). -/
def Block.autoFormat (b : Block) : Block :=
  if b.fld pFtl 0x12C 16 1 = 0 then b
  else (List.range 16).foldl (fun b n => if (b.bay n).st = bsForeign then b.setBay n { b.bay n with format := true } else b) b

/-- FTL: the zone log's place is set while FTL is OFF or has none (R413). -/
def writeFtl (d : RegDesc) (off : Nat) (w : BitVec 64) (b : Block) : Block :=
  match off with
  | 0x110 => zlogBaseWrite w b
  | 0x118 => if b.locked then b.lockedWrite else if b.zlogOpen then b.writeFields pFtl d off w else b.raiseErr pFtl 20
  | 0x120 => zlogRdWrite (low w) b
  | 0x124 => (b.writeFields pFtl d off w).queueDue
  | 0x12C => (b.writeFields pFtl d off w).autoFormat
  | _ => b.writeFields pFtl d off w

/-- QPL: PITCH is written only while both pages are OFF; PITCH and HOP_ALLOW write both (R154, R156). -/
def writeQpl (n : Nat) (d : RegDesc) (off : Nat) (w : BitVec 64) (b : Block) : Block :=
  match off with
  | 0x104 => if b.pitches then b.raiseErr (pQpl n) 16 else b.writeBoth (pQpl n) d off w
  | 0x108 => b.writeBoth (pQpl n) d off w
  | _ => b.writeFields (pQpl n) d off w

/-- PLC: POLICY.TEST shows in PHASE; a LOAD_WINDOW write begins a new window (R343). -/
def writePlc (d : RegDesc) (off : Nat) (w : BitVec 64) (b : Block) : Block :=
  match off with
  | 0x104 => (b.writeFields pPlc d off w).notePhase
  | 0x108 =>
    let taken := (applyFields b.locked d.policy d.fields w (b.reg (pPlc.at off))).2.isNone
    let b := b.writeFields pPlc d off w
    if taken ∧ b.plc.windowAt.isSome then b.openWindow else b
  | 0x128 => qKeyWrite w b
  | _ => b.writeFields pPlc d off w

/-- ROP: JOIN_CFG, MEMBERS_N, FORM_WAIT and the table are written only while JSTATE is UNJOINED, FENCED or REFUSED, the table
only by a lead in UNJOINED (R514, R515). -/
def writeRop (d : RegDesc) (off : Nat) (w : BitVec 64) (b : Block) : Block :=
  let j := b.rope.jstate
  let open_ := decide (j = 0 ∨ j = 4 ∨ j = 5)
  if off = 0x108 then joinCtrlWrite (low w) b
  else if off = 0x104 ∨ off = 0x10C ∨ off = 0x110 then (if open_ then b.writeFields pRop d off w else b.raiseErr pRop 17)
  else if 0x800 ≤ off then
    if !open_ then b.raiseErr pRop 17
    else if j = 0 ∧ b.fld pRop 0x104 6 1 = 1 then b.writeFields pRop d off w else b
  else b.writeFields pRop d off w

/-- HLT: FAILING_AT lies above SUSPECT_AT (R516). -/
def writeHlt (d : RegDesc) (off : Nat) (w : BitVec 64) (b : Block) : Block :=
  match off with
  | 0x104 => if bits w 16 16 ≤ bits w 0 16 then b.raiseErr pHlt 16 else b.writeFields pHlt d off w
  | 0x120 => hltClearWrite (low w) b
  | _ => b.writeFields pHlt d off w

/-- DBG. -/
def writeDbg (d : RegDesc) (off : Nat) (w : BitVec 64) (b : Block) : Block :=
  match off with
  | 0x108 => authCtrlWrite (low w) b
  | 0x10C => freezeWriteReg (low w) b
  | 0x110 => fuseCtrlWrite (low w) b
  | _ => b.writeFields pDbg d off w

/-- A write of a register. -/
def writeReg (p : PageRef) (d : RegDesc) (off : Nat) (w : BitVec 64) (b : Block) : Block :=
  if off < 0x100 then writeCommon p d off w b
  else match p.type with
    | .glb => writeGlb d off w b
    | .hlk => writeHlk d off w b
    | .sec => writeSec d off w b
    | .pwr => writePwr d off w b
    | .kwf => writeKwf p.inst d off w b
    | .kwt => writeKwt d off w b
    | .trf => writeTrf d off w b
    | .cxp => writeCxp p.inst d off w b
    | .flc => writeFlc p.inst d off w b
    | .ftl => writeFtl d off w b
    | .bay => if off = 0x118 then bayCmdWrite p.inst (low w) b else b.writeFields p d off w
    | .qpl => writeQpl p.inst d off w b
    | .plc => writePlc d off w b
    | .rop => writeRop d off w b
    | .hlt => writeHlt d off w b
    | .dbg => writeDbg d off w b
    | .mem | .pim | .scl | .mxc | .slu | .idx | .tbl => b.writeFields p d off w

/-- A register write at a window offset. -/
def regWrite (a : Nat) (wide : Bool) (v : BitVec 64) (b : Block) : Block :=
  match locate a wide with
  | none => b.badAccess a
  | some t =>
    let old := if t.page = pKwt ∧ t.off = 0x120 then BitVec.ofNat 64 (b.view pKwt 0x120) else b.reg (t.page.at t.off)
    writeReg t.page t.desc t.off (writeWord t wide v old) b

/-- REGISTER_WRITE: a write by the host die of 32 bits, or of 64 when `wide`. -/
def ownRegisterWrite (off : BitVec 26) (wide : Bool) (value : BitVec 64) (s : State) : Result :=
  .next (s.onWrite (regWrite off.toNat wide value))

/-! ## Accesses with no effect (R27, R30) -/

/-- The access is one that R27 admits. -/
def validAccess (a size : Nat) : Bool :=
  (decide (size = 4) && (locate a false).isSome) || (decide (size = 8) && (locate a true).isSome)

/-- INVALID_ACCESS: an access that R27 does not allow reads 0 and writes nothing. -/
def invalidAccess (a size : Nat) (write : Bool) (b : Block) : Block :=
  if !b.reachable ∨ validAccess a size then b
  else
    let b := b.badAccess a
    if write then b else Block.deliver64 (0, b)

/-- INVALID_ACCESS. -/
def execInvalidAccess (off : BitVec 26) (size : Nat) (write : Bool) (s : State) : Result :=
  .next (s.on (invalidAccess off.toNat size write))

/-- UNREACHABLE_ACCESS: the access ends at the host die's completion timeout; a read returns 0xFFFF_FFFF. -/
def unreachableAccess (write : Bool) (b : Block) : Block :=
  if b.reachable ∨ write then b else Block.deliver64 (0xFFFFFFFF, b)

/-- UNREACHABLE_ACCESS. -/
def execUnreachableAccess (_off : BitVec 26) (write : Bool) (s : State) : Result :=
  .next (s.onSled (unreachableAccess write))

/-! ## Proxied accesses: the target (R63, R65, R436) -/

/-- A proxied access comes from the lead: on its rope session (R436), or, at the lead itself, on none. -/
def Block.fromLead (b : Block) (n : Nat) : Bool :=
  decide (b.sessionOf b.rope.leadId = some n) || (b.lead && decide ((b.session n).state = .closed))

/-- PROXY_ACCESS: this module carries out an access for its lead (R86), as R27 to R29 and R44 have it, and replies OK. SEC and
DBG pages are never proxied. -/
def proxyAccess (m : ProxyMsg) (b : Block) : Block :=
  let n := m.session.toNat
  let b := b.takeRope n 4
  let t := m.target.toNat
  let a := nbits t 12 5 * 0x200000 + nbits t 17 9 * 0x1000 + nbits m.offset.toNat 2 10 * 4
  let wide := m.ctrl.getLsbD 2
  let reply (st : Nat) (data : BitVec 64) (b : Block) : Block :=
    let msg : OutMsg := { toward := .session n, cls := 7, kind := .proxyReply, args := [st], data := toLe st 8 ++ toLe data.toNat 8 }
    if nbits t 0 12 = b.endpoint ∧ b.lead then { b with out := { b.out with self := snoc b.out.self msg } } else b.send msg
  if !b.joined ∨ nbits t 0 12 ≠ b.endpoint ∨ !b.fromLead n then b
  else if nbits t 12 5 = 0x02 ∨ nbits t 12 5 = 0x16 then reply 0x05 0 b
  else if m.ctrl.getLsbD 1 then reply 0 0 (regWrite a wide m.data b)
  else
    let r := regRead a wide b
    reply 0 r.1 r.2

/-- PROXY_ACCESS. -/
def execProxyAccess (msg : ProxyMsg) (s : State) : Result := .next (s.on (proxyAccess msg))

end Sys2Proof.Machine
end

