-- ==== Sys2Proof/Machine/Physical.lean ====
section
/-! DEFINITION. The sled's SMBus target, its buttons, LEDs and sensors (R524 to R530, R533). Its rows: SMBUS_STATUS,
SMBUS_TRIP_LAST, SMBUS_FATAL, POWER_READ, POWER_ON, POWER_OFF, POWER_OFF_LIMIT, SMBUS_COLD_RESET, LOCATE, IDENT,
SET_MODULE_ID, LOCATE_BUTTON, MODULE_SERVICE_BUTTON, FLOW_LOW, LEAK. -/

namespace Sys2Proof.Machine

/-! ## The SMBus target (R524, R525) -/

/-- An SMBus transaction: one whose PEC is wrong is ignored (R524). -/
def State.onBus (s : State) (pecOk : Bool) (f : Block → Block) : State := if pecOk then s.onSled f else s

/-- The bytes an SMBus transaction returns. -/
def Block.answerBus (b : Block) (bs : Bytes) : Block := { b with out := { b.out with smbus := some bs } }

/-- The package is powered. -/
def Block.powered (b : Block) : Bool := decide (b.sled.power = .on)

/-- The STATUS word (R525). Without package power the module's own bits read 0. -/
def Block.statusWord (b : Block) : Nat :=
  let up (n : Nat) : Nat := if b.powered then n else 0
  flag b.powered + up (2 * b.stage.code) + up (2 ^ 5 * flag (decide (b.stage = .done))) + up (2 ^ 6 * flag b.joined) +
    up (2 ^ 7 * b.fld pHlt 0x10C 0 2) + 2 ^ 9 * flag (b.sled.fatal.getLsbD 63) + 2 ^ 10 * flag b.sled.leak +
    2 ^ 11 * flag b.sled.lowFlow + 2 ^ 12 * flag b.sled.locate

/-- STATUS read: SMBALERT_n is released. -/
def smbusStatus (b : Block) : Block := { b.answerBus (toLe b.statusWord 2) with sled := { b.sled with alert := false } }

/-- SMBUS_STATUS. -/
def execSmbusStatus (pecOk : Bool) (s : State) : Result := .next (s.onBus pecOk smbusStatus)

/-- SMBUS_TRIP_LAST. -/
def execSmbusTripLast (pecOk : Bool) (s : State) : Result :=
  .next (s.onBus pecOk (fun b => b.answerBus (toLe b.sled.tripLast 1)))

/-- SMBUS_FATAL. -/
def execSmbusFatal (pecOk : Bool) (s : State) : Result :=
  .next (s.onBus pecOk (fun b => b.answerBus (toLe b.sled.fatal.toNat 8)))

/-- POWER_READ: VIN and module power as last measured; the coolant outlet temperature, and every value without package
power, is the world's and is free. -/
def powerRead (b : Block) : Block :=
  let free := Config.sensors b.free
  let vin := if b.powered then b.get pPwr 0x1C8 else free.1
  let power := if b.powered then b.get pPwr 0x1C4 else free.2.1
  { b.answerBus (toLe vin 2 ++ toLe power 2 ++ toLe free.2.2 2) with free := b.free + 1 }

/-- POWER_READ. -/
def execPowerRead (pecOk : Bool) (s : State) : Result := .next (s.onBus pecOk powerRead)

/-- POWER_ON (R494): no power-up while the package is powered, or while MATE is open (R518). -/
def powerOn (b : Block) : Block :=
  let b := b.answerBus [0]
  if b.powered ∨ b.sled.mateOpen then b else b.reset .power

/-- POWER_ON. -/
def execPowerOn (pecOk : Bool) (s : State) : Result := .next (s.onBus pecOk powerOn)

/-! ## Power-off (R526) -/

/-- The rails go down. -/
def Block.railsDown (b : Block) : Block := { b with sled := { b.sled with power := .off, poweringOff := false } }

/-- The work that a power-off ends as a reset does: every command and run, without a completion record (R502). -/
def Block.endWork (b : Block) : Block :=
  let b := b.voidOwn
  let rest (e : TrfEntry) : Bool := match e.kind with | .command _ => false | _ => true
  { b with
    cmds := [], trf := { b.trf with entries := b.trf.entries.filter rest }
    switching := [], updates := [], qpl := {}, engines := [], ops := [], topks := [], publishes := [], pushes := []
    discards := [], gathers := [], scatters := [], tblSwitches := []
    cores := { fenced := b.cores.fenced }
    stackSet := smap {} (fun x => { x with sweeps := [], waiting := [] }) b.stackSet }

/-- POWER_OFF: refused at a member of a rope without FORCE; READY, the module ends its work and writes dirty items back;
otherwise the rails go down at once. In bivouac nothing can be written back, and the limit ends it (R488). -/
def powerOff (data : BitVec 8) (b : Block) : Block :=
  if b.powered ∧ b.joined ∧ !data.getLsbD 0 then b.answerBus [1]
  else
    let b := b.answerBus [0]
    if !b.powered ∨ b.sled.poweringOff then b
    else if b.stage ≠ .done then b.railsDown
    else { (if b.bivouac then b else b.endWork) with sled := { b.sled with poweringOff := true } }

/-- POWER_OFF. -/
def execPowerOff (pecOk : Bool) (data : BitVec 8) (s : State) : Result := .next (s.onBus pecOk (powerOff data))

/-- The write-back of a power-off has ended: every acknowledged item is durable, and the rails go down. -/
def Block.writeBackEnd (b : Block) : Block :=
  if !b.sled.poweringOff then b
  else
    let k := (b.snapshot true).settle true
    { b with kept := some { k with dram := [], codeTiles := [] }, stage := .rails }.railsDown

/-- POWER_OFF_LIMIT: the write-back has not ended, and what it has not written is lost. -/
def powerOffLimit (b : Block) : Block :=
  if !b.sled.poweringOff then b
  else { b with kept := some (b.snapshot false), stage := .rails }.railsDown

/-- POWER_OFF_LIMIT. -/
def execPowerOffLimit (s : State) : Result := .next (s.onPowered powerOffLimit)

/-! ## Reset, identity, locate -/

/-- A cold reset asked of the standby controller. -/
def Block.coldReset (b : Block) (k : ResetKind) : Block := if b.powered then b.reset k else b

/-- SMBUS_COLD_RESET. -/
def execSmbusColdReset (pecOk : Bool) (s : State) : Result :=
  .next (s.onBus pecOk (fun b => (b.coldReset .cold).answerBus [0]))

/-- LOCATE. -/
def execLocate (pecOk : Bool) (data : BitVec 8) (s : State) : Result :=
  .next (s.onBus pecOk (fun b => { b.answerBus [0] with sled := { b.sled with locate := data.getLsbD 0 } }))

/-- IDENT. -/
def execIdent (pecOk : Bool) (s : State) : Result :=
  .next (s.onBus pecOk (fun b => b.answerBus (toLe b.sled.serial.toNat 8 ++ toLe b.sled.moduleId 2 ++ toLe 0 6)))

/-- SET_MODULE_ID: refused while the package is powered. -/
def setModuleId (v : BitVec 16) (b : Block) : Block :=
  if b.powered then b.answerBus [1]
  else { b.answerBus [0] with sled := { b.sled with moduleId := v.toNat % 4096 } }

/-- SET_MODULE_ID. -/
def execSetModuleId (pecOk : Bool) (data : BitVec 16) (s : State) : Result := .next (s.onBus pecOk (setModuleId data))

/-! ## Buttons and sensors (R528, R533) -/

/-- LOCATE_BUTTON: a press is a button held for at least 50 ms. -/
def execLocateButton (heldMs : Nat) (s : State) : Result :=
  .next (s.onSled (fun b => if 50 ≤ heldMs then { b with sled := { b.sled with locate := !b.sled.locate } } else b))

/-- MODULE_SERVICE_BUTTON, at its release. -/
def serviceButton (heldMs : Nat) (b : Block) : Block :=
  if heldMs < 4000 ∨ !b.powered then b
  else if heldMs < 12000 then b.reset .button
  else if b.sled.poweringOff then powerOffLimit b
  else b.railsDown

/-- MODULE_SERVICE_BUTTON. -/
def execModuleServiceButton (heldMs : Nat) (s : State) : Result := .next (s.onSled (serviceButton heldMs))

/-- FLOW_LOW. -/
def execFlowLow (low : Bool) (s : State) : Result := .next (s.onSled (fun b => b.setSled { b.sled with lowFlow := low }))

/-- LEAK. -/
def execLeak (fluid : Bool) (s : State) : Result := .next (s.onSled (fun b => b.setSled { b.sled with leak := fluid }))

/-! ## LEDs (R529, R530) -/

/-- The colours of a bay LED. -/
inductive LedColour where
  | white | amber | blue | whiteAmber
deriving DecidableEq, Repr

/-- What an LED shows: steady, or on and off in equal halves at a rate in half hertz (1 is 0.5 Hz); two colours
alternate. -/
inductive Led where
  | off
  | steady (c : LedColour)
  | blink (c : LedColour) (halfHz : Nat)
deriving DecidableEq, Repr

/-- The bay LED beneath the flashes of a refused drain (R529). -/
def Block.bayPattern (b : Block) (n : Nat) : Led :=
  let st := (b.bay n).st
  let target := match b.ftl.rebuild with
    | none => false
    | some (k, true) => decide (k = n)
    | some (k, false) => b.ftl.rows.any (fun r => (b.lostMembers r).any (fun m => decide (m.now = k ∧ spareBay k r.row = n)))
  if st = bsFailed then .steady .amber
  else if st = bsRefused then .blink .amber 8
  else if st = bsForeign then .blink .whiteAmber 2
  else if st = bsSafe then .steady .blue
  else if st = bsDraining then .blink .blue 2
  else if st = bsOnline then (if target then .blink .white 8 else .steady .white)
  else if st = bsPowering ∨ st = bsIdentifying then .blink .white 2
  else if b.holdsMembers n then .blink .amber 1
  else .off

/-- The bay LED: a refused drain shows three 4 Hz flashes, 750 ms, first (R529). -/
def Block.bayLed (b : Block) (n : Nat) : Led :=
  match (b.bay n).refused with
  | some t => if b.meter < t + 75000000 then .blink .amber 8 else b.bayPattern n
  | none => b.bayPattern n

/-- The STATUS LED (R530). -/
def Block.statusLed (b : Block) : Led :=
  if !b.powered then .off
  else if b.bivouac then .blink .white 8
  else if b.stage ≠ .done then .blink .white 2
  else if b.joined then .steady .white
  else .blink .white 1

/-- The FAULT LED (R530). -/
def Block.faultLed (b : Block) : Led :=
  let valid := b.sled.fatal.getLsbD 63
  if !b.powered then (if valid then .steady .amber else .off)
  else if b.fld pHlt 0x10C 0 2 = 2 ∨ valid ∨ b.sled.refusedFw.isSome then .steady .amber
  else if b.fld pHlt 0x10C 0 2 = 1 then .blink .amber 2
  else .off

/-- The LOCATE LED (R530). -/
def Block.locateLed (b : Block) : Led := if b.sled.locate then .steady .blue else .off

end Sys2Proof.Machine
end

