-- ==== Sys2Proof/Machine/Inject.lean ====
section
/-! DEFINITION. Injected errors (R39): the operations that can carry an error of their page, and what an armed error makes of
them. Each meaning here is a row's own meaning with its page's armed errors before it; which operation carries which error
is log 101. -/

namespace Sys2Proof.Machine

/-! ## Operations that carry errors -/

/-- An error that an operation can carry, and what becomes of the operation with it. -/
structure Carried where
  page : PageRef
  bit  : Nat
  act  : State → Result

/-- An error of a page is armed. -/
def Block.armed (b : Block) (p : PageRef) (n : Nat) : Bool := (sget 0 b.injected p.base).getLsbD n

/-- The state in which an armed error has been taken. -/
def State.disarm (s : State) (c : Carried) : State := { s with block := (s.block.takeInjected c.page c.bit).2 }

/-- An operation that can carry the errors of a list: the first one armed is raised in its course, once (R39). -/
def State.carrying (s : State) (l : List Carried) (run : State → Result) : Result :=
  match l.find? (fun c => s.block.armed c.page c.bit) with
  | none => run s
  | some c => c.act (s.disarm c)

/-- What the operations of an awake module carry; asleep, there is no operation. -/
def State.when (s : State) (p : Bool) (l : List Carried) : List Carried :=
  if p && !s.block.bivouac && decide (s.block.sled.power = .on) then l else []

/-- A write that is refused: the error is recorded, and nothing is written. -/
def refuse (p : PageRef) (n : Nat) : Carried := ⟨p, n, fun s => .next (s.onWrite (fun b => b.raiseErr p n))⟩

/-- An error that no request contains: the page enters FAULT (R32). -/
def faults (p : PageRef) (n : Nat) : Carried := ⟨p, n, fun s => .next (s.on (uncontainedError p n))⟩

/-- An error of the request that the operation serves, of an opcode, which then ends as `f` has it (R18). -/
def ends (p : PageRef) (op : Nat) (f : Block → Block) (n : Nat) : Carried :=
  ⟨p, n, fun s => .next (s.on (fun b => f (b.raiseErr p n op)))⟩

/-- The errors of a data path: PARITY, E2E and UNCORR (R31). -/
def pathErrs (p : PageRef) (op : Nat) (f : Block → Block) : List Carried := [0, 1, 2].map (ends p op f)

/-- A corrected error: the operation is done, and CORR and HLT_CORR record it (R31, R511). -/
def corrected (p : PageRef) (run : State → Result) : Carried :=
  ⟨p, 3, fun s => match run s with
    | .next t => .next (t.on (fun b => (b.raiseErr p 3).bumpHealth p 0x80))
    | r => r⟩

/-! ## Register accesses -/

/-- The bit that records a refused write of a page type. -/
def refusalBit : PageType → Option Nat
  | .pwr | .qpl | .plc | .hlt => some 16
  | .trf | .rop => some 17
  | .tbl => some 18
  | .mem | .pim | .cxp => some 19
  | .flc | .ftl | .kwf | .kwt | .sec => some 20
  | _ => none

/-- What a write at a window offset carries: a refused write of its page, CTRL_CONFLICT at CTRL, ACCESS at any register and
LOCKED_WRITE at one with a locked field (R27, R32, R44). -/
def writeErrs (s : State) (a : Nat) (wide : Bool) : List Carried :=
  match locate a wide with
  | none => []
  | some t => s.when s.block.reachable (
      ⟨pGlb, 5, fun s => .next (s.onWrite (fun b => b.badAccess a))⟩ ::
      (if t.desc.hasRwl then [refuse pGlb 6] else []) ++
      (if t.off = 8 then [refuse t.page 4]
       else if t.off < 0x100 then []
       else match refusalBit t.page.type with | some n => [refuse t.page n] | none => []))

/-- REGISTER_WRITE. -/
def execRegisterWrite (off : BitVec 26) (wide : Bool) (value : BitVec 64) (s : State) : Result :=
  s.carrying (writeErrs s off.toNat wide) (ownRegisterWrite off wide value)

/-- What a read at a window offset carries: ACCESS. -/
def readErrs (s : State) (a : Nat) (wide : Bool) : List Carried :=
  s.when (s.block.reachable && (locate a wide).isSome)
    [⟨pGlb, 5, fun s => .next (s.onRead (fun b => Block.deliver64 (0, b.badAccess a)))⟩]

/-- LOWER_HALF_READ. -/
def execLowerHalfRead (off : LowRead) (s : State) : Result :=
  s.carrying (readErrs s off.off.toNat off.wide) (ownLowerHalfRead off)

/-- UPPER_HALF_READ. -/
def execUpperHalfRead (off : BitVec 26) (s : State) : Result := s.carrying (readErrs s off.toNat false) (ownUpperHalfRead off)

/-- What a write of a page's CTRL carries: CTRL_CONFLICT (R32). -/
def ctrlErrs (s : State) (p : PageRef) : List Carried := s.when (s.block.reachable && p.implemented) [refuse p 4]

/-- ENABLE_WRITE. -/
def execEnableWrite (page : PageRef) (value : BitVec 32) (s : State) : Result :=
  s.carrying (ctrlErrs s page) (ownEnableWrite page value)

/-- DRAIN_ABORT_WRITE. -/
def execDrainAbortWrite (page : PageRef) (value : BitVec 32) (s : State) : Result :=
  s.carrying (ctrlErrs s page) (ownDrainAbortWrite page value)

/-- SOFT_RESET_WRITE. -/
def execSoftResetWrite (page : PageRef) (value : BitVec 32) (s : State) : Result :=
  s.carrying (ctrlErrs s page) (ownSoftResetWrite page value)

/-- What a write of one register carries: its refusal. -/
def refusalErr (s : State) (p : PageRef) (n : Nat) : List Carried := s.when s.block.reachable [refuse p n]

/-- TENANT_WRITE. -/
def execTenantWrite (value : BitVec 32) (s : State) : Result := s.carrying (refusalErr s pSec 19) (ownTenantWrite value)
/-- TENANT_RELEASE. -/
def execTenantRelease (value : BitVec 32) (s : State) : Result := s.carrying (refusalErr s pSec 19) (ownTenantRelease value)
/-- ARM. -/
def execArm (value : BitVec 32) (s : State) : Result := s.carrying (refusalErr s pSec 18) (ownArm value)
/-- DISARM. -/
def execDisarm (value : BitVec 32) (s : State) : Result := s.carrying (refusalErr s pSec 18) (ownDisarm value)
/-- KILL. -/
def execKill (value : BitVec 32) (s : State) : Result := s.carrying (refusalErr s pSec 18) (ownKill value)
/-- LEAVE. -/
def execLeave (value : BitVec 32) (s : State) : Result := s.carrying (refusalErr s pRop 17) (ownLeave value)
/-- DECLARE. -/
def execDeclare (value : BitVec 32) (s : State) : Result := s.carrying (refusalErr s pRop 17) (ownDeclare value)
/-- LOAD. -/
def execLoad (value : BitVec 32) (s : State) : Result := s.carrying (refusalErr s pTrf 17) (ownLoad value)
/-- SAMPLE_EN_WRITE. -/
def execSampleEnWrite (value : BitVec 32) (s : State) : Result := s.carrying (refusalErr s pTrf 17) (ownSampleEnWrite value)
/-- Q_KEY_WRITE. -/
def execQKeyWrite (value : BitVec 64) (s : State) : Result := s.carrying (refusalErr s pPlc 16) (ownQKeyWrite value)
/-- ZLOG_RD_WRITE. -/
def execZlogRdWrite (value : BitVec 32) (s : State) : Result := s.carrying (refusalErr s pFtl 20) (ownZlogRdWrite value)
/-- ZLOG_BASE_WRITE. -/
def execZlogBaseWrite (value : BitVec 64) (s : State) : Result := s.carrying (refusalErr s pFtl 20) (ownZlogBaseWrite value)
/-- FREEZE_WRITE. -/
def execFreezeWrite (value : BitVec 32) (s : State) : Result := s.carrying (refusalErr s pDbg 17) (ownFreezeWrite value)

/-- SUBMIT: the token fails (R487). -/
def execSubmit (value : BitVec 32) (s : State) : Result :=
  s.carrying (s.when (s.block.reachable && value.getLsbD 0)
    [⟨pDbg, 16, fun s => .next (s.onWrite (fun b => (b.setAuth 2 0).raiseErr pDbg 16))⟩]) (ownSubmit value)

/-- FW_VERIFY_END: the image is refused (R484). -/
def execFwVerifyEnd (s : State) : Result :=
  s.carrying (s.when s.block.sec.verifying.isSome
    [⟨pSec, 17, fun s => .next (s.on (fun b =>
      ((({ b with sec := { b.sec with verifying := none } }).raiseErr pSec 17).setFld pSec 0x14C 8 4 3).raiseInt pSec 17))⟩])
    ownFwVerifyEnd

/-- SESSION_PROVE: the proof is wrong for the fourth time, and the slot is disarmed (R480). -/
def execSessionProve (msg : OpenMsg) (s : State) : Result :=
  s.carrying (s.when (s.block.proving msg) [⟨pSec, 16, fun s => .next (s.on (fun b => proveRefused msg 4 (b.takeOpen msg.session.toNat)))⟩])
    (ownSessionProve msg)

/-- JOIN: a join that starts is refused (R515). -/
def execJoin (value : BitVec 32) (s : State) : Result :=
  s.carrying (s.when (s.block.reachable && value.getLsbD 0 && decide (s.block.rope.jstate ∈ [0, 4, 5]))
    [⟨pRop, 16, fun s => .next (s.onWrite (fun b => b.joinEnds 5 stBadCommand))⟩]) (ownJoin value)

/-- POST: the path that brings a command fails, and the command ends TIER_FAULT; a corrected error leaves it as it is (R18, R37). -/
def execPost (port : Fin 64) (offset : BitVec 12) (data : Option Bytes) (s : State) : Result :=
  let run := ownPost port offset data
  let p := port.val
  let errs : List Carried := match data with
    | none => []
    | some bs => s.when (s.block.reachable && decide (s.block.get pHlk 0x108 ≠ 0) && s.block.postOk p offset.toNat bs &&
          decide (s.block.portInflight p < s.block.credits p) && s.block.running pHlk)
        (corrected pHlk run :: pathErrs pHlk (s.block.newCmd (.port p) bs []).opcode (fun b => b.endPost p stTierFault bs))
  s.carrying errs run

/-! ## The search path -/

/-- QUERY_ADMISSION. -/
def execQueryAdmission (cmd : Nat) (s : State) : Result :=
  let errs : List Carried := match s.block.cmd cmd, s.block.searchOf cmd with
    | some c, some _ => s.when true (corrected (pQpl c.die) (ownQueryAdmission cmd) ::
        pathErrs (pQpl c.die) c.opcode (fun b => b.endSearch cmd stTierFault))
    | _, _ => []
  s.carrying errs (ownQueryAdmission cmd)

/-- SHARD_POOL_RETURN: the reply counts as TIER_FAULT (R132). -/
def execShardPoolReturn (req place : Nat) (reply : ShardReply) (s : State) : Result :=
  let errs : List Carried := match s.block.ctx req with
    | some x => s.when true [⟨pQpl x.die, 17, ownShardPoolReturn req place (.ended (BitVec.ofNat 8 stTierFault))⟩]
    | none => []
  s.carrying errs (ownShardPoolReturn req place reply)

/-- What an operation in a slot of a selection unit carries: LIST_PARITY, INPUT_ORDER, INPUT_E2E and the data path's (R221,
R222). -/
def sluErrs (s : State) (w : OpWork) (op : Nat) (run : State → Result) (f : Block → Block) : List Carried :=
  match s.block.opInSlot w with
  | some (u, o) => s.when true (faults (pSlu u) 16 :: faults (pSlu u) 18 :: corrected (pSlu u) run ::
      [17, 0, 1, 2].map (ends (pSlu u) op (fun b => f (b.endOp o.id))))
  | none => []

/-- SHARD_MERGE. -/
def execShardMerge (ctx : Nat) (shard : Option Nat) (s : State) : Result :=
  let run := ownShardMerge ctx shard
  s.carrying (sluErrs s (.shardMerge ctx shard) (s.block.ctxOp ctx) run (fun b => b.failCtx ctx stTierFault)) run

/-- POOL_MERGE. -/
def execPoolMerge (cmd query : Nat) (s : State) : Result :=
  let run := ownPoolMerge cmd query
  s.carrying (sluErrs s (.poolMerge cmd query) (s.block.opOf cmd) run (fun b => b.faultQuery cmd query)) run

/-- FINAL_SELECTION. -/
def execFinalSelection (cmd query : Nat) (returns : List (List Refined)) (s : State) : Result :=
  let run := ownFinalSelection cmd query returns
  s.carrying (sluErrs s (.final cmd query) (s.block.opOf cmd) run (fun b => b.faultQuery cmd query)) run

/-- SWEEP_START. -/
def execSweepStart (stack : Fin 9) (sweep : Nat) (uncorrectable : Option Nat) (s : State) : Result :=
  let run := ownSweepStart stack sweep uncorrectable
  let errs : List Carried := match s.block.sweep stack.val sweep with
    | some w => s.when (decide (w.state = .loaded)) (corrected (pPim stack.val) run ::
        pathErrs (pPim stack.val) (s.block.ctxOp w.ctx) (fun b => b.faultSweep w w.step))
    | none => []
  s.carrying errs run

/-- CONTROLLER_REQUEST: a read or a write fails, or a write is refused like one to an index row (R171). -/
def execControllerRequest (stack : Fin 9) (req : DramReq) (s : State) : Result :=
  let run := ownControllerRequest stack req
  let p := pMem stack.val
  let op := (req.cmd.map s.block.opOf).getD 0
  let refused (b : Block) : Block :=
    (((b.put p 0x118 (rowAddress req.die.val req.bank.val req.row)).raiseInt p 17).bump p 2).faultCmd req.cmd
  s.carrying (s.when (decide (s.block.pageState p = 2 ∨ s.block.pageState p = 3))
    (corrected p run :: pathErrs p op (fun b => b.faultCmd req.cmd) ++
      (if req.write.isSome then [ends p op refused 17] else []))) run

/-- CHANNEL_READ_COMPLETE: the read fails, is late, or meets a parity error of the engine's LUT or shortlist (R195, R196,
R201). -/
def execChannelReadComplete (channel : Fin 64) (item : Nat) (read : ReadOutcome) (s : State) : Result :=
  let run := ownChannelReadComplete channel item read
  let p := pFlc channel.val
  let errs : List Carried := match s.block.item channel.val item with
    | some i => s.when (decide (i.state = .reading)) (faults p 18 :: faults p 19 :: corrected p run ::
        [17, 0, 1, 2].map (ends p (s.block.workOp i.work) (fun b => b.failItem channel.val i stTierFault)))
    | none => []
  s.carrying errs run

/-! ## Threads and matrix cores -/

/-- What a thread's instruction carries: CODE_PARITY, LS_PARITY, EXEC and the data path's (R252, R274). -/
def threadErrs (s : State) (t : ThreadRef) (run : State → Result) : List Carried :=
  let p := pScl t.cluster.val
  let end_ (st : Option Nat) (b : Block) : Block := b.issue t (fun j _ _ b => match st with
    | some n => b.endRun j n
    | none => b.execFault t j)
  match s.block.thread t with
  | some (j, _, y) => s.when (y.waiting.isNone && !y.parked && s.block.coreRuns t.cluster.val && s.block.turn t)
      ([faults p 19, ⟨p, 17, fun s => .next (s.on (fun b => b.fenceCore t.cluster.val t.core.val true))⟩,
        ⟨p, 18, fun s => .next (s.on (end_ none))⟩, corrected p run] ++ pathErrs p (s.block.runOp j) (end_ (some stTierFault)))
  | none => []

/-- A counter fault in place of a WAIT or TAKE (R264). -/
def syncErr (s : State) (t : ThreadRef) (c : Fin 48) : List Carried :=
  match s.block.thread t with
  | some (_, _, y) => s.when (y.waiting.isNone && !y.parked && s.block.coreRuns t.cluster.val && s.block.turn t)
      [⟨pScl t.cluster.val, 16, fun s => .next (s.on (fun b => b.issue t (fun j _ _ b => b.counterFault (coreCtr t c) 1 j)))⟩]
  | none => []

/-- ISSUE_STEP. -/
def execIssueStep (thread : ThreadRef) (mxc : Fin 64) (desc : Nat) (ctr : Fin 48) (s : State) : Result :=
  let run := ownIssueStep thread mxc desc ctr
  s.carrying (threadErrs s thread run) run
/-- SIG. -/
def execSig (thread : ThreadRef) (target : CounterRef) (n : Nat) (s : State) : Result :=
  let run := ownSig thread target n
  s.carrying (threadErrs s thread run) run
/-- WAIT. -/
def execWait (thread : ThreadRef) (ctr : Fin 48) (n : Nat) (s : State) : Result :=
  let run := ownWait thread ctr n
  s.carrying (syncErr s thread ctr ++ threadErrs s thread run) run
/-- TAKE. -/
def execTake (thread : ThreadRef) (ctr : Fin 48) (n : Nat) (s : State) : Result :=
  let run := ownTake thread ctr n
  s.carrying (syncErr s thread ctr ++ threadErrs s thread run) run
/-- TEST. -/
def execTest (thread : ThreadRef) (ctr : Fin 48) (rd : Fin 32) (s : State) : Result :=
  let run := ownTest thread ctr rd
  s.carrying (threadErrs s thread run) run
/-- LSUM4. -/
def execLsum4 (thread : ThreadRef) (acc : Fin 32) (code : BitVec 16) (table : Nat) (s : State) : Result :=
  let run := ownLsum4 thread acc code table
  s.carrying (threadErrs s thread run) run
/-- SCALAR_INTEGER. -/
def execScalarInteger (thread : ThreadRef) (op : IntOp) (s : State) : Result :=
  let run := ownScalarInteger thread op
  s.carrying (threadErrs s thread run) run
/-- SCALAR_BINARY32. -/
def execScalarBinary32 (thread : ThreadRef) (op : FloatOp) (s : State) : Result :=
  let run := ownScalarBinary32 thread op
  s.carrying (threadErrs s thread run) run
/-- SIMD. -/
def execSimd (thread : ThreadRef) (op : SimdOp) (s : State) : Result :=
  let run := ownSimd thread op
  s.carrying (threadErrs s thread run) run
/-- LOCAL_STORE. -/
def execLocalStore (thread : ThreadRef) (op : StoreOp) (s : State) : Result :=
  let run := ownLocalStore thread op
  s.carrying (threadErrs s thread run) run
/-- METER. -/
def execMeter (thread : ThreadRef) (lo hi : Fin 32) (s : State) : Result :=
  let run := ownMeter thread lo hi
  s.carrying (threadErrs s thread run) run

/-- A counter fault in place of a WAIT on a matrix-core counter, of a step or a schedule entry that has one (R305). -/
def waitErr (m ctr j : Nat) (en : Bool) : List Carried :=
  if en then
    [⟨pMxc m, 18, fun s => .next (s.on (fun b => b.counterFault (.matrix (Fin.ofNat 64 m) (Fin.ofNat 64 ctr)) 1 j))⟩]
  else []

/-- What a step of a matrix core carries: WSRAM_PARITY, ARRAY_PARITY, SYNC, STEP_FAULT and the data path's (R304, R305, R307). -/
def stepErrs (s : State) (m : Nat) (run : State → Result) : List Carried :=
  let p := pMxc m
  match (s.block.mxc m).steps with
  | [] => []
  | x :: _ => s.when (s.block.running p && s.block.issuerRuns x.job)
      ([faults p 16, faults p 17] ++ waitErr m (readStep x.desc).waitCtr x.job (readStep x.desc).waitEn ++
       [corrected p run, ends p (s.block.runOp x.job) (fun b => b.execFault x.thread x.job) 20] ++
       pathErrs p (s.block.runOp x.job) (fun b => b.endRun x.job stTierFault))

/-- MATMUL. -/
def execMatmul (mxc : Fin 64) (s : State) : Result := s.carrying (stepErrs s mxc.val (ownMatmul mxc)) (ownMatmul mxc)
/-- DIST. -/
def execDist (mxc : Fin 64) (s : State) : Result := s.carrying (stepErrs s mxc.val (ownDist mxc)) (ownDist mxc)
/-- TABLE. -/
def execTable (mxc : Fin 64) (s : State) : Result := s.carrying (stepErrs s mxc.val (ownTable mxc)) (ownTable mxc)

/-- SCHEDULE_ENTRY_LANDING: a counter fault in its WAIT, a tile that is refused, or the data path's errors (R288, R301, R305). -/
def execScheduleEntryLanding (mxc : Fin 64) (readable : Bool) (s : State) : Result :=
  let run := ownScheduleEntryLanding mxc readable
  let m := mxc.val
  let p := pMxc m
  let errs : List Carried := match s.block.mxcJob m with
    | none => []
    | some (j, x) =>
      match (x.schedOf (x.mxcs.idxOf m))[(s.block.mxc m).next]? with
      | none => []
      | some (_, e) =>
        let op := s.block.runOp j
        s.when (decide (x.st = .running) && s.block.running p) (waitErr m e.waitCtr j e.waitEn ++
          [corrected p run, ⟨p, 19, fun s => .next (s.on (fun b => (b.refuseTile m e.granule op).endRun j stTierFault))⟩] ++
          pathErrs p op (fun b => b.endRun j stTierFault))
  s.carrying errs run

/-! ## Tables, indexes, the pool and placement -/

/-- TBL_SWITCH_DEFINE: a tile of the table that is defined fails its check (R340). -/
def execTblSwitchDefine (part : CmdPart) (s : State) : Result :=
  let errs : List Carried := match part with
    | .own id _ => match s.block.cmd id with
      | some c => s.when (decide (c.phase = .handed ∧ c.opcode = 0x33)) [ends pTbl 0x33 (fun b => b.finish id stTierFault) 16]
      | none => []
    | .order _ => []
  s.carrying errs (ownTblSwitchDefine part)

/-- TABLE_REQUEST: the owner answers TIER_FAULT. -/
def execTableRequest (req : TableReq) (s : State) : Result :=
  let run := ownTableRequest req
  let fail (b : Block) : Block := b.send { toward := .place req.fromPlace, cls := 4, kind := .tableRows, args := [req.tag, stTierFault, 0] }
  s.carrying (s.when (s.block.running pTbl && decide (req.fromPlace ≠ s.block.place)) (corrected pTbl run :: pathErrs pTbl 0 fail)) run

/-- TENTATIVE_RECORDS: the pending-record limit refuses them (R336). -/
def execTentativeRecords (msg : TentativeMsg) (s : State) : Result :=
  let run := ownTentativeRecords msg
  let op := if msg.records.any (·.add) then 0x32 else 0x31
  s.carrying (s.when ((s.block.tableOf msg.table).isSome && decide (msg.records ≠ []))
    [ends pTbl op (fun b => b.replyScatter msg.fromPlace msg.tag stOutOfRange 0 []) 17]) run

/-- INDEX_MOUNT: a mount that is handed over is refused (R113). -/
def execIndexMount (part : CmdPart) (s : State) : Result :=
  let errs : List Carried := match part with
    | .own id _ => match s.block.cmd id with
      | some c => s.when (decide (c.phase = .handed ∧ c.opcode = 0x25)) [ends pIdx 0x25 (fun b => b.finish id stBadCommand) 17]
      | none => []
    | .order _ => []
  s.carrying errs (ownIndexMount part)

/-- OWNER_RECORDS: a side-list or tombstone limit refuses them (R111, R227). -/
def execOwnerRecords (msg : OwnerMsg) (s : State) : Result :=
  let run := ownOwnerRecords msg
  s.carrying (s.when (decide (msg.records ≠ []))
    [ends pIdx (updOpcode msg.kind) (fun b => b.replyUpdate msg.fromPlace msg.tag .ownerReply stOutOfRange 0) 18]) run

/-- CXL_READ: the read returns poison (R378). -/
def execCxlRead (port : Fin 2) (ld : Fin 16) (addr : BitVec 46) (s : State) : Result :=
  let p := pCxp port.val
  s.carrying (s.when (s.block.running p) ([17, 0, 1, 2].map (ends p 0 (fun b =>
    { ((b.bump p 0).bump p 7 64) with out := { b.out with cxl := none } })))) (ownCxlRead port ld addr)

/-- CXL_WRITE: the write is discarded (R378). -/
def execCxlWrite (port : Fin 2) (ld : Fin 16) (addr : BitVec 46) (data : Bytes) (s : State) : Result :=
  let p := pCxp port.val
  let discard (b : Block) : Block :=
    ((b.bump p 7 data.length).put p 0x118 (addr.toNat + (16 * port.val + ld.val) * 2 ^ 46 + 2 ^ 63)).bump p 5
  s.carrying (s.when (s.block.running p) [ends p 0 discard 16]) (ownCxlWrite port ld addr data)

/-- COPY_END: the migration is abandoned on an error (R346). -/
def execCopyEnd (item : ItemRef) (copy : ItemCopy) (s : State) : Result :=
  s.carrying (s.when (s.block.moveOf item).isSome [⟨pPlc, 17, execMigrationAbandon item true⟩]) (ownCopyEnd item copy)

/-! ## Flash, bays and sensors -/

/-- ZONE_SEAL: the seal waits (R399). -/
def execZoneSeal (zone : Nat) (s : State) : Result :=
  s.carrying (s.when (s.block.zone zone).isSome [ends pFtl 0 id 18]) (ownZoneSeal zone)

/-- BAY_TRAINING_END: training fails (R410). -/
def execBayTrainingEnd (bay : Fin 16) (trained : Bool) (s : State) : Result :=
  s.carrying (s.when (decide ((s.block.bay bay.val).st = bsPowering)) [⟨pBay bay.val, 16, ownBayTrainingEnd bay false⟩])
    (ownBayTrainingEnd bay trained)

/-- IDENTIFY_END: the record is refused (R410). -/
def execIdentifyEnd (bay : Fin 16) (record : Bytes) (parameterPages : Bool) (s : State) : Result :=
  s.carrying (s.when (decide ((s.block.bay bay.val).st = bsIdentifying)) [⟨pBay bay.val, 17, ownIdentifyEnd bay [] false⟩])
    (ownIdentifyEnd bay record parameterPages)

/-- PRESENT_DEASSERTED: a removal counts as one without a drain (R405). -/
def execPresentDeasserted (bay : Fin 16) (s : State) : Result :=
  s.carrying (s.when (decide ((s.block.bay bay.val).st ≠ bsEmpty))
    [⟨pBay bay.val, 18, fun s => .next (s.on (presentDeasserted bay.val true))⟩]) (ownPresentDeasserted bay)

/-- ATTENTION_PRESS: a drain is refused (R411). -/
def execAttentionPress (bay : Fin 16) (s : State) : Result :=
  s.carrying (s.when (decide ((s.block.bay bay.val).st = bsOnline))
    [ends (pBay bay.val) 0 (fun b => (b.setBay bay.val { b.bay bay.val with refused := some b.meter }).bump (pBay bay.val) 3) 19])
    (ownAttentionPress bay)

/-- THERMAL_LEVEL_CHANGE: the domain's sensor fails (R79). -/
def execThermalLevelChange (domain : Fin 12) (temp : BitVec 11) (s : State) : Result :=
  s.carrying (s.when true [⟨pPwr, 17, execSensorFail domain⟩]) (ownThermalLevelChange domain temp)

/-! ## Fabric and traffic -/

/-- DATA_FLIT: FEC_UNCORR, LCRC or CREDIT_OVERRUN (R418, R421, R422). -/
def execDataFlit (port : Fin 8) (flit : Bytes) (fecOk : Bool) (s : State) : Result :=
  let p := pKwf port.val
  s.carrying (s.when ((s.block.link port.val).up && s.block.linkMode port.val)
    [⟨p, 17, ownDataFlit port flit false⟩, ⟨p, 18, ownDataFlit port [] true⟩,
     ends p 0 (fun b => b.flitDiscard port.val) 19, corrected p (ownDataFlit port flit fecOk)]) (ownDataFlit port flit fecOk)

/-- FRAME_RECEIVED: an FCS error (R418). -/
def execFrameReceived (port : Fin 8) (frame : Bytes) (fcsOk : Bool) (s : State) : Result :=
  s.carrying (s.when ((s.block.link port.val).up && !s.block.linkMode port.val)
    [⟨pKwf port.val, 18, ownFrameReceived port frame false⟩]) (ownFrameReceived port frame fcsOk)

/-- SEGMENT_RECEIVED: the segment fails R429, or its message is discarded (R427). -/
def execSegmentReceived (segment : Bytes) (s : State) : Result :=
  let errs : List Carried := match readSeg segment with
    | some h => s.when (decide (s.block.pageState pKwt = 2 ∧ h.dst = s.block.endpoint ∧ (s.block.session h.session).state = .opened ∧
        (s.block.session h.session).endpoint = h.src))
        [⟨pKwt, 16, fun s => .next (s.on (fun b => b.authDiscard h.session))⟩, ends pKwt 0 id 21]
    | none => []
  s.carrying errs (ownSegmentReceived segment)

/-- INGRESS_SERVICE: the ingress store's parity fails, and TRF is in FAULT (R468). -/
def execIngressService (full : List Nat) (s : State) : Result :=
  let run := ownIngressService full
  s.carrying (s.when (s.block.running pTrf && decide (s.block.trf.entries ≠ [])) [faults pTrf 19, corrected pTrf run]) run

/-- SAMPLE_ROUND: the round is skipped (R465). -/
def execSampleRound (s : State) : Result :=
  s.carrying (s.when (decide (s.block.fld pTrf 0x110 0 1 = 1)) [ends pTrf 0 (fun b => b.bump32 pTrf 0x12C) 18]) ownSampleRound

end Sys2Proof.Machine
end

