-- ==== Sys2Proof/Machine/Dispatch.lean ====
section
/-! DEFINITION. The command dispatch: one arm per row of spec/opcode_table.json, each one call of that command's meaning. -/

namespace Sys2Proof.Machine

open Sys2Proof

/-- The effect of one command on everything but the queue. -/
def exec (i : Instr) (s : State) : Host.Outcome State Fault Refusal :=
  match i with
  | .registerWrite off wide value => Sys2Proof.Machine.execRegisterWrite off wide value s
  | .invalidAccess off size write => Sys2Proof.Machine.execInvalidAccess off size write s
  | .unreachableAccess off write => Sys2Proof.Machine.execUnreachableAccess off write s
  | .lowerHalfRead off => Sys2Proof.Machine.execLowerHalfRead off s
  | .upperHalfRead off => Sys2Proof.Machine.execUpperHalfRead off s
  | .intSummaryRead => Sys2Proof.Machine.execIntSummaryRead s
  | .intCtrlEnWrite value => Sys2Proof.Machine.execIntCtrlEnWrite value s
  | .enableWrite page value => Sys2Proof.Machine.execEnableWrite page value s
  | .drainAbortWrite page value => Sys2Proof.Machine.execDrainAbortWrite page value s
  | .initialisationEnds page failed => Sys2Proof.Machine.execInitialisationEnds page failed s
  | .drained page => Sys2Proof.Machine.execDrained page s
  | .softResetWrite page value => Sys2Proof.Machine.execSoftResetWrite page value s
  | .softResetEnd page => Sys2Proof.Machine.execSoftResetEnd page s
  | .uncontainedBlockError page bit => Sys2Proof.Machine.execUncontainedBlockError page bit s
  | .uncorrectableError page bit unit cmd => Sys2Proof.Machine.execUncorrectableError page bit unit cmd s
  | .errInjectWrite page value => Sys2Proof.Machine.execErrInjectWrite page value s
  | .resetWarm value => Sys2Proof.Machine.execResetWarm value s
  | .resetCold value => Sys2Proof.Machine.execResetCold value s
  | .cfgLock value => Sys2Proof.Machine.execCfgLock value s
  | .powerUp => Sys2Proof.Machine.execPowerUp s
  | .startUpStageEnd found => Sys2Proof.Machine.execStartUpStageEnd found s
  | .stageLimitExceeded => Sys2Proof.Machine.execStageLimitExceeded s
  | .moduleFatal cause site => Sys2Proof.Machine.execModuleFatal cause site s
  | .portEnable port value => Sys2Proof.Machine.execPortEnable port value s
  | .portDisable port value => Sys2Proof.Machine.execPortDisable port value s
  | .post port offset data => Sys2Proof.Machine.execPost port offset data s
  | .pxyGo slot value => Sys2Proof.Machine.execPxyGo slot value s
  | .proxyTimeout slot => Sys2Proof.Machine.execProxyTimeout slot s
  | .proxyAccess msg => Sys2Proof.Machine.execProxyAccess msg s
  | .proxyReply slot status data => Sys2Proof.Machine.execProxyReply slot status data s
  | .search cmd => Sys2Proof.Machine.execSearch cmd s
  | .searchBatch cmd => Sys2Proof.Machine.execSearchBatch cmd s
  | .searchHybrid cmd replies => Sys2Proof.Machine.execSearchHybrid cmd replies s
  | .topk cmd => Sys2Proof.Machine.execTopk cmd s
  | .insert cmd replies => Sys2Proof.Machine.execInsert cmd replies s
  | .delete cmd replies => Sys2Proof.Machine.execDelete cmd replies s
  | .upsert cmd replies => Sys2Proof.Machine.execUpsert cmd replies s
  | .consolidate part => Sys2Proof.Machine.execConsolidate part s
  | .indexSwitch part => Sys2Proof.Machine.execIndexSwitch part s
  | .indexMount part => Sys2Proof.Machine.execIndexMount part s
  | .indexRetire part => Sys2Proof.Machine.execIndexRetire part s
  | .tblGather cmd replies => Sys2Proof.Machine.execTblGather cmd replies s
  | .tblPrefetch cmd replies => Sys2Proof.Machine.execTblPrefetch cmd replies s
  | .tblScatterSet cmd replies => Sys2Proof.Machine.execTblScatterSet cmd replies s
  | .tblScatterAdd cmd replies => Sys2Proof.Machine.execTblScatterAdd cmd replies s
  | .tblSwitchPublish part => Sys2Proof.Machine.execTblSwitchPublish part s
  | .tblSwitchDefine part => Sys2Proof.Machine.execTblSwitchDefine part s
  | .tblSwitchDrop part => Sys2Proof.Machine.execTblSwitchDrop part s
  | .jobLoad cmd => Sys2Proof.Machine.execJobLoad cmd s
  | .jobRun cmd => Sys2Proof.Machine.execJobRun cmd s
  | .jobRunInvoke cmd => Sys2Proof.Machine.execJobRunInvoke cmd s
  | .jobStop cmd => Sys2Proof.Machine.execJobStop cmd s
  | .loadComplete job readable => Sys2Proof.Machine.execLoadComplete job readable s
  | .allThreadsEnd job => Sys2Proof.Machine.execAllThreadsEnd job s
  | .acquire cmd => Sys2Proof.Machine.execAcquire cmd s
  | .renew cmd => Sys2Proof.Machine.execRenew cmd s
  | .create cmd => Sys2Proof.Machine.execCreate cmd s
  | .poolPublish cmd => Sys2Proof.Machine.execPoolPublish cmd s
  | .poolRelease cmd => Sys2Proof.Machine.execPoolRelease cmd s
  | .poolDiscard cmd => Sys2Proof.Machine.execPoolDiscard cmd s
  | .statePush cmd => Sys2Proof.Machine.execStatePush cmd s
  | .stateFetch cmd => Sys2Proof.Machine.execStateFetch cmd s
  | .discard cmd => Sys2Proof.Machine.execDiscard cmd s
  | .secureDiscard cmd erased => Sys2Proof.Machine.execSecureDiscard cmd erased s
  | .sessionOpen msg => Sys2Proof.Machine.execSessionOpen msg s
  | .sessionProve msg => Sys2Proof.Machine.execSessionProve msg s
  | .sessionClose cmd => Sys2Proof.Machine.execSessionClose cmd s
  | .sessionClosed session => Sys2Proof.Machine.execSessionClosed session s
  | .openingTimeout session => Sys2Proof.Machine.execOpeningTimeout session s
  | .ingressService full => Sys2Proof.Machine.execIngressService full s
  | .egressService full => Sys2Proof.Machine.execEgressService full s
  | .queryAdmission cmd => Sys2Proof.Machine.execQueryAdmission cmd s
  | .shardRequest req => Sys2Proof.Machine.execShardRequest req s
  | .navigationWalkEnd ctx shard => Sys2Proof.Machine.execNavigationWalkEnd ctx shard s
  | .waveEnd ctx shard => Sys2Proof.Machine.execWaveEnd ctx shard s
  | .shardPoolReturn req place reply => Sys2Proof.Machine.execShardPoolReturn req place reply s
  | .poolMerge cmd query => Sys2Proof.Machine.execPoolMerge cmd query s
  | .shardMerge ctx shard => Sys2Proof.Machine.execShardMerge ctx shard s
  | .finalSelection cmd query returns => Sys2Proof.Machine.execFinalSelection cmd query returns s
  | .route part => Sys2Proof.Machine.execRoute part s
  | .operationStart slu => Sys2Proof.Machine.execOperationStart slu s
  | .deadline work => Sys2Proof.Machine.execDeadline work s
  | .pitchClose => Sys2Proof.Machine.execPitchClose s
  | .purgeEnd lane => Sys2Proof.Machine.execPurgeEnd lane s
  | .sweepTaken stack sweep tableOk => Sys2Proof.Machine.execSweepTaken stack sweep tableOk s
  | .sweepStart stack sweep uncorrectable => Sys2Proof.Machine.execSweepStart stack sweep uncorrectable s
  | .sweepYield stack sweep => Sys2Proof.Machine.execSweepYield stack sweep s
  | .sweepResume stack sweep => Sys2Proof.Machine.execSweepResume stack sweep s
  | .sweepEnd stack sweep => Sys2Proof.Machine.execSweepEnd stack sweep s
  | .shortlistAnnotation stack sweep crcOk => Sys2Proof.Machine.execShortlistAnnotation stack sweep crcOk s
  | .controllerRequest stack req => Sys2Proof.Machine.execControllerRequest stack req s
  | .unitFence stack unit list => Sys2Proof.Machine.execUnitFence stack unit list s
  | .dramRefresh stack die bank => Sys2Proof.Machine.execDramRefresh stack die bank s
  | .patrolScrub stack die bank row => Sys2Proof.Machine.execPatrolScrub stack die bank row s
  | .stackFailure stack => Sys2Proof.Machine.execStackFailure stack s
  | .spareRebuildEnd => Sys2Proof.Machine.execSpareRebuildEnd s
  | .channelOperation channel timeUsed => Sys2Proof.Machine.execChannelOperation channel timeUsed s
  | .refinementItem channel item => Sys2Proof.Machine.execRefinementItem channel item s
  | .coldScanItem channel item => Sys2Proof.Machine.execColdScanItem channel item s
  | .channelReadComplete channel item read => Sys2Proof.Machine.execChannelReadComplete channel item read s
  | .readLimitExpiry channel item => Sys2Proof.Machine.execReadLimitExpiry channel item s
  | .resultReturn channel => Sys2Proof.Machine.execResultReturn channel s
  | .flcWindow channel => Sys2Proof.Machine.execFlcWindow channel s
  | .issueStep thread mxc desc ctr => Sys2Proof.Machine.execIssueStep thread mxc desc ctr s
  | .matmul mxc => Sys2Proof.Machine.execMatmul mxc s
  | .dist mxc => Sys2Proof.Machine.execDist mxc s
  | .table mxc => Sys2Proof.Machine.execTable mxc s
  | .scheduleEntryLanding mxc readable => Sys2Proof.Machine.execScheduleEntryLanding mxc readable s
  | .sig thread target n => Sys2Proof.Machine.execSig thread target n s
  | .signalArrival signal => Sys2Proof.Machine.execSignalArrival signal s
  | .wait thread ctr n => Sys2Proof.Machine.execWait thread ctr n s
  | .waitComplete thread => Sys2Proof.Machine.execWaitComplete thread s
  | .take thread ctr n => Sys2Proof.Machine.execTake thread ctr n s
  | .test thread ctr rd => Sys2Proof.Machine.execTest thread ctr rd s
  | .move thread toFrame frameAddr place len ctr => Sys2Proof.Machine.execMove thread toFrame frameAddr place len ctr s
  | .blockMoveComplete move => Sys2Proof.Machine.execBlockMoveComplete move s
  | .tile thread keyAddr staging ctr => Sys2Proof.Machine.execTile thread keyAddr staging ctr s
  | .tileComplete request readable => Sys2Proof.Machine.execTileComplete request readable s
  | .lsum4 thread acc code table => Sys2Proof.Machine.execLsum4 thread acc code table s
  | .scalarInteger thread op => Sys2Proof.Machine.execScalarInteger thread op s
  | .scalarBinary32 thread op => Sys2Proof.Machine.execScalarBinary32 thread op s
  | .simd thread op => Sys2Proof.Machine.execSimd thread op s
  | .localStore thread op => Sys2Proof.Machine.execLocalStore thread op s
  | .meter thread lo hi => Sys2Proof.Machine.execMeter thread lo hi s
  | .endInstr thread => Sys2Proof.Machine.execEnd thread s
  | .invget thread => Sys2Proof.Machine.execInvget thread s
  | .invend thread number count => Sys2Proof.Machine.execInvend thread number count s
  | .ownerRecords msg => Sys2Proof.Machine.execOwnerRecords msg s
  | .logPageTimer index => Sys2Proof.Machine.execLogPageTimer index s
  | .logCopy fromPlace page data => Sys2Proof.Machine.execLogCopy fromPlace page data s
  | .cairnRequest index fromPlace tag => Sys2Proof.Machine.execCairnRequest index fromPlace tag s
  | .cairnRecord msg => Sys2Proof.Machine.execCairnRecord msg s
  | .confirm index cairn => Sys2Proof.Machine.execConfirm index cairn s
  | .voidCairn index cairn => Sys2Proof.Machine.execVoidCairn index cairn s
  | .visibleCairnSend index => Sys2Proof.Machine.execVisibleCairnSend index s
  | .visibleCairnMessage index cairn voided => Sys2Proof.Machine.execVisibleCairnMessage index cairn voided s
  | .mountTilesPlaced index version => Sys2Proof.Machine.execMountTilesPlaced index version s
  | .tentativeRecords msg => Sys2Proof.Machine.execTentativeRecords msg s
  | .commit cmd origin => Sys2Proof.Machine.execCommit cmd origin s
  | .migrationStart item source dest => Sys2Proof.Machine.execMigrationStart item source dest s
  | .copyEnd item copy => Sys2Proof.Machine.execCopyEnd item copy s
  | .cutover item tail => Sys2Proof.Machine.execCutover item tail s
  | .cutoverAcknowledged item => Sys2Proof.Machine.execCutoverAcknowledged item s
  | .retireEnd item => Sys2Proof.Machine.execRetireEnd item s
  | .migrationAbandon item error => Sys2Proof.Machine.execMigrationAbandon item error s
  | .forwardedRequest req => Sys2Proof.Machine.execForwardedRequest req s
  | .loadWindowEnd => Sys2Proof.Machine.execLoadWindowEnd s
  | .pfHoldExpiry table row => Sys2Proof.Machine.execPfHoldExpiry table row s
  | .qKeyWrite value => Sys2Proof.Machine.execQKeyWrite value s
  | .cxlRead port ld addr => Sys2Proof.Machine.execCxlRead port ld addr s
  | .cxlWrite port ld addr data => Sys2Proof.Machine.execCxlWrite port ld addr data s
  | .cxlLinkChange port up width rate => Sys2Proof.Machine.execCxlLinkChange port up width rate s
  | .leaseExpiry region => Sys2Proof.Machine.execLeaseExpiry region s
  | .dirtyWriteBack item => Sys2Proof.Machine.execDirtyWriteBack item s
  | .pageProgram lun page => Sys2Proof.Machine.execPageProgram lun page s
  | .zoneSeal zone => Sys2Proof.Machine.execZoneSeal zone s
  | .zlogBaseWrite value => Sys2Proof.Machine.execZlogBaseWrite value s
  | .flashRefresh block => Sys2Proof.Machine.execFlashRefresh block s
  | .rewrite block => Sys2Proof.Machine.execRewrite block s
  | .blockRetire block => Sys2Proof.Machine.execBlockRetire block s
  | .compaction zone => Sys2Proof.Machine.execCompaction zone s
  | .bayRebuildStart bay => Sys2Proof.Machine.execBayRebuildStart bay s
  | .bayRebuildEnd bay => Sys2Proof.Machine.execBayRebuildEnd bay s
  | .presentAsserted bay => Sys2Proof.Machine.execPresentAsserted bay s
  | .bayTrainingEnd bay trained => Sys2Proof.Machine.execBayTrainingEnd bay trained s
  | .identifyEnd bay record parameterPages => Sys2Proof.Machine.execIdentifyEnd bay record parameterPages s
  | .formatEnd bay => Sys2Proof.Machine.execFormatEnd bay s
  | .attentionPress bay => Sys2Proof.Machine.execAttentionPress bay s
  | .bayCmdAdmit bay => Sys2Proof.Machine.execBayCmdAdmit bay s
  | .bayCmdDrain bay => Sys2Proof.Machine.execBayCmdDrain bay s
  | .bayCmdCancel bay => Sys2Proof.Machine.execBayCmdCancel bay s
  | .bayDrainEnd bay => Sys2Proof.Machine.execBayDrainEnd bay s
  | .presentDeasserted bay => Sys2Proof.Machine.execPresentDeasserted bay s
  | .channelUnresponsive channel => Sys2Proof.Machine.execChannelUnresponsive channel s
  | .railOvercurrent bay => Sys2Proof.Machine.execRailOvercurrent bay s
  | .sagFire domain sensor => Sys2Proof.Machine.execSagFire domain sensor s
  | .sagDeassert domain sensor => Sys2Proof.Machine.execSagDeassert domain sensor s
  | .sagHoldExpiry domain => Sys2Proof.Machine.execSagHoldExpiry domain s
  | .thermalLevelChange domain temp => Sys2Proof.Machine.execThermalLevelChange domain temp s
  | .capEvaluation pkg mod vin => Sys2Proof.Machine.execCapEvaluation pkg mod vin s
  | .sensorFail domain => Sys2Proof.Machine.execSensorFail domain s
  | .referenceLost => Sys2Proof.Machine.execReferenceLost s
  | .busbarUndervoltage => Sys2Proof.Machine.execBusbarUndervoltage s
  | .powerStageOvercurrent => Sys2Proof.Machine.execPowerStageOvercurrent s
  | .powerRestart => Sys2Proof.Machine.execPowerRestart s
  | .mateOpen => Sys2Proof.Machine.execMateOpen s
  | .dataFlit port flit fecOk => Sys2Proof.Machine.execDataFlit port flit fecOk s
  | .nak port ackSeq => Sys2Proof.Machine.execNak port ackSeq s
  | .hello port credits => Sys2Proof.Machine.execHello port credits s
  | .pcsLock port signal => Sys2Proof.Machine.execPcsLock port signal s
  | .signalLoss port signal => Sys2Proof.Machine.execSignalLoss port signal s
  | .helloTimeout port => Sys2Proof.Machine.execHelloTimeout port s
  | .replayWaitExpiry port => Sys2Proof.Machine.execReplayWaitExpiry port s
  | .giveUp port => Sys2Proof.Machine.execGiveUp port s
  | .frameReceived port frame fcsOk => Sys2Proof.Machine.execFrameReceived port frame fcsOk s
  | .segmentReceived segment => Sys2Proof.Machine.execSegmentReceived segment s
  | .reasmWaitExpiry session msgId => Sys2Proof.Machine.execReasmWaitExpiry session msgId s
  | .ack session msgId => Sys2Proof.Machine.execAck session msgId s
  | .reply session msgId body => Sys2Proof.Machine.execReply session msgId body s
  | .rtoExpiry session msgId => Sys2Proof.Machine.execRtoExpiry session msgId s
  | .beatSend => Sys2Proof.Machine.execBeatSend s
  | .beat place spare heard => Sys2Proof.Machine.execBeat place spare heard s
  | .declareLost place => Sys2Proof.Machine.execDeclareLost place s
  | .membershipNotice notice => Sys2Proof.Machine.execMembershipNotice notice s
  | .fence => Sys2Proof.Machine.execFence s
  | .fenceWaitExpiry => Sys2Proof.Machine.execFenceWaitExpiry s
  | .restoreEnd items => Sys2Proof.Machine.execRestoreEnd items s
  | .standinRebuildEnd => Sys2Proof.Machine.execStandinRebuildEnd s
  | .join value => Sys2Proof.Machine.execJoin value s
  | .joinRequest req => Sys2Proof.Machine.execJoinRequest req s
  | .formWaitExpiry => Sys2Proof.Machine.execFormWaitExpiry s
  | .leave value => Sys2Proof.Machine.execLeave value s
  | .declare value => Sys2Proof.Machine.execDeclare value s
  | .healthEvaluation => Sys2Proof.Machine.execHealthEvaluation s
  | .clearFatal value => Sys2Proof.Machine.execClearFatal value s
  | .clearPage value => Sys2Proof.Machine.execClearPage value s
  | .load value => Sys2Proof.Machine.execLoad value s
  | .sampleEnWrite value => Sys2Proof.Machine.execSampleEnWrite value s
  | .sampleRound => Sys2Proof.Machine.execSampleRound s
  | .telemetryNotice => Sys2Proof.Machine.execTelemetryNotice s
  | .tenantWrite value => Sys2Proof.Machine.execTenantWrite value s
  | .tenantRelease value => Sys2Proof.Machine.execTenantRelease value s
  | .scrubDone => Sys2Proof.Machine.execScrubDone s
  | .arm value => Sys2Proof.Machine.execArm value s
  | .disarm value => Sys2Proof.Machine.execDisarm value s
  | .kill value => Sys2Proof.Machine.execKill value s
  | .stage value => Sys2Proof.Machine.execStage value s
  | .fwVerifyEnd => Sys2Proof.Machine.execFwVerifyEnd s
  | .dropPending value => Sys2Proof.Machine.execDropPending value s
  | .attGo value => Sys2Proof.Machine.execAttGo value s
  | .attDone => Sys2Proof.Machine.execAttDone s
  | .submit value => Sys2Proof.Machine.execSubmit value s
  | .revoke value => Sys2Proof.Machine.execRevoke value s
  | .freezeWrite value => Sys2Proof.Machine.execFreezeWrite value s
  | .freezeInput heldNs => Sys2Proof.Machine.execFreezeInput heldNs s
  | .blow value => Sys2Proof.Machine.execBlow value s
  | .bypass tdi => Sys2Proof.Machine.execBypass tdi s
  | .idcode => Sys2Proof.Machine.execIdcode s
  | .samplePreload tdi pins => Sys2Proof.Machine.execSamplePreload tdi pins s
  | .extest tdi => Sys2Proof.Machine.execExtest tdi s
  | .challenge => Sys2Proof.Machine.execChallenge s
  | .token data => Sys2Proof.Machine.execToken data s
  | .freeze => Sys2Proof.Machine.execFreeze s
  | .chainSel chain => Sys2Proof.Machine.execChainSel chain s
  | .chainLen => Sys2Proof.Machine.execChainLen s
  | .chainRead => Sys2Proof.Machine.execChainRead s
  | .chainWrite data => Sys2Proof.Machine.execChainWrite data s
  | .smbusStatus pecOk => Sys2Proof.Machine.execSmbusStatus pecOk s
  | .smbusTripLast pecOk => Sys2Proof.Machine.execSmbusTripLast pecOk s
  | .smbusFatal pecOk => Sys2Proof.Machine.execSmbusFatal pecOk s
  | .powerRead pecOk => Sys2Proof.Machine.execPowerRead pecOk s
  | .powerOn pecOk => Sys2Proof.Machine.execPowerOn pecOk s
  | .powerOff pecOk data => Sys2Proof.Machine.execPowerOff pecOk data s
  | .powerOffLimit => Sys2Proof.Machine.execPowerOffLimit s
  | .smbusColdReset pecOk => Sys2Proof.Machine.execSmbusColdReset pecOk s
  | .locate pecOk data => Sys2Proof.Machine.execLocate pecOk data s
  | .ident pecOk => Sys2Proof.Machine.execIdent pecOk s
  | .setModuleId pecOk data => Sys2Proof.Machine.execSetModuleId pecOk data s
  | .locateButton heldMs => Sys2Proof.Machine.execLocateButton heldMs s
  | .moduleServiceButton heldMs => Sys2Proof.Machine.execModuleServiceButton heldMs s
  | .helloRetry port => Sys2Proof.Machine.execHelloRetry port s
  | .ackWaitExpiry port => Sys2Proof.Machine.execAckWaitExpiry port s
  | .linkAcknowledgement port ackSeq crVc crCount => Sys2Proof.Machine.execLinkAcknowledgement port ackSeq crVc crCount s
  | .programComplete lun ok => Sys2Proof.Machine.execProgramComplete lun ok s
  | .zlogRdWrite value => Sys2Proof.Machine.execZlogRdWrite value s
  | .mailboxCommand port ld command => Sys2Proof.Machine.execMailboxCommand port ld command s
  | .ldBinding port ld bound => Sys2Proof.Machine.execLdBinding port ld bound s
  | .flowLow low => Sys2Proof.Machine.execFlowLow low s
  | .leak fluid => Sys2Proof.Machine.execLeak fluid s
  | .svcPresent present => Sys2Proof.Machine.execSvcPresent present s
  | .trstAsserted asserted => Sys2Proof.Machine.execTrstAsserted asserted s
  | .tableRequest req => Sys2Proof.Machine.execTableRequest req s

end Sys2Proof.Machine
end

