-- ==== Sys2Proof/Machine/Tick.lean ====
section
/-! DEFINITION. What passes when no command waits: one 10 ns unit of the duration meter (R73), and the module's own work
that has no event (DESIGN CHOICE, log 1). -/

namespace Sys2Proof.Machine

/-- The requests that needed messages to a place without a neighbour entry end PEER_LOST (R433). -/
def Block.cutPlace (b : Block) (p : Nat) : Block :=
  let b := (b.qpl.searches.filter (fun x => b.waitsFor p x)).foldl (fun b x => b.endSearch x.cmd stPeerLost) b
  let b := b.updates.foldl (fun b u => b.updateLost p u) b
  b.tablesLost p

/-- Every message not sent for want of a neighbour entry, settled. -/
def Block.settleCut (b : Block) : Block :=
  let places := nub (b.transport.cut.filterMap (fun m => match m.toward with | .place p => some p | _ => none))
  let b := places.foldl Block.cutPlace b
  { b with transport := { b.transport with cut := [] } }

/-- One unit of the duration meter. PWR.CNT1 counts those in which some domain's effective level is above 0 (R84). -/
def Block.clock (b : Block) : Block :=
  if !b.clockRuns then b
  else
    let b := if (List.range 12).any (fun d => decide (0 < b.effLevel d)) then b.bump pPwr 1 else b
    { b with meter := b.meter + 1 }

/-- Threads of STOPPING jobs killed at their next handshake boundary (R260, R272), where handshakes go on. -/
def Block.killStopped (b : Block) : Block := if b.bivouac then b else b.endStops

/-- Threads of search contexts that wait for a core start where one is free now, while handshakes go on (R256, R259). -/
def Block.placeWaiting (b : Block) : Block := if b.bivouac ∨ b.cores.starts = [] then b else b.placeStarts

/-- One unit of time: the clock, the messages that could not be sent, the threads of stopped jobs, those that wait for a core, the
end of a power-off's write-back. -/
def tick (b : Block) : Block := b.clock.settleCut.killStopped.placeWaiting.writeBackEnd

end Sys2Proof.Machine
end

