-- ==== Sys2Proof/WellFormed.lean ====
section
/-! DEFINITION. Which commands are well formed: the operand ranges that the types do not already hold. -/

namespace Sys2Proof

/-- The page exists (R26). -/
def PageRef.wf (p : PageRef) : Bool := decide (p.inst < p.type.instances)

/-- What a stage found names units that exist (R14, R384, R494). -/
def StageFindings.wf (f : StageFindings) : Bool :=
  decide (f.hostLinkModules ≤ 2) && f.failedStacks.all (fun n => decide (n < 9)) &&
    f.badImages.all (fun n => decide (n < 3)) && f.badPending.all (fun n => decide (n < 3)) &&
    f.presentBays.all (fun n => decide (n < 16))

/-- A core holds at most four threads: two slots and two park entries (R247). -/
def ThreadRef.wf (t : ThreadRef) : Bool := decide (t.thread < 4)

/-- A controller request stays inside its bank's row, and of 8 KiB (R157). -/
def DramReq.wf (r : DramReq) : Bool :=
  match r.write with
  | some bs => decide (r.col + bs.length ≤ 8192)
  | none => decide (r.col + r.len ≤ 8192)

/-- A load or store moves 1, 2, 4 or 8 bytes of a scalar (R249). -/
def StoreOp.wf : StoreOp → Bool
  | .loadS n _ _ => decide (n ∈ [1, 2, 4, 8])
  | .storeS n _ _ => decide (n ∈ [1, 2, 4, 8])
  | .loadV _ _ => true
  | .storeV _ _ => true

/-- A command's operands lie in the ranges the spec gives them; the operands of every other command hold by their types. -/
def Instr.wf : Instr → Bool
  | .invalidAccess _ size _ => decide (size ∈ [1, 2, 4, 8, 16, 32, 64])
  | .enableWrite p _ => p.wf
  | .drainAbortWrite p _ => p.wf
  | .initialisationEnds p _ => p.wf
  | .drained p => p.wf
  | .softResetWrite p _ => p.wf
  | .softResetEnd p => p.wf
  | .uncontainedBlockError p _ => p.wf
  | .uncorrectableError p _ _ _ => p.wf
  | .errInjectWrite p _ => p.wf
  | .startUpStageEnd f => f.wf
  | .moduleFatal cause _ => decide (1 ≤ cause.val ∧ cause.val ≤ 7)
  | .controllerRequest _ r => r.wf
  | .issueStep t _ _ _ => t.wf
  | .sig t _ _ => t.wf
  | .wait t _ _ => t.wf
  | .take t _ _ => t.wf
  | .test t _ _ => t.wf
  | .localStore t op => t.wf && op.wf
  | .hello _ credits => decide (credits.length = 8)
  | .post _ _ data => decide ((data.getD []).length ≤ 64)
  | _ => true

end Sys2Proof
end

