-- ==== Sys2Proof/Safety.lean ====
section
/-! DEFINITION. The terms in which claims about runs are stated: canonical memories, the states in which commands act, and
the commands that act whatever the package does. -/

namespace Sys2Proof

open Machine

/-- The package has power and is not in bivouac: the states in which every command of the package acts (R488, R504). -/
def Machine.State.awake (s : State) : Prop := s.block.sled.power = .on ∧ s.block.bivouac = false

/-- The register window answers an awake module (R30). -/
def Machine.State.open_ (s : State) : Prop := s.awake ∧ s.block.reachable = true

/-- The arrays of the state are in canonical form: keys strictly rising, nothing listed that an unlisted key reads as. -/
structure Machine.Block.Canonical (b : Block) : Prop where
  hostMem  : b.hostMem.wf = true
  regs     : swfBy resetValue b.regs = true
  latches  : swf none b.latches = true
  injected : swf 0 b.injected = true
  ports    : swf {} b.ports = true
  proxies  : swf none b.proxies = true
  sessions : swf {} b.sessions = true
  indexes  : swf {} b.indexes = true
  stackSet   : swf {} b.stackSet = true
  engines  : swf {} b.engines = true
  bays     : swf {} b.bays = true
  links    : swf {} b.links = true
  kept     : ∀ k, b.kept = some k → swf {} k.indexes = true

/-- No error of a page is armed: its next operation raises none of its own accord (R39). -/
def Quiet (b : Block) (p : PageRef) : Prop := sget 0 b.injected p.base = 0

/-- No work waits for a unit of the kind of a page: no operation for a slot of a selection unit, no item for a channel engine. -/
def Calm (b : Block) (p : PageRef) : Prop :=
  (p.type = .slu → ∀ o ∈ b.ops, o.unit ≠ none) ∧ (p.type = .flc → ∀ c, (b.engine c).held = [])

/-- The block without its registers and outputs: what a command that only acts on registers leaves as it is. -/
def Machine.Block.sans (b : Block) : Block := { b with regs := [], out := {} }

/-- Only the listed registers may differ. -/
def RegsBut (l : List Nat) (b b' : Block) : Prop := ∀ a, a ∉ l → b'.reg a = b.reg a

/-- Only the listed registers, and the outputs, may differ. -/
def OnlyRegs (l : List Nat) (b b' : Block) : Prop := b'.sans = b.sans ∧ RegsBut l b b'

/-- Every byte of host memory outside a span reads as before. -/
def MemBut (a n : Nat) (b b' : Block) : Prop :=
  ∀ x, x < a ∨ a + n ≤ x → Memory.byte b'.hostMem x = Memory.byte b.hostMem x

/-- A message has been sent: to a role of the module itself, to the transport, or into an egress queue. -/
def Posted (m : OutMsg) (b : Block) : Prop := m ∈ b.out.self ∨ m ∈ b.out.sent ∨ ∃ e ∈ b.egress, e.msg = m

/-- The registers that count a write of the host die and that an interrupt message changes: HLK.CNT3 and INT_CTRL. -/
def writeRegs : List Nat := [pHlk.at 0x58, pGlb.at 0x124]

/-- The registers that an error of a page changes: ERR_STATUS, ERR_FIRST and INT_CTRL. -/
def errRegs (p : PageRef) : List Nat := [p.at 0x10, p.at 0x1C, pGlb.at 0x124]

/-- The registers that an interrupt cause of a page changes: INT_STATUS and INT_CTRL. -/
def intRegs (p : PageRef) : List Nat := [p.at 0x20, pGlb.at 0x124]

/-- The registers loaded from the sled at a reset: SILICON, SERIAL, IDENT, TRIP_LAST and each MAC_ADDR. -/
def identityRegs : List Nat :=
  [pGlb.at 0x104, pGlb.at 0x108, pGlb.at 0x110, pPwr.at 0x120] ++ (List.range 8).map (fun n => (pKwf n).at 0x108)

/-- The registers that count what is sent: KWT CNT0 and CNT7, and CNT0 and CNT7 of each KWF page. -/
def sendRegs : List Nat := [pKwt.at 0x40, pKwt.at 0x78] ++ (List.range 8).flatMap (fun n => [(pKwf n).at 0x40, (pKwf n).at 0x78])

/-- A segment of a session has been discarded for want of a right tag or a fresh nonce (R429): it is counted, the error and its
session are recorded, and beside the transport only those registers differ. -/
def AuthDiscarded (b : Block) (n : Nat) (b' : Block) : Prop :=
  (b'.rx n).discards = (b.rx n).discards + 1 ∧ b'.fld pKwt 0x10 16 1 = 1 ∧ b'.get pKwt 0x118 = n + 2 ^ 31 ∧
  b'.reg (pKwt.at 0x60) = b.reg (pKwt.at 0x60) + 1 ∧ b'.sans = { b.sans with transport := b'.transport } ∧
  RegsBut (pKwt.at 0x60 :: pKwt.at 0x118 :: errRegs pKwt) b b'

/-- The same of the arrays inside the governor, the traffic manager, the key store, the transport, the cores and the health
page, of command result areas and of thread frames. -/
structure Machine.Block.CanonicalParts (b : Block) : Prop where
  domains  : swf {} b.governor.domains = true
  flows    : swf {} b.trf.flows = true
  shapers  : swf {} b.trf.shapers = true
  hwm      : swf 0 b.trf.hwm = true
  slots    : swf {} b.sec.slots = true
  firmware : swf {} b.sec.firmware = true
  rx       : swf {} b.transport.rx = true
  macs     : swf 0 b.transport.macs = true
  jobs     : swf none b.cores.jobs = true
  mxcs     : swf {} b.cores.mxcs = true
  staging  : swf [] b.cores.staging = true
  fenced   : swf [] b.cores.fenced = true
  stores   : swf .empty b.cores.stores = true
  bands    : swf {} b.health.bands = true
  areas    : ∀ c ∈ b.cmds, c.area.wf = true
  frames   : ∀ t ∈ b.cores.threads, t.frame.wf = true

/-- The numbers in use lie below the next ones, and the module IDs of members in 12 bits. -/
structure Machine.Block.NumbersFresh (b : Block) : Prop where
  cmds     : ∀ c ∈ b.cmds, c.id < b.nextCmd
  ctxs     : ∀ c ∈ b.qpl.ctxs, c.id < b.qpl.nextCtx
  ops      : ∀ o ∈ b.ops, o.id < b.nextId
  switches : ∀ r ∈ b.tblSwitches, r.id < b.nextId
  zones    : ∀ z ∈ b.ftl.zones, z.number < b.ftl.nextZone
  members  : ∀ m ∈ b.rope.members, m.id < 4096

/-- A command completes in a state of the block that has a property, and leaves the queue alone. -/
def Completes (c : Instr) (s : State) (P : Block → Prop) : Prop := ∃ b, exec c s = .next { s with block := b } ∧ P b

/-- A search can be bound and fanned out now: its deadline has not passed, IDX runs, its index binds it to a version at a
cairn, the version admits its terms and vectors, every place that it asks has a module that serves it, its die has contexts for
it, and its lane is not PURGING (R110, R126, R130, R132). -/
def Bindable (b : Block) (c : Cmd) (die : Nat) (x : Search) (ver cairn : Nat) (v : Version) : Prop :=
  b.passed c.deadline = false ∧ b.running pIdx = true ∧ x.encode = false ∧
  (c.opcode = 0x12 → b.tableHas x.table x.tversion = true ∧ ∃ l, postingSet b x.fetched x.table x.tversion x.rows = .ok l) ∧
  (b.index x.index).bind x.version x.cairn = .bound ver cairn ∧ (b.index x.index).version ver = some v ∧
  boundCheck v.root x.dim x.terms = false ∧ (∀ p ∈ b.searchPlaces x.index v, b.placeReady p = true) ∧
  b.ctxUsed die + x.queries.length ≤ 131072 ∧ b.lanePurging c.pitch = false

/-- A search has been bound and fanned out (R130, R131): it holds one context per query, and each place that holds a shard of
the version has been sent a shard request of each query when R137 leaves a budget. -/
def FannedOut (b b' : Block) (c : Cmd) (x : Search) (ver cairn : Nat) (v : Version) : Prop :=
  (∃ y, b'.searchOf c.id = some y ∧ y.bound = true ∧ y.version = ver ∧ y.cairn = cairn ∧ y.k = x.k ∧
    y.queries.length = x.queries.length ∧ y.ctxs = span b.qpl.nextCtx x.queries.length) ∧
  (∀ i, i < x.queries.length → ∃ y ∈ b'.qpl.ctxs, y.id = b.qpl.nextCtx + i ∧ y.work = .admitted c.id i ∧
    y.index = x.index ∧ y.version = ver ∧ y.cairn = cairn ∧ y.deadline = c.deadline ∧ y.pitch = c.pitch) ∧
  (shardBudget (b.remaining c) (b.fld (pQpl 0) 0x108 0 16) ≠ 0 →
    ∀ i, i < x.queries.length → ∀ p ∈ b.searchPlaces x.index v, ∃ m, Posted m b' ∧ m.toward = .place p ∧
      m.kind = .shardRequest ∧ m.args = [b.qpl.nextCtx + i]) ∧
  b'.hostMem = b.hostMem

/-! ## Threads and commands at work -/

/-- A thread of a RUNNING job can issue its next instruction (R248, R249, R252). -/
structure Ready (b : Block) (t : ThreadRef) (j : Nat) (x : Job) (y : Thread) : Prop where
  here   : b.thread t = some (j, x, y)
  goes   : y.waiting = none ∧ y.parked = false
  core   : b.coreRuns t.cluster.val = true
  turn   : b.turn t = true
  quiet  : Quiet b (pScl t.cluster.val)
  inCode : y.pc + 4 ≤ x.codeLen

/-- A thread past the instruction it has issued. -/
def Machine.Thread.past (y : Thread) : Thread := { y with pc := y.pc + 4 }

/-- A thread has issued an instruction (R249): it is now as given, no other thread has changed, its cluster's CNT0 has advanced,
and beside it only the listed registers differ. -/
structure Issued (b b' : Block) (t : ThreadRef) (j : Nat) (x : Job) (z : Thread) (l : List Nat) : Prop where
  thread  : b'.thread t = some (j, x, z)
  others  : ∀ u, u ≠ t → b'.thread u = b.thread u
  count   : b'.reg ((pScl t.cluster.val).at 0x40) = b.reg ((pScl t.cluster.val).at 0x40) + 1
  regs    : RegsBut ((pScl t.cluster.val).at 0x40 :: l) b b'
  jobs    : b'.cores.jobs = b.cores.jobs
  cmds    : b'.cmds = b.cmds
  hostMem : b'.hostMem = b.hostMem

/-- The run of a job has ended with a status (R273): the job is LOADED and none of its threads is left. -/
def RunEnded (b : Block) (j st : Nat) : Prop :=
  (∃ y, b.job j = some y ∧ y.st = .loaded ∧ y.lastEnd = st) ∧ ∀ th ∈ b.cores.threads, th.job ≠ j

/-- A counter can take one more signal of 1. -/
def Takes (b : Block) (r : CounterRef) : Prop := ∀ i, b.ctrInfo r = some i → (b.ctr r i.init).value + 1 ≤ i.bound

/-- A counter has taken a signal of 1 (R262). -/
def Took (b b' : Block) (r : CounterRef) : Prop :=
  ∀ i, b.ctrInfo r = some i → (b'.ctr r i.init).value = (b.ctr r i.init).value + 1

/-- The WAIT of a step or a schedule entry on a matrix-core counter holds (R292, R301). -/
def WaitHolds (b : Block) (m : Fin 64) (en : Bool) (ctr n : Nat) : Prop :=
  en = true → ∃ i, b.ctrInfo (.matrix m (Fin.ofNat 64 ctr)) = some i ∧ n ≤ i.bound ∧
    n ≤ (b.ctr (.matrix m (Fin.ofNat 64 ctr)) i.init).value

/-- A command of an opcode, handed to its block, is admitted now on one of some dies (R58, R82): its deadline has not passed,
admission is open there, and its payload is not in the pool. `c` is the command at work and `b` the block that holds it so. -/
def Handed (s : State) (id op : Nat) (dies : List Nat) (c : Cmd) (b : Block) : Prop :=
  s.awake ∧ s.block.Canonical ∧ s.block.CanonicalParts ∧ ∃ d die,
    s.block.cmd id = some d ∧ d.phase = .handed ∧ d.opcode = op ∧ s.block.passed d.deadline = false ∧
    s.block.recheck d = .pass ∧
    (if throttled op then dies.filter (fun n => !s.block.admitClosed n) else dies).head? = some die ∧
    (d.payValid = false ∨ d.pay.space ≠ 1) ∧
    c = { d with phase := .working, die := die, admitted := true } ∧
    b = (s.block.deliver d).setCmd id (fun c => { c with phase := .working, die := die, admitted := true })

/-- The commands of the standby controller, its SMBus target, the buttons, the power stage and the reference: they act at
the sled, whatever the package does (R504, R524 to R528, R533). -/
def Instr.atSled : Instr → Bool
  | .powerUp | .powerRestart | .referenceLost | .busbarUndervoltage | .powerStageOvercurrent | .mateOpen
  | .smbusStatus _ | .smbusTripLast _ | .smbusFatal _ | .powerRead _ | .powerOn _ | .powerOff _ _ | .smbusColdReset _
  | .locate _ _ | .ident _ | .setModuleId _ _ | .locateButton _ | .moduleServiceButton _ | .flowLow _ | .leak _
  | .svcPresent _ | .trstAsserted _ | .unreachableAccess _ _ => true
  | _ => false

/-- The commands of the package that act in bivouac as well: the test access port, the thermal trip and the limit of a
power-off (R488, R489, R526). -/
def Instr.inBivouac : Instr → Bool
  | .bypass _ | .idcode | .samplePreload _ _ | .extest _ | .challenge | .token _ | .freeze | .chainSel _ | .chainLen
  | .chainRead | .chainWrite _ | .thermalLevelChange _ _ | .powerOffLimit => true
  | _ => false

/-- The commands that can start a cold reset or a power-up from bivouac (R503, R504). -/
def Instr.restarts : Instr → Bool
  | .powerUp | .powerRestart | .referenceLost | .powerOn _ | .smbusColdReset _ | .moduleServiceButton _ => true
  | _ => false

end Sys2Proof
end

