-- ==== Sys2Proof/Certificates/Slice0/Obligations.lean ====
section
/-! DEFINITION. The statements for the provers: what each family of commands does, by the rules of the spec. -/

open Sys2Proof Sys2Proof.Machine

/-! ## The machine -/

/-- The command at the front of the queue is run on the rest of the queue. With no command waiting, one unit of the duration
meter passes (the model's tick: log 1). -/
def Obligations.StepRunsFrontCommand : Prop :=
  (∀ (c : Instr) (rest : List Instr) (b : Block), step ⟨c :: rest, b⟩ = exec c ⟨rest, b⟩) ∧
  (∀ b : Block, b.sled.power = .on → b.bivouac = false → b.stage ≠ .rails → b.transport.cut = [] →
     (∀ e ∈ b.jobList, e.2.st ≠ .stopping) → ∃ b', step ⟨[], b⟩ = .next ⟨[], b'⟩ ∧ b'.meter = b.meter + 1 ∧ b'.hostMem = b.hostMem ∧
       (b.sled.poweringOff = false → b'.sled = b.sled ∧ b'.stage = b.stage))

/-- Every command answers a next state, and the queue stays as it is. Without package power only the commands of the sled
act. In bivouac a command of the package other than the test access port's, the thermal trip and the limit of a power-off
changes nothing. (Choices of the model in it: log 10, 109.) -/
def Obligations.CommandsActWhenAwake : Prop :=
  (∀ (c : Instr) (s : State), ∃ b, exec c s = .next { s with block := b }) ∧
  (∀ (c : Instr) (s : State), s.block.sled.power ≠ .on → c.atSled = false → exec c s = .next s) ∧
  (∀ (c : Instr) (s : State), s.block.bivouac = true → c.atSled = false → c.inBivouac = false → exec c s = .next s)

/-- Bivouac and a module-fatal error are left only through a cold reset or a power-up; out of bivouac only the commands lead
that can start one there. At the end of stage MEDIA a bay whose cartridge is present is powered, whatever it was at the
reset. -/
def Obligations.BivouacLeftOnlyByReset : Prop :=
  (∀ s t : State, s.block.bivouac = true → step s = .next t → t.block.bivouac = false →
    (∃ c rest, s.pending = c :: rest ∧ c.restarts = true) ∧
      (t.block.stage = .rails ∨ t.block.stage = .boot) ∧ t.block.resetKind ≠ .warm) ∧
  (∀ s t : State, s.block.fatal = true → step s = .next t → t.block.fatal = false →
    (t.block.stage = .rails ∨ t.block.stage = .boot) ∧ t.block.resetKind ≠ .warm) ∧
  (∀ (s : State) (f : StageFindings) (n : Nat), s.awake → s.block.Canonical → s.block.stage = .media → s.block.stuck = false →
    n < 16 → n ∈ f.presentBays → Completes (.startUpStageEnd f) s (fun b => b.stage = .restore ∧
      (b.bay n).present = true ∧ (b.bay n).rail = true))

/-- Every step keeps the arrays of the state, and those inside its parts, in canonical form. -/
def Obligations.StepKeepsCanonicalForm : Prop :=
  ∀ s t : State, s.block.Canonical → s.block.CanonicalParts → step s = .next t → t.block.Canonical ∧ t.block.CanonicalParts

/-- Every step keeps the numbers of commands, contexts, operations, table switches and zones below the next ones, and module
IDs of members within 12 bits. -/
def Obligations.StepKeepsNumbersFresh : Prop :=
  ∀ s t : State, s.block.NumbersFresh → step s = .next t → t.block.NumbersFresh

/-- The state after reset: stage RAILS, every page OFF, no command in flight or waiting, every counter 0, canonical. (Choices
of the model in it: log 3, 113.) -/
def Obligations.ResetState : Prop :=
  State.reset.pending = [] ∧ State.reset.block.stage = .rails ∧ State.reset.block.cmds = [] ∧
    (∀ p : PageRef, p.implemented = true → State.reset.block.pageState p = 0 ∧
      ∀ n, n < 8 → State.reset.block.reg (p.at (0x40 + 8 * n)) = 0) ∧
    State.reset.block.Canonical ∧ State.reset.block.CanonicalParts ∧ State.reset.block.NumbersFresh

/-! ## Registers -/

/-- Every register access of the host die that the window answers completes. A write of ERR_MASK or INT_ENABLE gives the bits
that the page uses the bits written; no other register changes but the count of writes (HLK.CNT3) and INT_CTRL. A read of
INT_SUMMARY returns the pages that assert, and one that returns zero sets ARMED; INT_CTRL.EN written from 0 to 1 sets it too
and sends one message when a cause is there, written 1 again it leaves ARMED, and EN 0 clears it. An invalid access reads 0 and
writes nothing; the first since ACCESS was cleared sets ACCESS and records its offset. An access that the window does not answer
returns all ones and has no effect. A 32-bit register, and a 64-bit one by a 64-bit access, is read whole at one instant; the
lower half of a 64-bit register is read with its upper half held in the register's latch; the next read of the upper half
returns the latch and empties it, and without one it returns the live half. (Choices of the model in it: log 104, 105.) -/
def Obligations.RegisterAccesses : Prop :=
  (∀ (s : State) (p : PageRef) (v : BitVec 64), s.open_ → s.block.Canonical → p.implemented = true → Quiet s.block pGlb →
     Completes (.registerWrite (BitVec.ofNat 26 (p.at 0x14)) false v) s (fun b =>
       b.fld p 0x14 0 7 = bits (v &&& p.errBits) 0 7 ∧ b.fld p 0x14 16 16 = bits (v &&& p.errBits) 16 16 ∧
       b.hostMem = s.block.hostMem ∧ RegsBut [p.at 0x14, pHlk.at 0x58, pGlb.at 0x124] s.block b) ∧
     Completes (.registerWrite (BitVec.ofNat 26 (p.at 0x24)) false v) s (fun b =>
       b.fld p 0x24 0 4 = bits (v &&& p.intBits) 0 4 ∧ b.fld p 0x24 16 16 = bits (v &&& p.intBits) 16 16 ∧
       b.hostMem = s.block.hostMem ∧ RegsBut [p.at 0x24, pHlk.at 0x58, pGlb.at 0x124] s.block b)) ∧
  ((∀ (s : State), s.open_ → s.block.Canonical →
     Completes .intSummaryRead s (fun b => b.out.readData = (s.block.bump pHlk 2).intSummary ∧
       b.out.interrupts = s.block.out.interrupts ∧ b.cmds = s.block.cmds ∧ b.hostMem = s.block.hostMem ∧
       ((s.block.bump pHlk 2).intSummary = 0 → b.fld pGlb 0x124 1 1 = 1 ∧ RegsBut [pHlk.at 0x50, pGlb.at 0x124] s.block b) ∧
       ((s.block.bump pHlk 2).intSummary ≠ 0 → RegsBut [pHlk.at 0x50] s.block b))) ∧
   (∀ (s : State) (v : BitVec 32), s.open_ → s.block.Canonical →
     Completes (.intCtrlEnWrite v) s (fun b => b.fld pGlb 0x124 0 1 = flag (v.getLsbD 0) ∧
       RegsBut [pHlk.at 0x58, pGlb.at 0x124] s.block b ∧ b.cmds = s.block.cmds ∧ b.hostMem = s.block.hostMem ∧
       (v.getLsbD 0 = false → b.fld pGlb 0x124 1 1 = 0 ∧ b.out.interrupts = s.block.out.interrupts) ∧
       (v.getLsbD 0 = true → s.block.fld pGlb 0x124 0 1 = 0 → (s.block.bump pHlk 3).intSummary = 0 →
         b.fld pGlb 0x124 1 1 = 1 ∧ b.out.interrupts = s.block.out.interrupts) ∧
       (v.getLsbD 0 = true → s.block.fld pGlb 0x124 0 1 = 0 → (s.block.bump pHlk 3).intSummary ≠ 0 →
         b.fld pGlb 0x124 1 1 = 0 ∧ b.out.interrupts = s.block.out.interrupts + 1) ∧
       (v.getLsbD 0 = true → s.block.fld pGlb 0x124 0 2 = 1 →
         b.fld pGlb 0x124 1 1 = 0 ∧ b.out.interrupts = s.block.out.interrupts)))) ∧
  ((∀ (s : State) (off : BitVec 26) (size : Nat) (write : Bool), s.open_ → s.block.Canonical →
     validAccess off.toNat size = false →
     Completes (.invalidAccess off size write) s (fun b =>
       (write = false → b.out.readData = 0) ∧
       (s.block.fld pGlb 0x10 5 1 = 0 → b.fld pGlb 0x10 5 1 = 1 ∧ b.get pGlb 0x128 = off.toNat ∧
         RegsBut (pGlb.at 0x128 :: errRegs pGlb) s.block b) ∧
       (s.block.fld pGlb 0x10 5 1 = 1 → b.regs = s.block.regs) ∧
       b.cmds = s.block.cmds ∧ b.hostMem = s.block.hostMem)) ∧
   (∀ (s : State) (off : BitVec 26) (size : Nat) (write : Bool), validAccess off.toNat size = true →
     exec (.invalidAccess off size write) s = .next s) ∧
   (∀ (s : State) (off : BitVec 26), s.block.reachable = false →
     Completes (.unreachableAccess off false) s (fun b =>
       b.out.readData = 0xFFFFFFFF ∧ b.regs = s.block.regs ∧ b.hostMem = s.block.hostMem ∧ b.cmds = s.block.cmds) ∧
     exec (.unreachableAccess off true) s = .next s)) ∧
  ((∀ (s : State) (off : BitVec 26) (wide : Bool), s.open_ → s.block.Canonical → Quiet s.block pGlb →
     ∀ t, locate off.toNat wide = some t → t.upper = false → t.page.at t.off ≠ pGlb.at 0x120 →
     Completes (.lowerHalfRead ⟨off, wide⟩) s (fun b => RegsBut [pHlk.at 0x50] s.block b ∧ b.cmds = s.block.cmds ∧
       b.hostMem = s.block.hostMem ∧
       (t.desc.bits = 32 ∨ wide = true → b.latches = s.block.latches ∧
         b.out.readData = t.desc.hidden (BitVec.ofNat 64 ((s.block.bump pHlk 2).view t.page t.off))) ∧
       (t.desc.bits = 64 → wide = false → ∃ x, sget none b.latches (t.page.at t.off) = some x ∧
         b.out.readData.toNat + 2 ^ 32 * x.toNat =
           (t.desc.hidden (BitVec.ofNat 64 ((s.block.bump pHlk 2).view t.page t.off))).toNat))) ∧
   (∀ (s : State) (off : BitVec 26), s.open_ → s.block.Canonical → Quiet s.block pGlb →
     ∀ t, locate off.toNat false = some t → t.upper = true →
     Completes (.upperHalfRead off) s (fun b => RegsBut [pHlk.at 0x50] s.block b ∧ b.cmds = s.block.cmds ∧
       b.hostMem = s.block.hostMem ∧ sget none b.latches (t.page.at t.off) = none ∧
       (∀ x, sget none s.block.latches (t.page.at t.off) = some x → b.out.readData = x.setWidth 64) ∧
       (sget none s.block.latches (t.page.at t.off) = none → b.out.readData.toNat =
         (t.desc.hidden (BitVec.ofNat 64 ((s.block.bump pHlk 2).view t.page t.off))).toNat / 2 ^ 32))))

/-! ## Pages -/

/-- ENABLE written to an OFF page begins its initialisation, which ends in RUNNING; ENABLE 0 drains a RUNNING page, and a
DRAINING page without work reaches OFF; DRAIN_ABORT has no effect on a RUNNING page, and ends
the requests that wait in a DRAINING stack's queue. SOFT_RESET written to a page that is OFF
or in FAULT and bound to no job clears ENABLE and DRAIN_ABORT and leaves the page OFF; in any other state, and while a reset
lasts, a CTRL write that the state does not take changes nothing but CTRL_CONFLICT; its end disarms the page's injections.
(Choices of the model in it: log 99, 100.) -/
def Obligations.PageStateChanges : Prop :=
  (∀ (s : State) (p : PageRef) (v : BitVec 32), s.open_ → s.block.Canonical → p.implemented = true → Quiet s.block p →
     fixedPage p.type = false → p.type ≠ .bay → p ∉ s.block.resetting →
     (s.block.pageState p = 0 → v.getLsbD 2 = false → v.getLsbD 0 = true →
       Completes (.enableWrite p v) s (fun b => b.pageState p = 1 ∧ b.fld p 8 0 1 = 1 ∧ b.cmds = s.block.cmds ∧
         RegsBut [p.at 8, p.at 0xC, pHlk.at 0x58] s.block b)) ∧
     (s.block.pageState p = 2 → Calm s.block p → v.getLsbD 2 = false → v.getLsbD 1 = false → v.getLsbD 0 = false →
       Completes (.enableWrite p v) s (fun b => b.pageState p = 3 ∧ b.fld p 8 0 1 = 0 ∧ b.cmds = s.block.cmds)) ∧
     (s.block.pageState p = 2 → v.getLsbD 2 = false → v.getLsbD 0 = true →
       Completes (.drainAbortWrite p v) s (fun b => b.pageState p = 2 ∧ b.fld p 8 1 1 = flag (v.getLsbD 1) ∧
         b.cmds = s.block.cmds ∧ RegsBut [p.at 8, pHlk.at 0x58] s.block b)) ∧
     (s.block.pageState p = 3 → p.type = .mem → (s.block.stack p.inst).sweeps = [] →
       (∀ r ∈ (s.block.stack p.inst).waiting, r.cmd = none) → v.getLsbD 2 = false → v.getLsbD 1 = true → v.getLsbD 0 = false →
       Completes (.drainAbortWrite p v) s (fun b => b.pageState p = 3 ∧ b.fld p 8 1 1 = 1 ∧
         (b.stack p.inst).waiting = [] ∧ b.inflight p = 0 ∧ (∀ m, m ≠ p.inst → b.stack m = s.block.stack m) ∧
         b.sans = { s.block.sans with stackSet := b.stackSet } ∧ RegsBut [p.at 8, pHlk.at 0x58] s.block b)) ∧
     (s.block.pageState p = 3 ∨ s.block.pageState p = 4 → v.getLsbD 2 = false → v.getLsbD 0 = true →
       Completes (.enableWrite p v) s (fun b => b.pageState p = s.block.pageState p ∧ b.fld p 0x10 4 1 = 1 ∧
         b.cmds = s.block.cmds ∧ RegsBut (pHlk.at 0x58 :: errRegs p) s.block b))) ∧
  (∀ (s : State) (p : PageRef), s.awake → s.block.Canonical → p.implemented = true → p.type ≠ .bay →
     (s.block.pageState p = 1 → Calm s.block p → (p.type = .pim → s.block.pageState (pMem p.inst) = 2) →
       Completes (.initialisationEnds p []) s (fun b => b.pageState p = 2 ∧ b.fld p 0x20 1 1 = 1 ∧ b.cmds = s.block.cmds)) ∧
     (s.block.pageState p = 3 → s.block.inflight p = 0 → p.type ≠ .kwf → (p.type = .kwt → s.block.rope.jstate ≠ 3) →
       Completes (.drained p) s (fun b => b.pageState p = 0 ∧ b.fld p 0x20 3 1 = 1 ∧ b.cmds = s.block.cmds))) ∧
  ((∀ (s : State) (p : PageRef) (v : BitVec 32), s.open_ → s.block.Canonical → p.implemented = true → Quiet s.block p →
     fixedPage p.type = false → p.type ≠ .bay → p ∉ s.block.resetting → v.getLsbD 2 = true →
     ((s.block.pageState p = 0 ∨ s.block.pageState p = 4) → s.block.resetBound p = false → (p.type = .kwt → s.block.rope.jstate ≠ 3) →
       Completes (.softResetWrite p v) s (fun b =>
         b.pageState p = 0 ∧ b.fld p 8 0 2 = 0 ∧ p ∈ b.resetting ∧ b.cmds = s.block.cmds ∧ b.hostMem = s.block.hostMem)) ∧
     ((s.block.pageState p ≠ 0 ∧ s.block.pageState p ≠ 4) ∨ s.block.resetBound p = true →
       Completes (.softResetWrite p v) s (fun b =>
         b.pageState p = s.block.pageState p ∧ b.fld p 0x10 4 1 = 1 ∧ b.resetting = s.block.resetting ∧
         RegsBut (pHlk.at 0x58 :: errRegs p) s.block b))) ∧
   (∀ (s : State) (p : PageRef) (v : BitVec 32), s.open_ → s.block.Canonical → p.implemented = true → Quiet s.block p →
     (p ∈ s.block.resetting ∨ (fixedPage p.type = true ∧ (v.getLsbD 2 = true ∨ v.getLsbD 0 = false))) →
     ∀ c ∈ [Instr.enableWrite p v, .drainAbortWrite p v, .softResetWrite p v], Completes c s (fun b =>
       b.pageState p = s.block.pageState p ∧ b.fld p 0x10 4 1 = 1 ∧ b.resetting = s.block.resetting ∧
       RegsBut (pHlk.at 0x58 :: errRegs p) s.block b)) ∧
   (∀ (s : State) (p : PageRef), s.awake → s.block.Canonical → p ∈ s.block.resetting → p.type ≠ .kwt → p.type ≠ .bay →
     Completes (.softResetEnd p) s (fun b => p ∉ b.resetting ∧ sget 0 b.injected p.base = 0 ∧ b.cmds = s.block.cmds ∧
       b.hostMem = s.block.hostMem)) ∧
   (∀ (s : State) (p : PageRef), p ∉ s.block.resetting → exec (.softResetEnd p) s = .next s))

/-- An error that a block cannot contain takes its page to FAULT with ENABLE 0; one that ends a request is recorded and
changes no page state. Both set the page's error bit; a bit that the page does not use is no error. A bit written to ERR_INJECT
is armed, unless the field-lock fuse is blown, and the page's next operation that can carry the error raises it once: a read
that MEM has to serve meets an armed end-to-end mismatch. (Choices of the model in it: log 101.) -/
def Obligations.ErrorsOfPages : Prop :=
  (∀ (s : State) (p : PageRef) (n : Fin 32), s.awake → s.block.Canonical → p.implemented = true →
    (p.type ∈ [PageType.glb, .rop, .hlt, .dbg] → p.errBits.getLsbD n.val = true →
      s.block.pageState p = 1 ∨ s.block.pageState p = 2 ∨ s.block.pageState p = 3 →
      Completes (.uncontainedBlockError p n) s (fun b =>
        b.pageState p = 4 ∧ b.fld p 8 0 1 = 0 ∧ b.fld p 0x10 n.val 1 = 1 ∧ b.cmds = s.block.cmds ∧ b.hostMem = s.block.hostMem)) ∧
    (p.type = .pwr ∨ p.errBits.getLsbD n.val = false ∨ s.block.pageState p = 0 ∨ s.block.pageState p = 4 →
      exec (.uncontainedBlockError p n) s = .next s)) ∧
  (∀ (s : State) (p : PageRef) (n : Fin 32) (unit : Nat), s.awake → s.block.Canonical → p.implemented = true →
    (p.errBits.getLsbD n.val = true → (p.type = .scl → n.val ≠ 17) →
      Completes (.uncorrectableError p n unit none) s (fun b =>
        b.pageState p = s.block.pageState p ∧ b.fld p 0x10 n.val 1 = 1 ∧ b.cmds = s.block.cmds ∧
        RegsBut (errRegs p) s.block b)) ∧
    (p.errBits.getLsbD n.val = false → exec (.uncorrectableError p n unit none) s = .next s)) ∧
  (∀ (s : State) (p : PageRef) (v : BitVec 32), s.open_ → s.block.Canonical → p.implemented = true →
    Completes (.errInjectWrite p v) s (fun b => RegsBut [pHlk.at 0x58] s.block b ∧ b.cmds = s.block.cmds ∧
      (s.block.fieldLock = true → b.injected = s.block.injected) ∧
      (s.block.fieldLock = false →
        sget 0 b.injected p.base = sget 0 s.block.injected p.base ||| v &&& p.errBits.setWidth 32 ∧
        ∀ q : PageRef, q.base ≠ p.base → sget 0 b.injected q.base = sget 0 s.block.injected q.base))) ∧
  (∀ (s : State) (n : Fin 9) (r : DramReq), s.awake → s.block.Canonical → s.block.pageState (pMem n.val) = 2 → r.cmd = none →
    sget 0 s.block.injected (pMem n.val).base = 2#32 →
    Completes (.controllerRequest n r) s (fun b => b.fld (pMem n.val) 0x10 1 1 = 1 ∧ Quiet b (pMem n.val) ∧
      RegsBut (errRegs (pMem n.val)) s.block b ∧ b.stackSet = s.block.stackSet ∧ b.cmds = s.block.cmds))

/-! ## Resets and start-up -/

/-- GLB.RESET with the key performs a warm reset (WARM alone) or a cold reset (COLD); without the key it does nothing. A warm
reset keeps the meter, the lock and the slot keys; a cold one resets every register that is not loaded from the sled.
(Choices of the model in it: log 94.) -/
def Obligations.ResetWrites : Prop :=
  ∀ (s : State) (v : BitVec 32), s.open_ → s.block.Canonical →
    (v.toNat / 65536 = 0xB4C5 → v.getLsbD 1 = false → v.getLsbD 0 = true →
      Completes (.resetWarm v) s (fun b => b.stage = (if s.block.stuck then s.block.stage else .boot) ∧ b.resetKind = .warm ∧ b.cmds = [] ∧ b.sessions = [] ∧
        b.meter = s.block.meter ∧ b.fld pGlb 0x118 0 1 = s.block.fld pGlb 0x118 0 1 ∧
        (∀ p : PageRef, p.implemented = true → b.pageState p = 0) ∧ b.hostMem = s.block.hostMem ∧
        b.ftl.zones = s.block.ftl.zones)) ∧
    (v.toNat / 65536 = 0xB4C5 → v.getLsbD 1 = true →
      Completes (.resetCold v) s (fun b => b.stage = .boot ∧ b.resetKind = .cold ∧ b.cmds = [] ∧ b.sessions = [] ∧
        b.meter = 0 ∧ b.dramParts = [] ∧ (∀ a, a ∉ identityRegs → b.reg a = resetValue a) ∧ b.hostMem = s.block.hostMem ∧
        b.ftl.zones = s.block.ftl.zones)) ∧
    (v.toNat / 65536 ≠ 0xB4C5 → Completes (.resetCold v) s (fun b => OnlyRegs writeRegs s.block b) ∧
      Completes (.resetWarm v) s (fun b => OnlyRegs writeRegs s.block b))

/-- CFG_LOCK written 1 sets the configuration lock; from then until the next cold reset a write to a register with an RWL
field leaves its RWL fields as they are and sets LOCKED_WRITE; a warm reset keeps the lock. -/
def Obligations.ConfigurationLock : Prop :=
  (∀ (s : State) (v : BitVec 32), s.open_ → s.block.Canonical →
    (v.getLsbD 0 = true → Completes (.cfgLock v) s (fun b => b.locked = true ∧ OnlyRegs (pGlb.at 0x118 :: writeRegs) s.block b)) ∧
    (v.getLsbD 0 = false → Completes (.cfgLock v) s (fun b => OnlyRegs writeRegs s.block b)) ∧
    (s.block.locked = true → v.toNat / 65536 = 0xB4C5 → (v.getLsbD 1 = true → Completes (.resetCold v) s (fun b =>
        b.locked = false)) ∧
      (v.getLsbD 1 = false → v.getLsbD 0 = true → Completes (.resetWarm v) s (fun b => b.locked = true)))) ∧
  (∀ (s : State) (off : BitVec 26) (wide : Bool) (w : BitVec 64), s.open_ → s.block.Canonical → s.block.locked = true →
    ∀ t, locate off.toNat wide = some t → t.desc.hasRwl = true → Quiet s.block pGlb → Quiet s.block t.page → Completes (.registerWrite off wide w) s (fun b =>
      (∀ f ∈ t.desc.fields, f.acc = .rwl → b.fld t.page t.off f.lo f.width = s.block.fld t.page t.off f.lo f.width) ∧
      b.fld pGlb 0x10 6 1 = 1)) ∧
  (∀ (s : State) (w : BitVec 64), s.open_ → s.block.Canonical → s.block.locked = true → Quiet s.block pFtl →
    Completes (.zlogBaseWrite w) s (fun b => b.reg (pFtl.at 0x110) = s.block.reg (pFtl.at 0x110) ∧ b.fld pGlb 0x10 6 1 = 1)) ∧
  (∀ s t : State, s.block.Canonical → s.block.locked = true → step s = .next t →
    t.block.locked = true ∨ ((t.block.stage = .rails ∨ t.block.stage = .boot) ∧ t.block.resetKind ≠ .warm))

/-- Each stage of start-up ends in the next one: the meter starts at 0 after RAILS, a warm reset goes from BOOT to BLOCKS,
DIE_LINKS brings up GLB and HLK, and DONE is reached with the reset in LAST_RESET. (Choices of the model in it: log 93.) -/
def Obligations.StartUpStages : Prop :=
  ∀ (s : State) (f : StageFindings), s.awake → s.block.Canonical → s.block.stuck = false → s.block.fatal = false →
    (s.block.stage = .rails →
      exec (.startUpStageEnd f) s = .next { s with block := { s.block with stage := .boot, meter := 0 } }) ∧
    (s.block.stage = .boot → f.badImages = [] → s.block.resetKind ≠ .warm →
      Completes (.startUpStageEnd f) s (fun b => b.stage = .dieLinks ∧ b.hostMem = s.block.hostMem)) ∧
    (s.block.stage = .boot → f.badImages = [] → s.block.resetKind = .warm →
      Completes (.startUpStageEnd f) s (fun b => b = { s.block with stage := .blocks })) ∧
    (s.block.stage = .dieLinks → f.hostLinkModules ≠ 0 → f.dieLinkLost = false →
      Completes (.startUpStageEnd f) s (fun b => b.stage = .memory ∧ b.pageState pGlb = 2 ∧ b.pageState pHlk = 2 ∧
        b.cmds = s.block.cmds ∧ b.hostMem = s.block.hostMem)) ∧
    (s.block.stage = .memory →
      Completes (.startUpStageEnd f) s (fun b => b.stage = .blocks ∧ b.cmds = s.block.cmds ∧ b.hostMem = s.block.hostMem)) ∧
    (s.block.stage = .blocks → 1 ∉ f.badImages →
      Completes (.startUpStageEnd f) s (fun b => b.stage = .media ∧ b.cmds = s.block.cmds ∧ b.hostMem = s.block.hostMem)) ∧
    (s.block.stage = .restore → s.block.kept = none → s.block.tstate ≠ 2 → s.block.resetKind = .warm →
      Completes (.startUpStageEnd f) s (fun b => b.stage = .done ∧ b.get pGlb 0x144 = 2 ∧ b.cmds = s.block.cmds ∧
        b.hostMem = s.block.hostMem))

/-- A module-fatal error records its cause, the stage and the site with VALID in the sled, stops every page from taking work,
and before DONE keeps the module in its stage; a stage that passes its limit has cause 6. (Choices of the model in it: log
93.) -/
def Obligations.ModuleFatalErrors : Prop :=
  (∀ (s : State) (cause site : Fin 16), s.awake → 1 ≤ cause.val → cause.val ≤ 7 → s.block.fatal = false →
    Completes (.moduleFatal cause site) s (fun b => b.fatal = true ∧ b.halted = true ∧ (b.stuck = true ↔ b.stage ≠ .done) ∧
      b.sled.fatal.getLsbD 63 = true ∧ bits b.sled.fatal 0 4 = cause.val ∧ bits b.sled.fatal 4 4 = b.stage.code ∧
      bits b.sled.fatal 8 4 = site.val ∧ b.stage = s.block.stage ∧ b.sled.power = .on ∧
      (s.block.cmds = [] → b.regs = s.block.regs ∧ b.hostMem = s.block.hostMem))) ∧
  (∀ (s : State), s.awake → s.block.stage ≠ .done → s.block.stuck = false → s.block.fatal = false →
    Completes .stageLimitExceeded s (fun b => b.stuck = true ∧ b.fatal = true ∧ bits b.sled.fatal 0 4 = 6 ∧
      b.stage = s.block.stage ∧ (s.block.cmds = [] → b.regs = s.block.regs ∧ b.hostMem = s.block.hostMem)))

/-! ## Package power and the standby controller -/

/-- What removes package power and what brings it back: each trip removes it and records its cause in TRIP_LAST; after an
overcurrent no restart comes by itself. (Choices of the model in it: log 97.) -/
def Obligations.PowerTrips : Prop :=
  ∀ s : State,
    (s.block.sled.power = .off → Completes .powerUp s (fun b =>
      b.stage = .rails ∧ b.resetKind = .power ∧ b.sled.power = .on ∧ b.sled.tripLast = 0 ∧ b.bivouac = false ∧
      b.meter = 0 ∧ b.cmds = [] ∧ (∀ a, a ∉ identityRegs → b.reg a = resetValue a) ∧ b.hostMem = s.block.hostMem)) ∧
    (s.block.sled.power = .on → Completes .busbarUndervoltage s (fun b =>
      b.sled.power = .tripped 3 ∧ b.sled.tripLast = 3 ∧ (b.sled.alert = (s.block.sled.alert || decide (s.block.sled.tripLast ≠ 3))) ∧
      b.regs = s.block.regs ∧ b.hostMem = s.block.hostMem)) ∧
    (s.block.sled.power = .on → Completes .powerStageOvercurrent s (fun b =>
      b.sled.power = .tripped 4 ∧ b.sled.tripLast = 4 ∧ (b.sled.alert = (s.block.sled.alert || decide (s.block.sled.tripLast ≠ 4))) ∧
      b.regs = s.block.regs ∧ b.hostMem = s.block.hostMem)) ∧
    (∀ c, s.block.sled.power = .tripped c → c ≠ 4 → Completes .powerRestart s (fun b =>
      b.stage = .rails ∧ b.resetKind = .power ∧ b.sled.power = .on ∧ b.sled.tripLast = s.block.sled.tripLast ∧ b.cmds = [] ∧
      b.hostMem = s.block.hostMem)) ∧
    (s.block.sled.power = .tripped 4 → exec .powerRestart s = .next s) ∧
    Completes .mateOpen s (fun b => b.sled.power = .off ∧ b.sled.mateOpen = true ∧ b.regs = s.block.regs ∧
      b.hostMem = s.block.hostMem ∧ b.kept = s.block.kept)

/-- A lost reference removes package power and starts a power-up; TRIP_LAST records it and the meter's value is not kept. -/
def Obligations.ReferenceLoss : Prop :=
  ∀ s : State, s.block.sled.power = .on → Completes .referenceLost s (fun b =>
    b.stage = .rails ∧ b.resetKind = .power ∧ b.sled.power = .on ∧ b.sled.tripLast = 2 ∧ b.meter = 0 ∧ b.cmds = [] ∧
    b.bivouac = false ∧ (∀ a, a ∉ identityRegs → b.reg a = resetValue a) ∧ b.hostMem = s.block.hostMem)

/-- The SMBus reads: the STATUS word (which releases SMBALERT_n), TRIP_LAST, FATAL, POWER_READ and IDENT. The SMBus commands:
a power-up, a power-off with or without a write-back, its limit, a cold reset, the locate LED, the module ID; a transaction
with a wrong PEC does nothing. (Choices of the model in it: log 110, 111.) -/
def Obligations.SmbusTransactions : Prop :=
  (∀ s : State,
     Completes (.smbusStatus true) s (fun b => ∃ w, w < 2 ^ 16 ∧ b.out.smbus = some (toLe w 2) ∧
       nbits w 0 1 = flag (decide (s.block.sled.power = .on)) ∧ nbits w 9 1 = flag (s.block.sled.fatal.getLsbD 63) ∧
       nbits w 10 1 = flag s.block.sled.leak ∧ nbits w 11 1 = flag s.block.sled.lowFlow ∧
       nbits w 12 1 = flag s.block.sled.locate ∧
       (s.block.sled.power = .on → nbits w 1 4 = s.block.stage.code ∧ nbits w 5 1 = flag (decide (s.block.stage = .done)) ∧
         nbits w 6 1 = flag s.block.joined ∧ nbits w 7 2 = s.block.fld pHlt 0x10C 0 2) ∧
       (s.block.sled.power ≠ .on → nbits w 1 8 = 0) ∧ b.sled = { s.block.sled with alert := false } ∧
       b.regs = s.block.regs ∧ b.hostMem = s.block.hostMem) ∧
     Completes (.smbusTripLast true) s (fun b => b.out.smbus = some [BitVec.ofNat 8 s.block.sled.tripLast] ∧
       b.sans = s.block.sans ∧ b.regs = s.block.regs) ∧
     Completes (.smbusFatal true) s (fun b => ∃ bs, b.out.smbus = some bs ∧ bs.length = 8 ∧
       leNat bs = s.block.sled.fatal.toNat ∧ b.sans = s.block.sans ∧ b.regs = s.block.regs) ∧
     (s.block.sled.power = .on → Completes (.powerRead true) s (fun b => ∃ bs, b.out.smbus = some bs ∧ bs.length = 6 ∧
       le bs 0 2 = s.block.get pPwr 0x1C8 % 2 ^ 16 ∧ le bs 2 2 = s.block.get pPwr 0x1C4 % 2 ^ 16 ∧
       b.regs = s.block.regs ∧ b.hostMem = s.block.hostMem ∧ b.sled = s.block.sled)) ∧
     Completes (.ident true) s (fun b => ∃ bs, b.out.smbus = some bs ∧ bs.length = 16 ∧
       le bs 0 8 = s.block.sled.serial.toNat ∧ le bs 8 2 = s.block.sled.moduleId % 2 ^ 16 ∧
       b.sans = s.block.sans ∧ b.regs = s.block.regs)) ∧
  ((∀ s : State,
     (s.block.sled.power ≠ .on → s.block.sled.mateOpen = false → Completes (.powerOn true) s (fun b =>
       b.out.smbus = some [0] ∧ b.stage = .rails ∧ b.resetKind = .power ∧ b.sled.power = .on ∧ b.hostMem = s.block.hostMem)) ∧
     (s.block.sled.power = .on → Completes (.powerOn true) s (fun b =>
       b.out.smbus = some [0] ∧ b.sans = s.block.sans ∧ b.regs = s.block.regs)) ∧
     (s.block.sled.power = .on → Completes (.smbusColdReset true) s (fun b =>
       b.out.smbus = some [0] ∧ b.stage = .boot ∧ b.resetKind = .cold ∧ b.cmds = [] ∧ b.meter = 0 ∧
       b.hostMem = s.block.hostMem)) ∧
     (s.awake → s.block.sled.poweringOff = true → Completes .powerOffLimit s (fun b =>
       b.sled.power = .off ∧ b.sled.poweringOff = false ∧ b.kept.isSome = true ∧ b.regs = s.block.regs ∧
       b.hostMem = s.block.hostMem)) ∧
     (s.block.sled.poweringOff = false → exec .powerOffLimit s = .next s)) ∧
   (∀ (s : State) (d : BitVec 8),
     (s.block.sled.power = .on → s.block.joined = true → d.getLsbD 0 = false → Completes (.powerOff true d) s (fun b =>
       b.out.smbus = some [1] ∧ b.sans = s.block.sans ∧ b.regs = s.block.regs)) ∧
     (s.block.sled.power = .on → (s.block.joined = true → d.getLsbD 0 = true) → s.block.sled.poweringOff = false →
       s.block.stage ≠ .done → Completes (.powerOff true d) s (fun b =>
         b.out.smbus = some [0] ∧ b.sled.power = .off ∧ b.regs = s.block.regs ∧ b.hostMem = s.block.hostMem)) ∧
     (s.awake → (s.block.joined = true → d.getLsbD 0 = true) → s.block.sled.poweringOff = false →
       s.block.stage = .done → Completes (.powerOff true d) s (fun b =>
         b.out.smbus = some [0] ∧ b.sled.power = .on ∧ b.sled.poweringOff = true ∧ b.cmds = [] ∧ b.updates = [] ∧
         b.hostMem = s.block.hostMem)) ∧
     Completes (.locate true d) s (fun b => b.out.smbus = some [0] ∧
       b.sled = { s.block.sled with locate := d.getLsbD 0 } ∧ b.regs = s.block.regs ∧ b.hostMem = s.block.hostMem)) ∧
   (∀ (s : State) (v : BitVec 16),
     (s.block.sled.power ≠ .on → Completes (.setModuleId true v) s (fun b => b.out.smbus = some [0] ∧
       b.sled = { s.block.sled with moduleId := v.toNat % 4096 } ∧ b.regs = s.block.regs ∧ b.hostMem = s.block.hostMem)) ∧
     (s.block.sled.power = .on → Completes (.setModuleId true v) s (fun b => b.out.smbus = some [1] ∧
       b.sans = s.block.sans ∧ b.regs = s.block.regs))) ∧
   (∀ (s : State) (d : BitVec 8) (v : BitVec 16), ∀ c ∈ [Instr.smbusStatus false, .smbusTripLast false, .smbusFatal false,
     .powerRead false, .powerOn false, .powerOff false d, .smbusColdReset false, .locate false d, .ident false,
     .setModuleId false v], exec c s = .next s))

/-- The buttons, the sled's sensors and the service connector. -/
def Obligations.ButtonsAndSensors : Prop :=
  ∀ s : State,
    (∀ ms, 50 ≤ ms → Completes (.locateButton ms) s (fun b =>
      b = { s.block with sled := { s.block.sled with locate := !s.block.sled.locate } })) ∧
    (∀ ms, ms < 50 → exec (.locateButton ms) s = .next s) ∧
    (∀ ms, ms < 4000 → exec (.moduleServiceButton ms) s = .next s) ∧
    (∀ ms, 4000 ≤ ms → ms < 12000 → s.block.sled.power = .on → Completes (.moduleServiceButton ms) s (fun b =>
      b.stage = .boot ∧ b.resetKind = .button ∧ b.cmds = [] ∧ b.sled.power = .on ∧ b.hostMem = s.block.hostMem)) ∧
    (∀ ms, 12000 ≤ ms → s.block.sled.power = .on → Completes (.moduleServiceButton ms) s (fun b =>
      b.sled.power = .off ∧ b.regs = s.block.regs ∧ b.hostMem = s.block.hostMem)) ∧
    (∀ low, Completes (.flowLow low) s (fun b => b = { s.block with sled := { s.block.sled with
      lowFlow := low, alert := s.block.sled.alert || (low && !s.block.sled.lowFlow) } })) ∧
    (∀ fluid, Completes (.leak fluid) s (fun b => b = { s.block with sled := { s.block.sled with
      leak := fluid, alert := s.block.sled.alert || (fluid && !s.block.sled.leak) } })) ∧
    (∀ here, Completes (.svcPresent here) s (fun b =>
      b = { s.block with sled := { s.block.sled with svcPresent := here } })) ∧
    Completes (.trstAsserted true) s (fun b => b.tap.reset = true ∧ b.tap.drives = false ∧ b.tap.ir = 0x01 ∧
      b.sled = s.block.sled ∧ b.regs = s.block.regs) ∧
    Completes (.trstAsserted false) s (fun b => b = { s.block with tap := { s.block.tap with reset := false } })

/-! ## The pace governor -/

/-- A sag sensor whose supply is SAG_THRESH or more below the setpoint fires, brakes its domain and sets the sag level
where it was lower; the last one that deasserts, with its supply above that level, starts the hold; each hold that passes lowers the level by 1. The thermal level of a domain reaches k from THERM_START + 2(k − 1) °C
upward, leaves it 1 °C below that, and keeps it in between; at 118 °C package power is removed and TRIP_LAST is 1. A failed
sensor holds its domain at level 4 or above. The cap level at an evaluation: an average above its cap raises it by 1, up to
7; a run of evaluations below the caps less HYST lowers it by 1 when CAP_HOLD has passed since the run's starting evaluation;
any other evaluation ends the run. (Choices of the model in it: log 98.) -/
def Obligations.PaceLevels : Prop :=
  (∀ (s : State) (d : Fin 12) (k : Fin 4) (v : BitVec 12), s.awake → s.block.Canonical → s.block.CanonicalParts →
     (k.val ∉ (s.block.domain d.val).asserted → s.block.fld pPwr 0x10C 0 8 ≤ v.toNat → Completes (.sagFire d ⟨k, v⟩) s (fun b =>
       (b.domain d.val).sag = max (s.block.domain d.val).sag s.block.sagLevel ∧
       (b.domain d.val).asserted = k.val :: (s.block.domain d.val).asserted ∧ (b.domain d.val).holdStart = none ∧
       (∀ e, e ≠ d.val → b.domain e = s.block.domain e) ∧
       b.reg (pPwr.at 0x68) = s.block.reg (pPwr.at 0x68) + 1 ∧ b.sans = { s.block.sans with governor := b.governor } ∧
       RegsBut (pPwr.at 0x40 :: pPwr.at 0x68 :: intRegs pPwr ++ (List.range 9).map (fun n => (pPim n).at 0x20)) s.block b)) ∧
     (v.toNat < s.block.fld pPwr 0x10C 0 8 → exec (.sagFire d ⟨k, v⟩) s = .next s) ∧
     (s.block.fld pPwr 0x10C 0 8 ≤ v.toNat → exec (.sagDeassert d ⟨k, v⟩) s = .next s) ∧
     (k.val ∈ (s.block.domain d.val).asserted → v.toNat < s.block.fld pPwr 0x10C 0 8 → Completes (.sagDeassert d ⟨k, v⟩) s (fun b =>
       (b.domain d.val).asserted = (s.block.domain d.val).asserted.erase k.val ∧
       (b.domain d.val).sag = (s.block.domain d.val).sag ∧
       ((b.domain d.val).asserted = [] → 0 < (s.block.domain d.val).sag → (b.domain d.val).holdStart = some s.block.meter) ∧
       (∀ e, e ≠ d.val → b.domain e = s.block.domain e) ∧ b.sans = { s.block.sans with governor := b.governor } ∧
       b.regs = s.block.regs)) ∧
     (∀ t, (s.block.domain d.val).holdStart = some t → t + s.block.sagHold ≤ s.block.meter → 0 < (s.block.domain d.val).sag →
       Completes (.sagHoldExpiry d) s (fun b =>
         (b.domain d.val).sag + 1 = (s.block.domain d.val).sag ∧
         ((b.domain d.val).holdStart = none ↔ (b.domain d.val).sag = 0) ∧
         (∀ e, e ≠ d.val → b.domain e = s.block.domain e) ∧ b.sans = { s.block.sans with governor := b.governor } ∧
         b.regs = s.block.regs)) ∧
     (∀ t, (s.block.domain d.val).holdStart = some t → s.block.meter < t + s.block.sagHold →
       exec (.sagHoldExpiry d) s = .next s)) ∧
  (∀ (s : State) (d : Fin 12) (t : BitVec 11), s.awake → s.block.Canonical → s.block.CanonicalParts → Quiet s.block pPwr →
     (t.toNat < 236 → Completes (.thermalLevelChange d t) s (fun b =>
       (∀ k, 1 ≤ k → k ≤ 7 →
         (2 * s.block.fld pPwr 0x110 0 8 + 4 * (k - 1) ≤ t.toNat → k ≤ (b.domain d.val).therm) ∧
         (t.toNat + 2 < 2 * s.block.fld pPwr 0x110 0 8 + 4 * (k - 1) → (b.domain d.val).therm < k) ∧
         (t.toNat < 2 * s.block.fld pPwr 0x110 0 8 + 4 * (k - 1) → 2 * s.block.fld pPwr 0x110 0 8 + 4 * (k - 1) ≤ t.toNat + 2 →
           (k ≤ (b.domain d.val).therm ↔ k ≤ (s.block.domain d.val).therm))) ∧
       (b.domain d.val).therm ≤ 7 ∧ b.get pPwr (0x180 + 4 * d.val) = t.toNat ∧
       (∀ e, e ≠ d.val → b.domain e = s.block.domain e) ∧ b.sans = { s.block.sans with governor := b.governor })) ∧
     (236 ≤ t.toNat → Completes (.thermalLevelChange d t) s (fun b =>
       b.sled.power = .tripped 1 ∧ b.sled.tripLast = 1 ∧ b.hostMem = s.block.hostMem ∧ b.cmds = s.block.cmds)) ∧
     Completes (.sensorFail d) s (fun b => 4 ≤ b.effLevel d.val ∧ b.fld pPwr 0x10 17 1 = 1 ∧
       (b.domain d.val).failed = true ∧ b.pageState pPwr = s.block.pageState pPwr ∧
       (∀ e, e ≠ d.val → b.domain e = s.block.domain e) ∧ b.sans = { s.block.sans with governor := b.governor })) ∧
  (∀ (s : State) (pkg mod vin : BitVec 16), s.awake → s.block.Canonical →
     s.block.governor.capLast + 10000 ≤ s.block.meter →
     let cap1 := 4 * s.block.fld pPwr 0x114 0 16
     let cap2 := 4 * s.block.fld pPwr 0x114 16 16
     let hyst := 4 * s.block.fld pPwr 0x118 16 8
     let hold := 100 * s.block.fld pPwr 0x118 0 16
     let g := s.block.governor
     Completes (.capEvaluation pkg mod vin) s (fun b =>
       (cap1 < pkg.toNat ∨ cap2 < mod.toNat → b.governor.cap = min 7 (g.cap + 1) ∧ b.governor.runStart = none) ∧
       (pkg.toNat ≤ cap1 ∧ mod.toNat ≤ cap2 → cap1 ≤ pkg.toNat + hyst ∨ cap2 ≤ mod.toNat + hyst →
         b.governor.cap = g.cap ∧ b.governor.runStart = none) ∧
       (pkg.toNat + hyst < cap1 → mod.toNat + hyst < cap2 → g.runStart = none →
         b.governor.cap = g.cap ∧ b.governor.runStart = some s.block.meter) ∧
       (∀ t, pkg.toNat + hyst < cap1 → mod.toNat + hyst < cap2 → g.runStart = some t → t + hold ≤ s.block.meter →
         b.governor.cap = g.cap - 1) ∧
       (∀ t, pkg.toNat + hyst < cap1 → mod.toNat + hyst < cap2 → g.runStart = some t → s.block.meter < t + hold →
         b.governor.cap = g.cap ∧ b.governor.runStart = some t) ∧
       b.governor.domains = g.domains ∧ b.get pPwr 0x1C0 = pkg.toNat ∧ b.get pPwr 0x1C4 = mod.toNat ∧
       b.get pPwr 0x1C8 = vin.toNat ∧ b.sans = { s.block.sans with governor := b.governor }))

/-! ## Tenancy and security -/

/-- TENANT is accepted while VACANT, draws a 64-byte key, enters SERVING and ends a debug grant; in any other state it is
refused with TENANT_CONFLICT, and 0 changes nothing. A release with the key frees every object of the tenant, and its scrub
ends VACANT with the keys zeroed. A release in a rope, or of no tenant, is refused with TENANT_CONFLICT. (Choices of the
model in it: log 78.) -/
def Obligations.TenantAcceptedAndReleased : Prop :=
  (∀ (s : State) (v : BitVec 32), s.open_ → s.block.Canonical → Quiet s.block pSec →
     (s.block.tstate = 0 → v ≠ 0 → Completes (.tenantWrite v) s (fun b =>
       b.tstate = 1 ∧ b.get pSec 0x104 = v.toNat ∧ b.sec.tenantKey.length = 64 ∧ b.fld pDbg 0x100 1 2 ≠ 1 ∧
       b.sans = { s.block.sans with sec := b.sec, free := b.free } ∧
       RegsBut ([pSec.at 0x100, pSec.at 0x104, pDbg.at 0x100, pDbg.at 0x104] ++ writeRegs) s.block b)) ∧
     (s.block.tstate = 0 → v = 0 → Completes (.tenantWrite v) s (fun b => OnlyRegs writeRegs s.block b)) ∧
     (s.block.tstate ≠ 0 → Completes (.tenantWrite v) s (fun b =>
       b.fld pSec 0x10 19 1 = 1 ∧ b.tstate = s.block.tstate ∧ OnlyRegs (errRegs pSec ++ writeRegs) s.block b))) ∧
  ((∀ (s : State) (v : BitVec 32), s.open_ → s.block.Canonical → Quiet s.block pSec →
     v.toNat / 65536 = 0x7E5A → v.getLsbD 0 = true →
     (s.block.joined = false → s.block.tstate = 1 → Completes (.tenantRelease v) s (fun b =>
       b.indexes = [] ∧ b.tables = [] ∧ b.regions = [] ∧ b.layers = [] ∧ b.dramParts = [] ∧ b.ftl.zones = [] ∧
       b.ftl.rows = [] ∧ b.ftl.writes = [])) ∧
     (s.block.joined = true ∨ s.block.tstate ≠ 1 → Completes (.tenantRelease v) s (fun b =>
       b.fld pSec 0x10 19 1 = 1 ∧ OnlyRegs (errRegs pSec ++ writeRegs) s.block b))) ∧
   (∀ s : State, s.awake → s.block.Canonical → s.block.tstate = 2 → Completes .scrubDone s (fun b =>
     b.tstate = 0 ∧ b.get pSec 0x104 = 0 ∧ b.sec.tenantKey = [] ∧ b.sec.slots = [] ∧ b.sec.scrubbing = false ∧
     b.fld pSec 0x20 16 1 = 1 ∧ b.reg (pSec.at 0x78) = s.block.reg (pSec.at 0x78) + 1 ∧ b.hostMem = s.block.hostMem ∧
     b.cmds = s.block.cmds)) ∧
   (∀ s : State, s.awake → s.block.tstate ≠ 2 → exec .scrubDone s = .next s))

/-- FW_CTRL.STAGE reads the image in the DMA window and starts its verification; DROP_PENDING discards pending images; the
end of a verification stores the image as pending or refuses it, with FW_STATUS. ATT_CTRL.GO makes the report busy; its end
writes the report at ATT_ADDR inside the DMA window, or ends BAD_COMMAND outside it with nothing written. (Choices of the
model in it: log 78, 89.) -/
def Obligations.FirmwareAndAttestation : Prop :=
  ((∀ (s : State) (v : BitVec 32), s.open_ → s.block.Canonical → s.block.CanonicalParts →
     (v.getLsbD 0 = true → v.getLsbD 1 = false → v.getLsbD 12 = false → s.block.fld pSec 0x14C 8 4 ≠ 1 →
       Completes (.stage v) s (fun b => b.fld pSec 0x14C 8 4 = 1 ∧
         b.sec.verifying = some (if s.block.get pHlk 0x110 ≤ s.block.get pSec 0x140 ∧
             s.block.get pSec 0x140 + s.block.get pSec 0x148 ≤ s.block.get pHlk 0x118
           then Memory.read s.block.hostMem (s.block.get pSec 0x140) (s.block.get pSec 0x148) else []) ∧
         b.sans = { s.block.sans with sec := b.sec } ∧ RegsBut (pSec.at 0x14C :: writeRegs) s.block b)) ∧
     (v.getLsbD 0 = true → v.getLsbD 1 = false → v.getLsbD 12 = false → s.block.fld pSec 0x14C 8 4 = 1 →
       Completes (.stage v) s (fun b => b.fld pSec 0x10 4 1 = 1 ∧ b.sec = s.block.sec ∧
         OnlyRegs (pSec.at 0x14C :: errRegs pSec ++ writeRegs) s.block b)) ∧
     (v.getLsbD 0 = false → v.getLsbD 1 = true → v.getLsbD 12 = false →
       Completes (.dropPending v) s (fun b => (∀ t, (b.firmware t).pending = none) ∧
         (∀ t, (b.firmware t).image = (s.block.firmware t).image) ∧ b.sec.verifying = s.block.sec.verifying ∧
         b.sans = { s.block.sans with sec := b.sec } ∧ RegsBut (pSec.at 0x14C :: writeRegs) s.block b))) ∧
   (∀ s : State, s.awake → s.block.Canonical → s.block.CanonicalParts → Quiet s.block pSec →
     ∀ i, s.block.sec.verifying = some i →
     Completes .fwVerifyEnd s (fun b => b.sec.verifying = none ∧ b.fld pSec 0x14C 8 4 = s.block.checkImage i ∧
       b.fld pSec 0x20 17 1 = 1 ∧
       (s.block.checkImage i = 2 →
         (b.firmware (le i 6 1)).pending = some (i.take (0x480 + le i 0xC 4)) ∧
         (∀ t, t ≠ le i 6 1 → b.firmware t = s.block.firmware t)) ∧
       (s.block.checkImage i ≠ 2 → b.fld pSec 0x10 17 1 = 1 ∧ b.sec.firmware = s.block.sec.firmware) ∧
       b.hostMem = s.block.hostMem))) ∧
  ((∀ (s : State) (v : BitVec 32), s.open_ → s.block.Canonical → v.getLsbD 0 = true →
     Completes (.attGo v) s (fun b => b.fld pSec 0x154 1 1 = 1 ∧ OnlyRegs (pSec.at 0x154 :: writeRegs) s.block b)) ∧
   (∀ s : State, s.awake → s.block.Canonical → s.block.fld pSec 0x154 1 1 = 1 →
     Completes .attDone s (fun b => b.fld pSec 0x154 1 1 = 0 ∧ b.fld pSec 0x20 18 1 = 1 ∧
       if s.block.inDma (s.block.get pSec 0x158) s.block.report.length then
         Memory.read b.hostMem (s.block.get pSec 0x158) s.block.report.length = s.block.report ∧
         MemBut (s.block.get pSec 0x158) s.block.report.length s.block b ∧ b.fld pSec 0x154 8 8 = 0
       else b.fld pSec 0x154 8 8 = 0x0B ∧ OnlyRegs (pSec.at 0x154 :: intRegs pSec) s.block b)) ∧
   (∀ s : State, s.awake → s.block.fld pSec 0x154 1 1 = 0 → exec .attDone s = .next s))

/-- A submitted token that passes every check grants its permissions and draws a new challenge; any other is refused with
AUTH_FAIL. REVOKE ends a grant. A request for bivouac, by DBG.FREEZE with its key, by the freeze input held for 1 µs or by
the TAP, enters bivouac when FREEZE is granted, with every page FROZEN, and is refused with FREEZE_DENIED otherwise.
FUSE_CTRL.BLOW blows the field-lock fuse and ends the grant. (Choices of the model in it: log 78, 89.) -/
def Obligations.DebugGrants : Prop :=
  (∀ (s : State) (v : BitVec 32), s.open_ → s.block.Canonical → Quiet s.block pDbg →
     (v.getLsbD 0 = true → v.getLsbD 1 = false → Completes (.submit v) s (fun b =>
       if s.block.tokenOk s.block.tokenBuffer then
         b.fld pDbg 0x100 1 2 = 1 ∧ b.get pDbg 0x104 = nbits (le s.block.tokenBuffer 0x14 4) 0 3 ∧
         b.sec.challenge.length = 64 ∧ b.sans = { s.block.sans with sec := b.sec, free := b.free } ∧
         RegsBut ([pDbg.at 0x100, pDbg.at 0x104] ++ writeRegs) s.block b
       else b.fld pDbg 0x100 1 2 = 2 ∧ b.get pDbg 0x104 = 0 ∧ b.fld pDbg 0x10 16 1 = 1 ∧
         OnlyRegs ([pDbg.at 0x100, pDbg.at 0x104] ++ errRegs pDbg ++ writeRegs) s.block b)) ∧
     (v.getLsbD 0 = false → v.getLsbD 1 = true →
       Completes (.revoke v) s (fun b => b.fld pDbg 0x100 1 2 = 0 ∧ b.get pDbg 0x104 = 0 ∧ b.sec.challenge.length = 64 ∧
         b.sans = { s.block.sans with sec := b.sec, free := b.free } ∧
         RegsBut ([pDbg.at 0x100, pDbg.at 0x104] ++ writeRegs) s.block b))) ∧
  ((∀ (s : State) (v : BitVec 32), s.open_ → s.block.Canonical → Quiet s.block pDbg →
     v.toNat / 65536 = 0xB1F0 → v.getLsbD 0 = true →
     (s.block.granted 0 = true → Completes (.freezeWrite v) s (fun b => b.bivouac = true ∧ (∀ p, b.pageState p = 5) ∧
       b.sans = { s.block.sans with bivouac := true } ∧ RegsBut writeRegs s.block b)) ∧
     (s.block.granted 0 = false → s.block.fieldLock = false → Completes (.freezeWrite v) s (fun b =>
       b.bivouac = false ∧ b.fld pDbg 0x10 17 1 = 1 ∧ OnlyRegs (errRegs pDbg ++ writeRegs) s.block b))) ∧
   (∀ (s : State) (v : BitVec 32), s.open_ → Quiet s.block pDbg → v.toNat / 65536 ≠ 0xB1F0 →
     Completes (.freezeWrite v) s (fun b => OnlyRegs writeRegs s.block b)) ∧
   (∀ (s : State) (ns : Nat), s.awake → s.block.granted 0 = true →
     (1000 ≤ ns → exec (.freezeInput ns) s = .next { s with block := { s.block with bivouac := true } }) ∧
     (ns < 1000 → exec (.freezeInput ns) s = .next s)) ∧
   (∀ (s : State), s.awake → s.block.fieldLock = false → s.block.tap.reset = false → s.block.granted 0 = true →
     Completes .freeze s (fun b => b.bivouac = true ∧ b.tap.ir = 0x12 ∧ b.regs = s.block.regs ∧
       b.hostMem = s.block.hostMem)) ∧
   (∀ (s : State) (v : BitVec 32), s.open_ → s.block.Canonical → v.toNat / 65536 = 0xF10C → v.getLsbD 0 = true →
     s.block.tstate ≠ 2 → Completes (.blow v) s (fun b => b.fieldLock = true ∧ b.fld pDbg 0x100 1 2 ≠ 1 ∧
       b.sans = { s.block.sans with sled := b.sled } ∧ b.sled.fuses = s.block.sled.fuses ||| 1 ∧
       RegsBut ([pDbg.at 0x100, pDbg.at 0x104] ++ writeRegs) s.block b)))

/-- The test access port: what each instruction selects and shifts out. With the field-lock fuse blown, or TRST_n asserted,
the test access port does nothing and shows nothing. (Choices of the model in it: log 90, 91.) -/
def Obligations.TestAccessPort : Prop :=
  (∀ s : State, s.block.sled.power = .on → s.block.fieldLock = false → s.block.tap.reset = false →
     (∀ tdi : Bits, Completes (.bypass tdi) s (fun b => b.out.tdo = (false :: tdi).take tdi.length ∧ b.tap.ir = 0xFF ∧
       b.regs = s.block.regs ∧ b.hostMem = s.block.hostMem)) ∧
     Completes .idcode s (fun b => b.out.tdo.length = 32 ∧ (∀ i, i < 32 → b.out.tdo[i]? = some ((0x2604B74B : Nat).testBit i)) ∧
       b.tap = { s.block.tap with ir := 0x01 } ∧ b.regs = s.block.regs ∧ b.hostMem = s.block.hostMem) ∧
     (∀ tdi pins : Bits, Completes (.samplePreload tdi pins) s (fun b => b.out.tdo = pins ∧ b.tap.boundary = tdi ∧
       b.tap.drives = s.block.tap.drives ∧ b.regs = s.block.regs ∧ b.hostMem = s.block.hostMem)) ∧
     (∀ tdi : Bits, s.block.bivouac = true → Completes (.extest tdi) s (fun b =>
       b.out.tdo = s.block.tap.boundary ∧ b.tap.boundary = tdi ∧ b.tap.drives = true ∧ b.regs = s.block.regs ∧
       b.hostMem = s.block.hostMem)) ∧
     (∀ tdi : Bits, s.block.bivouac = false → Completes (.extest tdi) s (fun b =>
       b.out.tdo = (false :: tdi).take tdi.length ∧ b.tap.drives = s.block.tap.drives ∧
       b.tap.boundary = s.block.tap.boundary ∧ b.regs = s.block.regs ∧ b.hostMem = s.block.hostMem)) ∧
     (s.block.sec.challenge.length = 64 → Completes .challenge s (fun b => b.out.tdo.length = 512 ∧
       (∀ i, i < 512 → b.out.tdo[i]? = some ((leNat s.block.sec.challenge).testBit i)) ∧ b.sec = s.block.sec ∧
       b.regs = s.block.regs ∧ b.hostMem = s.block.hostMem)) ∧
     (∀ t : Bytes, t.length = 1152 → s.block.bivouac = false → s.block.Canonical →
       Completes (.token t) s (fun b => b.hostMem = s.block.hostMem ∧
         if s.block.tokenOk t then b.fld pDbg 0x100 1 2 = 1 ∧ b.get pDbg 0x104 = nbits (le t 0x14 4) 0 3 ∧
           b.sec.challenge.length = 64 ∧ RegsBut [pDbg.at 0x100, pDbg.at 0x104] s.block b
         else b.fld pDbg 0x100 1 2 = 2 ∧ b.get pDbg 0x104 = 0 ∧ b.fld pDbg 0x10 16 1 = 1 ∧
           RegsBut ([pDbg.at 0x100, pDbg.at 0x104] ++ errRegs pDbg) s.block b)) ∧
     (∀ c : BitVec 16, Completes (.chainSel c) s (fun b => b.tap.chain = c.toNat ∧ b.regs = s.block.regs ∧
       b.hostMem = s.block.hostMem)) ∧
     Completes .chainLen s (fun b => b.out.tdo.length = 32 ∧
       (∀ i, i < 32 → b.out.tdo[i]? = some ((Config.chainLen s.block.tap.chain).testBit i)) ∧
       b.regs = s.block.regs ∧ b.hostMem = s.block.hostMem) ∧
     (s.block.bivouac = true → s.block.granted 1 = true → Completes .chainRead s (fun b =>
       b.out.tdo = s.block.chain s.block.tap ∧ b.regs = s.block.regs ∧ b.hostMem = s.block.hostMem)) ∧
     (s.block.bivouac = false ∨ s.block.granted 1 = false → Completes .chainRead s (fun b =>
       (∀ x ∈ b.out.tdo, x = false) ∧ b.regs = s.block.regs ∧ b.hostMem = s.block.hostMem)) ∧
     (∀ d : Bits, s.block.bivouac = true → s.block.granted 2 = true → Completes (.chainWrite d) s (fun b =>
       b.chain b.tap = d ∧ b.out.tdo = s.block.chain s.block.tap ∧ b.regs = s.block.regs ∧ b.hostMem = s.block.hostMem)) ∧
     (∀ d : Bits, s.block.bivouac = false ∨ s.block.granted 2 = false → Completes (.chainWrite d) s (fun b =>
       b.tap.chains = s.block.tap.chains ∧ (∀ x ∈ b.out.tdo, x = false) ∧ b.regs = s.block.regs ∧
       b.hostMem = s.block.hostMem))) ∧
  (∀ s : State, s.block.sled.power = .on → s.block.fieldLock = true ∨ s.block.tap.reset = true →
     ∀ (tdi pins d : Bits) (t : Bytes) (c : BitVec 16),
       ∀ i ∈ [Instr.bypass tdi, .idcode, .samplePreload tdi pins, .extest tdi, .challenge, .token t, .freeze, .chainSel c,
         .chainLen, .chainRead, .chainWrite d], Completes i s (fun b =>
           b.out.tdo = [] ∧ b.sans = s.block.sans ∧ b.regs = s.block.regs))

/-- ARM copies the staged key, peer and rights into an empty slot while SERVING and zeroes SLOT_KEY; DISARM kills the slot's
session and empties the slot; KILL kills the session and leaves the slot armed. In any other case SLOT_CONFLICT is set and
the slot stays. -/
def Obligations.KeySlots : Prop :=
  ∀ (s : State) (v : BitVec 32), s.open_ → s.block.Canonical → s.block.CanonicalParts → Quiet s.block pSec →
    ∀ n, s.block.fld pSec 0x10C 0 12 = n →
    (v.toNat % 8 = 1 → (s.block.slot n).st = 0 → s.block.tstate = 1 → Completes (.arm v) s (fun b =>
      b.slot n = { st := 1, key := s.block.stagedKey, peer := s.block.fld pSec 0x110 0 16,
                   rights := s.block.fld pSec 0x114 0 7 } ∧
      (∀ i, i < 8 → b.get pSec (0x120 + 4 * i) = 0) ∧ (∀ k, k ≠ n → b.slot k = s.block.slot k) ∧
      b.reg (pSec.at 0x58) = s.block.reg (pSec.at 0x58) + 1 ∧ b.sans = { s.block.sans with sec := b.sec } ∧
      RegsBut (pSec.at 0x58 :: (List.range 8).map (fun i => pSec.at (0x120 + 4 * i)) ++ writeRegs) s.block b)) ∧
    (v.toNat % 8 = 1 → (s.block.slot n).st ≠ 0 ∨ s.block.tstate ≠ 1 → Completes (.arm v) s (fun b =>
      b.fld pSec 0x10 18 1 = 1 ∧ OnlyRegs (errRegs pSec ++ writeRegs) s.block b)) ∧
    (v.toNat % 8 = 2 → (s.block.slot n).st = 1 → Completes (.disarm v) s (fun b =>
      b.slot n = { fails := (s.block.slot n).fails } ∧ (b.session n).state = .closed ∧
      (∀ k, k ≠ n → b.slot k = s.block.slot k))) ∧
    (v.toNat % 8 = 2 → (s.block.slot n).st ≠ 1 → Completes (.disarm v) s (fun b =>
      b.fld pSec 0x10 18 1 = 1 ∧ OnlyRegs (errRegs pSec ++ writeRegs) s.block b)) ∧
    (v.toNat % 8 = 4 → (s.block.slot n).st = 1 → Completes (.kill v) s (fun b =>
      b.slot n = s.block.slot n ∧ (b.session n).state = .closed)) ∧
    (v.toNat % 8 = 4 → (s.block.slot n).st ≠ 1 → Completes (.kill v) s (fun b =>
      b.fld pSec 0x10 18 1 = 1 ∧ OnlyRegs (errRegs pSec ++ writeRegs) s.block b))

/-- SESSION_OPEN for an armed slot from its own peer moves the session to OPENING with the message's NONCE_C and a fresh
NONCE_M, and a challenge goes to the peer; any other peer is refused and the session stays. 1 ms later an OPENING session is
FREE. SESSION_PROVE with the right proof opens the session, with the keys of the nonces and the slot's failures at 0; a wrong
proof frees the session and counts a failure, and the fourth disarms the slot. SESSION_CLOSE moves an OPEN session to
CLOSING; when its other requests have all replied the session is FREE. (Choices of the model in it: log 78, 83.) -/
def Obligations.SessionsOpenAndClose : Prop :=
  ((∀ (s : State) (m : OpenMsg), s.awake → s.block.Canonical → s.block.pageState pKwt = 2 →
     badOpen s.block m 0x70 64 = false →
     (s.block.tstate = 1 → (s.block.slot m.session.toNat).st = 1 →
       (s.block.slot m.session.toNat).peer = m.endpoint.toNat → (s.block.session m.session.toNat).state = .closed →
       Completes (.sessionOpen m) s (fun b => (∃ x, b.session m.session.toNat = x ∧ x.state = .opening ∧
         x.endpoint = m.endpoint.toNat ∧ x.rights = (s.block.slot m.session.toNat).rights ∧ x.since = s.block.meter ∧
         x.nonceC = slice m.payload 0 32 ∧ x.nonceM.length = 32) ∧
         (∃ r, Posted r b ∧ r.kind = .challenge ∧ r.toward = .peer m.session.toNat m.endpoint.toNat) ∧
         (∀ n, n ≠ m.session.toNat → b.session n = s.block.session n) ∧ b.sec = s.block.sec ∧
         b.hostMem = s.block.hostMem ∧ b.cmds = s.block.cmds)) ∧
     (s.block.tstate ≠ 1 ∨ (s.block.slot m.session.toNat).st ≠ 1 ∨
         (s.block.slot m.session.toNat).peer ≠ m.endpoint.toNat ∨ (s.block.session m.session.toNat).state ≠ .closed →
       Completes (.sessionOpen m) s (fun b => ∃ r, Posted r b ∧ r.kind = .refused ∧
         r.toward = .peer m.session.toNat m.endpoint.toNat ∧ b.sessions = s.block.sessions ∧ b.sec = s.block.sec ∧
         b.hostMem = s.block.hostMem ∧ b.cmds = s.block.cmds))) ∧
   (∀ (s : State) (n : BitVec 12), s.awake → s.block.Canonical → (s.block.session n.toNat).state = .opening →
     ((s.block.session n.toNat).since + 100000 ≤ s.block.meter → Completes (.openingTimeout n) s (fun b =>
       b.session n.toNat = {} ∧ (∀ k, k ≠ n.toNat → b.session k = s.block.session k) ∧
       b.sans = { s.block.sans with sessions := b.sessions } ∧ b.regs = s.block.regs)) ∧
     (s.block.meter < (s.block.session n.toNat).since + 100000 → exec (.openingTimeout n) s = .next s))) ∧
  (∀ (s : State) (m : OpenMsg) (n : Nat), s.awake → Quiet s.block pSec → s.block.Canonical → s.block.CanonicalParts →
     s.block.pageState pKwt = 2 → badOpen s.block m 0x71 128 = false → m.session.toNat = n → ∀ x, s.block.session n = x →
     ∀ k, s.block.slot n = k → s.block.tstate = 1 → x.state = .opening → x.endpoint = m.endpoint.toNat →
     Completes (.sessionProve m) s (fun b => b.hostMem = s.block.hostMem ∧ b.cmds = s.block.cmds ∧
       if slice m.payload 0 64 = (Config.hmac512 k.key (s.block.proofInput n x 0x43)).toList then
         (b.session n).state = .opened ∧ (b.session n).since = s.block.meter ∧
         ((b.session n).keyIn, (b.session n).keyOut) = sessionKeys k.key x.nonceC x.nonceM ∧
         (b.session n).nonceC = [] ∧ (b.session n).nonceM = [] ∧ (b.slot n).fails = 0 ∧ (b.slot n).st = k.st ∧
         (∀ j, j ≠ n → b.session j = s.block.session j) ∧
         ∃ r, Posted r b ∧ r.kind = .proveReply ∧ r.toward = .peer n m.endpoint.toNat
       else b.session n = {} ∧
         (k.fails + 1 < 4 → b.slot n = { k with fails := k.fails + 1 } ∧ (∀ j, j ≠ n → b.session j = s.block.session j) ∧
           ∃ r, Posted r b ∧ r.kind = .refused ∧ r.toward = .peer n m.endpoint.toNat) ∧
         (4 ≤ k.fails + 1 → (b.slot n).st = 0 ∧ (b.slot n).key = [] ∧ b.fld pSec 0x10 16 1 = 1))) ∧
  ((∀ (s : State) (id : Nat) (n k : Nat), s.awake → s.block.Canonical → ∀ c, s.block.cmd id = some c →
     c.phase = .handed → c.opcode = 0x72 → s.block.passed c.deadline = false → s.block.recheck c = .pass → c.payValid = false →
     c.src = .session n k → (s.block.session n).state = .opened →
     Completes (.sessionClose id) s (fun b => (b.session n).state = .closing ∧ (b.session n).closing = some id ∧
       (b.session n).since = s.block.meter ∧ (∃ d, b.cmd id = some d ∧ d.phase = .working ∧ d.raw = c.raw) ∧
       (∀ j, j ≠ n → b.session j = s.block.session j) ∧ b.regs = s.block.regs ∧ b.hostMem = s.block.hostMem)) ∧
   (∀ (s : State) (n : BitVec 12), s.awake → s.block.Canonical →
     ∀ id, (s.block.session n.toNat).closing = some id → (s.block.session n.toNat).state = .closing →
     ((∀ i ∈ s.block.sessionCmds n.toNat, i = id) → Completes (.sessionClosed n) s (fun b =>
       b.session n.toNat = {} ∧ b.cmd id = none ∧ b.fld pKwt 0x20 17 1 = 1)) ∧
     ((∃ i ∈ s.block.sessionCmds n.toNat, i ≠ id) → exec (.sessionClosed n) s = .next s)))

/-- TEL_PERIOD after the last notices, each OPEN session with the telemetry right is sent one of 1,248 bytes; before that
nothing happens. A sampling round writes one 16-byte record per selected queue into the ring and advances SAMPLE_WR, or is
skipped and counted when the ring has no room; SAMPLE_CTRL.EN 1 runs round 0 at once. -/
def Obligations.NoticesAndSamples : Prop :=
  (∀ s : State, s.awake → s.block.Canonical →
     (s.block.sec.lastTel + s.block.fld pSec 0x1A0 0 16 * 100000 ≤ s.block.meter →
       Completes .telemetryNotice s (fun b => b.sec = { s.block.sec with lastTel := s.block.meter } ∧
         (∀ e ∈ s.block.sessions, e.2.state = .opened → e.2.rope = false → nbits e.2.rights 6 1 = 1 →
           ∃ m, Posted m b ∧ m.toward = .session e.1 ∧ m.kind = .telemetry ∧ m.data.length = 1248) ∧
         b.sessions = s.block.sessions ∧ b.hostMem = s.block.hostMem ∧ b.cmds = s.block.cmds)) ∧
     (s.block.meter < s.block.sec.lastTel + s.block.fld pSec 0x1A0 0 16 * 100000 →
       exec .telemetryNotice s = .next s)) ∧
  (∀ s : State, s.block.Canonical → ∀ base, base = s.block.get pTrf 0x118 → ∀ wr, wr = s.block.get pTrf 0x124 →
   ∀ n, n = s.block.get pTrf 0x120 → ∀ used, used = (wr + 2 ^ 32 - s.block.get pTrf 0x128) % 2 ^ 32 →
     (s.awake → Quiet s.block pTrf → s.block.fld pTrf 0x110 0 1 = 1 →
       s.block.trf.roundBase + s.block.get pTrf 0x114 * 100 * s.block.trf.round ≤ s.block.meter →
       used + s.block.sampled.length ≤ n →
       Completes .sampleRound s (fun b =>
         (∀ i, i < s.block.sampled.length → Memory.read b.hostMem (base + 16 * ((wr + i) % n)) 16 =
           toLe s.block.trf.round 4 ++ toLe (s.block.sampled.getD i 0) 4 ++
             toLe (s.block.depth (s.block.sampled.getD i 0)) 4 ++ toLe (s.block.headAge (s.block.sampled.getD i 0)) 4) ∧
         MemBut base (16 * n) s.block b ∧ b.get pTrf 0x124 = (wr + s.block.sampled.length) % 2 ^ 32 ∧
         b.trf = { s.block.trf with round := s.block.trf.round + 1 } ∧
         RegsBut (pTrf.at 0x124 :: pTrf.at 0x78 :: intRegs pTrf) s.block b)) ∧
     (s.awake → Quiet s.block pTrf → s.block.fld pTrf 0x110 0 1 = 1 →
       s.block.trf.roundBase + s.block.get pTrf 0x114 * 100 * s.block.trf.round ≤ s.block.meter →
       n < used + s.block.sampled.length →
       Completes .sampleRound s (fun b => b.get pTrf 0x12C = (s.block.get pTrf 0x12C + 1) % 2 ^ 32 ∧
         b.fld pTrf 0x10 18 1 = 1 ∧ b.trf = { s.block.trf with round := s.block.trf.round + 1 } ∧
         b.hostMem = s.block.hostMem ∧ RegsBut (pTrf.at 0x12C :: errRegs pTrf) s.block b)) ∧
     (s.open_ → Quiet s.block pTrf → s.block.fld pTrf 0x110 0 1 = 0 → ∀ v : BitVec 32, v.getLsbD 0 = true →
       Completes (.sampleEnWrite v) s (fun b => b.fld pTrf 0x110 0 1 = 1 ∧ b.trf.round = 1 ∧
         b.trf.roundBase = s.block.meter ∧ MemBut base (16 * n) s.block b)) ∧
     (s.open_ → Quiet s.block pTrf → ∀ v : BitVec 32, v.getLsbD 0 = false →
       Completes (.sampleEnWrite v) s (fun b => b.fld pTrf 0x110 0 1 = 0 ∧
         OnlyRegs (pTrf.at 0x110 :: writeRegs) s.block b)))

/-! ## Commands in -/

/-- PORT_CTRL.ENABLE 1 of an idle port enables it with empty counts, sets its credits and writes 0 to its credit word; of a
port that is not idle it does nothing. ENABLE 0 stops the port and leaves its commands running. A post of 64 bytes to an
enabled port with a credit left is one command: it takes the next number and, when it passes every check and its flow has no
meter, waits in the queue of its class and pitch lane. A read of the aperture returns 0. A post that is misaligned, of another length, or to a port that is
disabled or VIOLATED is dropped and counted; one without a credit makes the port VIOLATED. (Choices of the model in it: log
7, 20, 21.) -/
def Obligations.PortsAndPosts : Prop :=
  (∀ (s : State) (p : Fin 64) (v : BitVec 32), s.open_ → s.block.Canonical →
     (v.getLsbD 0 = true → s.block.portIdle p.val = true → Completes (.portEnable p v) s (fun b =>
       b.fld pHlk (portOff p.val) 0 1 = 1 ∧ b.credits p.val = bits (v.setWidth 64) 8 8 + 1 ∧ b.port p.val = {} ∧
       Memory.read b.hostMem (s.block.get pHlk (portOff p.val + 8)) 8 = List.replicate 8 0 ∧
       MemBut (s.block.get pHlk (portOff p.val + 8)) 8 s.block b ∧ (∀ q, q ≠ p.val → b.port q = s.block.port q) ∧
       b.cmds = s.block.cmds ∧ RegsBut (pHlk.at (portOff p.val) :: writeRegs) s.block b)) ∧
     (v.getLsbD 0 = true → s.block.portIdle p.val = false → s.block.fld pHlk (portOff p.val) 0 1 = 0 →
       Completes (.portEnable p v) s (fun b => b.fld pHlk (portOff p.val) 0 1 = 0 ∧
         OnlyRegs (pHlk.at (portOff p.val) :: writeRegs) s.block b)) ∧
     (v.getLsbD 0 = false → s.block.fld pHlk (portOff p.val) 0 1 = 1 → Completes (.portDisable p v) s (fun b =>
       b.fld pHlk (portOff p.val) 0 1 = 0 ∧ OnlyRegs (pHlk.at (portOff p.val) :: writeRegs) s.block b))) ∧
  (∀ (s : State) (p : Fin 64) (off : BitVec 12) (data : Bytes), s.open_ → s.block.Canonical → s.block.get pHlk 0x108 ≠ 0 →
     Completes (.post p off none) s (fun b => b.out.readData = 0 ∧ OnlyRegs [] s.block b) ∧
     (Quiet s.block pHlk → Quiet s.block pTrf → off.toNat % 64 = 0 → data.length = 64 → s.block.fld pHlk (portOff p.val) 0 1 = 1 →
       (s.block.port p.val).violated = false → s.block.portInflight p.val < s.block.credits p.val →
       s.block.running pHlk = true → ∀ c, c = s.block.newCmd (.port p.val) data [] →
       badFormat s.block c = false → s.block.running pTrf = true → s.block.tstate = 1 →
       s.block.lacksPage c = false →
       s.block.beyondReach c.accepted c.budget = false → (s.block.flow (4096 + p.val)).en = false →
       s.block.trf.entries.length < 65536 → s.block.trf.outside = [] → s.block.cmd s.block.nextCmd = none →
       Completes (.post p off (some data)) s (fun b => b.nextCmd = s.block.nextCmd + 1 ∧
         (b.port p.val).posts = (s.block.port p.val).posts + 1 ∧
         (∃ d, b.cmd s.block.nextCmd = some d ∧ d.raw = data ∧ d.src = .port p.val ∧ d.accepted = s.block.meter ∧
           d.phase = .queued ∧ d.deadline = deadlineOf s.block.meter c.budget) ∧
         (∃ e ∈ b.trf.entries, e.kind = .command s.block.nextCmd ∧ e.arrived = s.block.meter ∧
           e.queue = 9 * s.block.fld pHlk (portOff p.val) 16 3 +
             (match s.block.pitchFor c.opcode (deadlineOf s.block.meter c.budget) with | none => 8 | some q => q % 8)) ∧
         b.hostMem = s.block.hostMem)) ∧
     (off.toNat % 64 ≠ 0 ∨ data.length ≠ 64 ∨ s.block.fld pHlk (portOff p.val) 0 1 = 0 ∨
         (s.block.port p.val).violated = true →
       Completes (.post p off (some data)) s (fun b =>
         b.get pHlk (portOff p.val + 0x18) = (s.block.get pHlk (portOff p.val + 0x18) + 1) % 2 ^ 32 ∧
         b.reg (pHlk.at 0x68) = s.block.reg (pHlk.at 0x68) + 1 ∧ b.fld pHlk 0x10 16 1 = 1 ∧
         OnlyRegs (pHlk.at (portOff p.val + 0x18) :: pHlk.at 0x68 :: errRegs pHlk) s.block b)) ∧
     (off.toNat % 64 = 0 → data.length = 64 → s.block.fld pHlk (portOff p.val) 0 1 = 1 →
       (s.block.port p.val).violated = false → s.block.credits p.val ≤ s.block.portInflight p.val →
       Completes (.post p off (some data)) s (fun b => b.port p.val = { s.block.port p.val with violated := true } ∧
         b.reg (pHlk.at 0x70) = s.block.reg (pHlk.at 0x70) + 1 ∧ b.fld pHlk 0x10 17 1 = 1 ∧ b.cmds = s.block.cmds ∧
         (∀ q, q ≠ p.val → b.port q = s.block.port q) ∧ b.hostMem = s.block.hostMem ∧
         RegsBut (pHlk.at 0x70 :: errRegs pHlk) s.block b)))

/-- The ingress scheduler serves one entry: of its group, none whose pitch is earlier waits; a command whose deadline has not
passed is handed to its block. The egress scheduler hands one message to the transport. FLOW_CTRL.LOAD puts the staged meter
into the selected port's or client session's flow with full buckets; parameters out of range are refused with RANGE and the
flow stays. (Choices of the model in it: log 6, 14.) -/
def Obligations.SchedulersAndMeters : Prop :=
  ((∀ s : State, s.awake → Quiet s.block pTrf → s.block.Canonical → s.block.trf.entries ≠ [] → s.block.trf.outside = [] →
     (∀ e ∈ s.block.trf.entries, e.queue < 46 ∧ s.block.passed e.deadline = false) →
     Completes (.ingressService []) s (fun b => ∃ e ∈ s.block.trf.entries,
       b.trf.entries = s.block.trf.entries.erase e ∧
       (∀ x ∈ s.block.trf.entries, groupOf x.queue = groupOf e.queue → laneBefore x e = false) ∧
       (∀ id, e.kind = .command id → ∀ c ∈ b.cmds, c.id = id → c.phase = .handed) ∧
       b.reg (pTrf.at 0x60) = s.block.reg (pTrf.at 0x60) + 1 ∧ b.hostMem = s.block.hostMem ∧
       RegsBut (pTrf.at 0x60 :: intRegs pTrf) s.block b)) ∧
   (∀ s : State, s.awake → s.block.trf.entries = [] → s.block.trf.outside = [] → exec (.ingressService []) s = .next s) ∧
   (∀ s : State, s.awake → s.block.Canonical → s.block.egress ≠ [] → (∀ e ∈ s.block.egress, 64 ≤ e.queue ∧ e.queue < 70) →
     Completes (.egressService []) s (fun b => ∃ e ∈ s.block.egress, b.egress = s.block.egress.erase e ∧
       e.msg ∈ b.out.sent ∧ b.cmds = s.block.cmds ∧ b.hostMem = s.block.hostMem)) ∧
   (∀ s : State, s.awake → s.block.egress = [] → exec (.egressService []) s = .next s)) ∧
  (∀ (s : State) (v : BitVec 32), s.open_ → Quiet s.block pTrf → s.block.Canonical → s.block.CanonicalParts →
     v.getLsbD 2 = true →
     ∀ f, s.block.fld pTrf 0x140 0 13 = f → s.block.flowKind f = 1 ∨ s.block.flowKind f = 2 →
     (v.getLsbD 0 = false ∨ (1 ≤ s.block.get pTrf 0x148 ∧ s.block.get pTrf 0x148 ≤ s.block.get pTrf 0x14C ∧
         1 ≤ s.block.get pTrf 0x150 ∧ s.block.get pTrf 0x150 ≤ s.block.get pTrf 0x154) →
       Completes (.load v) s (fun b => (b.flow f).en = v.getLsbD 0 ∧ (b.flow f).unitBytes = v.getLsbD 1 ∧
         (b.flow f).cir = s.block.get pTrf 0x148 ∧ (b.flow f).pir = s.block.get pTrf 0x14C ∧
         (b.flow f).tc = 100000 * s.block.get pTrf 0x150 ∧ (b.flow f).tp = 100000 * s.block.get pTrf 0x154 ∧
         (b.flow f).last = s.block.meter ∧ (b.flow f).green = (s.block.flow f).green ∧
         (∀ g, g ≠ f → b.flow g = s.block.flow g) ∧ b.sans = { s.block.sans with trf := b.trf } ∧
         RegsBut (pTrf.at 0x144 :: writeRegs) s.block b)) ∧
     (v.getLsbD 0 = true ∧ (s.block.get pTrf 0x148 = 0 ∨ s.block.get pTrf 0x14C < s.block.get pTrf 0x148 ∨
         s.block.get pTrf 0x150 = 0 ∨ s.block.get pTrf 0x154 < s.block.get pTrf 0x150) →
       Completes (.load v) s (fun b => b.fld pTrf 0x10 17 1 = 1 ∧
         OnlyRegs (pTrf.at 0x144 :: errRegs pTrf ++ writeRegs) s.block b)))

/-! ## Searches -/

/-- SEARCH, SEARCH_BATCH and SEARCH_HYBRID, handed over on a running die and passing every check, are bound to a version and
a cairn and fanned out at once when they can be; one that names a cairn above the local visible cairn waits unbound.
QUERY_ADMISSION binds a search that waits and fans it out; one whose deadline has passed ends LATE, and one that cannot be
bound yet goes on waiting; one that needs a place which no module serves ends. (Choices of the model in it: log 6, 7, 8, 34.) -/
def Obligations.SearchesAdmitted : Prop :=
  (∀ (s : State) (id : Nat), s.awake → s.block.Canonical → ∀ c, s.block.cmd id = some c →
     c.phase = .handed → s.block.passed c.deadline = false → s.block.recheck c = .pass → s.block.running (pQpl 0) = true →
     s.block.admitClosed 0 = false → c.pay.space ≠ 1 → s.block.lacksLease c = false → s.block.searchOf id = none →
     ∀ x, x = s.block.newSearch c → x.encode = false →
     searchCheck s.block c (searchParams c) (queryHeader (s.block.readInput c 0 64)) x.terms = none →
     ∀ e ∈ [(0x10, Instr.search id), (0x11, .searchBatch id), (0x12, .searchHybrid id [])], c.opcode = e.1 →
       (∀ ver cairn v, Bindable s.block c 0 x ver cairn v →
         Completes e.2 s (fun b => FannedOut s.block b c x ver cairn v ∧
           ∃ d, b.cmd id = some d ∧ d.phase = .working ∧ d.cairn = cairn)) ∧
       (s.block.running pIdx = true → (c.opcode = 0x12 → s.block.tableHas x.table x.tversion = true) →
         (s.block.index x.index).bind x.version x.cairn = .held →
         Completes e.2 s (fun b => b.searchOf id = some x ∧ b.qpl.ctxs = s.block.qpl.ctxs ∧
           (∃ d, b.cmd id = some d ∧ d.phase = .working) ∧ b.hostMem = s.block.hostMem))) ∧
  (∀ (s : State) (id : Nat), s.awake → s.block.Canonical → ∀ c, s.block.cmd id = some c → Quiet s.block (pQpl c.die) →
     s.block.running (pQpl c.die) = true → ∀ x, s.block.searchOf id = some x → x.bound = false →
     (∀ ver cairn v, Bindable s.block c c.die x ver cairn v → Completes (.queryAdmission id) s (fun b =>
       FannedOut s.block b c x ver cairn v ∧ ∃ d, b.cmd id = some d ∧ d.cairn = cairn)) ∧
     (s.block.passed c.deadline = true → Completes (.queryAdmission id) s (fun b => b.cmd id = none)) ∧
     (∀ ver cairn v, s.block.passed c.deadline = false → s.block.running pIdx = true → x.encode = false → c.opcode ≠ 0x12 →
       (s.block.index x.index).bind x.version x.cairn = .bound ver cairn →
       (s.block.index x.index).version ver = some v → boundCheck v.root x.dim x.terms = false →
       s.block.ctxUsed c.die + x.queries.length ≤ 131072 → s.block.lanePurging c.pitch = false →
       (∃ p ∈ s.block.searchPlaces x.index v, s.block.placeReady p = false) →
       Completes (.queryAdmission id) s (fun b => b.cmd id = none)) ∧
     (s.block.passed c.deadline = false → s.block.running pIdx = true → c.opcode ≠ 0x12 →
       (s.block.index x.index).bind x.version x.cairn = .held → exec (.queryAdmission id) s = .next s))

/-- A shard request takes a context for the shards it names, which are those of this place, with the arrival plus its budget
as the deadline; with no QPL page running it is answered DISABLED; one for a shard that another place holds is passed on to
it with the budget of a hop. The walk of a shard ends with its ranked list, and wave 0 starts; a wave that ends starts the
next, or ends the shard when the wave bound holds. The pools of a place, of shards and of its side list, join the query's
lists while they are outstanding; the last of them start the pool merge. Pools that are not outstanding change nothing.
(Choices of the model in it: log 6, 8, 12, 128, 140.) -/
def Obligations.ShardsSearched : Prop :=
  ((∀ (s : State) (r : ShardReq), s.awake → s.block.Canonical → r.shards ≠ [] →
     (∀ k ∈ r.shards, s.block.placeOfShard r.index k = s.block.place ∧ s.block.shardMoving r.index k = false) →
     s.block.running (pQpl 0) = true → s.block.running pIdx = true →
     ∀ v, (s.block.index r.index).version r.version = some v → v.state ≠ .mounting → s.block.ctxUsed 0 < 131072 →
     s.block.lanePurging (some (s.block.pitchAt (s.block.meter + 10 * r.budget.toNat))) = false →
     (r.side = true → (s.block.index r.index).side ≠ [] → s.block.anySlu = true) → s.block.ctx s.block.qpl.nextCtx = none →
     Completes (.shardRequest r) s (fun b => ∃ y, b.ctx s.block.qpl.nextCtx = some y ∧ y.work = .shard r ∧
       y.version = r.version ∧ y.cairn = r.cairn ∧ y.deadline = some (s.block.meter + 10 * r.budget.toNat) ∧
       y.shards.map (·.shard) = r.shards ∧
       (∀ h ∈ y.shards, h.ranked = none ∧ h.ended = false) ∧ b.qpl.nextCtx = s.block.qpl.nextCtx + 1 ∧
       b.hostMem = s.block.hostMem ∧ b.cmds = s.block.cmds)) ∧
   (∀ (s : State) (r : ShardReq), s.awake → (r.shards ≠ [] ∨ r.side = true) →
     (∀ k ∈ r.shards, s.block.placeOfShard r.index k = s.block.place ∧ s.block.shardMoving r.index k = false) →
     s.block.running (pQpl 0) = false → s.block.running (pQpl 1) = false →
     Completes (.shardRequest r) s (fun b => ∃ m, Posted m b ∧ m.toward = .place r.fromPlace ∧ m.kind = .shardReply ∧
       m.body = .answer (.ended 0x04) ∧ b.qpl = s.block.qpl ∧ b.hostMem = s.block.hostMem ∧ b.cmds = s.block.cmds)) ∧
   (∀ (s : State) (r : ShardReq) (k : Nat), s.awake → r.shards = [k] → r.side = false →
     s.block.placeOfShard r.index k ≠ s.block.place → ∀ n, n = shardBudget r.budget.toNat (s.block.fld (pQpl 0) 0x108 0 16) → n ≠ 0 →
     Completes (.shardRequest r) s (fun b => ∃ m, Posted m b ∧ m.toward = .place (s.block.placeOfShard r.index k) ∧
       m.kind = .forwarded ∧ m.body = .forward (.shard { r with budget := n }) ∧
       b.qpl = s.block.qpl ∧ b.hostMem = s.block.hostMem ∧ b.cmds = s.block.cmds))) ∧
  (∀ (s : State) (ctx shard : Nat) (r : ShardReq) (h : ShardRun), s.awake → ∀ x, s.block.ctx ctx = some x →
     x.work = .shard r → x.shards.find? (fun h => decide (h.shard = shard)) = some h →
     (∀ v, (s.block.index x.index).version x.version = some v → h.ranked = none → 0 < r.waves → 0 < r.width →
       s.block.unstarted ctx (fun y => decide (y = .walk shard)) = false →
       rankedParts v (r.query.map bf16) shard r.width r.waves ≠ [] →
       Completes (.navigationWalkEnd ctx shard) s (fun b => ∃ y g, b.ctx ctx = some y ∧
         y.shards.find? (fun h => decide (h.shard = shard)) = some g ∧
         g.ranked = some (rankedParts v (r.query.map bf16) shard r.width r.waves) ∧ g.wave = 0 ∧ g.merged = false ∧
         g.ended = h.ended ∧ b.hostMem = s.block.hostMem ∧ b.cmds = s.block.cmds)) ∧
     (∀ l, h.ranked = some l → h.ended = false → h.merged = true → h.awaiting = [] →
       (r.noSkip = true ∨ h.wave = 0 ∨ h.full = false ∨ h.added = true) → h.wave + 1 < r.waves →
       waveOf l r.width (h.wave + 1) ≠ [] →
       Completes (.waveEnd ctx shard) s (fun b => ∃ y g, b.ctx ctx = some y ∧
         y.shards.find? (fun h => decide (h.shard = shard)) = some g ∧ g.wave = h.wave + 1 ∧ g.merged = false ∧
         g.full = decide (h.pool.length = keepOf r) ∧ g.pool = h.pool ∧ g.ended = false ∧
         b.hostMem = s.block.hostMem ∧ b.cmds = s.block.cmds)) ∧
     (∀ l, h.ranked = some l → h.ended = false → h.merged = true → h.awaiting = [] → r.noSkip = false → 1 ≤ h.wave →
       h.full = true → h.added = false → (∃ g ∈ x.shards, g.shard ≠ shard ∧ g.ended = false) →
       Completes (.waveEnd ctx shard) s (fun b => ∃ y g, b.ctx ctx = some y ∧
         y.shards.find? (fun h => decide (h.shard = shard)) = some g ∧ g.ended = true ∧ g.pool = h.pool ∧
         b.sans = { s.block.sans with qpl := b.qpl } ∧ RegsBut [(pQpl x.die).at 0x70] s.block b)) ∧
     (h.ranked = none ∨ h.ended = true ∨ h.merged = false ∨ h.awaiting ≠ [] → exec (.waveEnd ctx shard) s = .next s)) ∧
  (∀ (s : State) (ctx id qn place : Nat) (x : Ctx) (y : Search) (q : QueryRun) (ls : List (Nat × List Entry))
     (side : Option (List Entry)), s.awake → s.block.ctx ctx = some x → Quiet s.block (pQpl x.die) →
     x.work = .admitted id qn → s.block.searchOf id = some y → y.queries[qn]? = some q → q.result = none →
     ∀ new, new = ls.filter (fun l => decide (l.1 ∈ q.shards)) →
     ((place ∈ q.places ∧ side.isSome = true) ∨ new ≠ [] →
       ∀ p, p = { q with lists := q.lists ++ new.map (·.2) ++ (if place ∈ q.places then side.toList else []),
                         shards := q.shards.filter (fun k => !new.any (fun l => decide (l.1 = k))),
                         places := if side.isSome then q.places.erase place else q.places } →
       (p.places ≠ [] ∨ p.shards ≠ [] → Completes (.shardPoolReturn ctx place (.pools ls side)) s (fun b =>
         ∃ z, b.searchOf id = some z ∧ z.queries[qn]? = some p ∧
           b.sans = { s.block.sans with qpl := b.qpl } ∧ b.regs = s.block.regs)) ∧
       (p.places = [] → p.shards = [] → s.block.anySlu = true →
         Completes (.shardPoolReturn ctx place (.pools ls side)) s (fun b =>
           (∃ z, b.searchOf id = some z ∧ z.queries[qn]? = some p) ∧
           (∃ o ∈ b.ops, o.work = .poolMerge id qn ∧ o.deadline = x.deadline) ∧ b.hostMem = s.block.hostMem)) ∧
       (p.places = [] → p.shards = [] → s.block.anySlu = false → (s.block.cmd id).isSome = true →
         Completes (.shardPoolReturn ctx place (.pools ls side)) s (fun b => b.cmd id = none))) ∧
     (¬ (place ∈ q.places ∧ side.isSome = true) → new = [] →
       exec (.shardPoolReturn ctx place (.pools ls side)) s = .next s))

/-- The merges of a selection unit: a wave's sorted returns join the shard pool, which keeps the lowest C; the pools of a
query become its global pool, after which refinement is asked of the places that hold its entries, or the final selection
starts; the final selection of a search's one query ends the command. A free slot of a running unit takes the waiting
operation with the earliest deadline, then arrival. (Choices of the model in it: log 8.) -/
def Obligations.SelectionMerges : Prop :=
  ((∀ (s : State) (ctx shard u : Nat) (o : SluOp) (r : ShardReq) (h : ShardRun), s.awake → Quiet s.block (pSlu u) →
     s.block.opInSlot (.shardMerge ctx (some shard)) = some (u, o) → ∀ x, s.block.ctx ctx = some x → x.work = .shard r →
     x.shards.find? (fun h => decide (h.shard = shard)) = some h → listsOk firstPassLt h.returns = true →
     Completes (.shardMerge ctx (some shard)) s (fun b => ∃ y g, b.ctx ctx = some y ∧
       y.shards.find? (fun h => decide (h.shard = shard)) = some g ∧
       g.pool = lowest (keepOf r) (h.pool ++ h.returns.flatten) ∧ g.returns = [] ∧ g.merged = true ∧
       (g.added = true ↔ g.pool ≠ h.pool) ∧ (∀ p ∈ b.ops, p.id ≠ o.id) ∧
       b.sans = { s.block.sans with qpl := b.qpl, ops := b.ops } ∧ RegsBut [(pSlu u).at 0x50] s.block b)) ∧
   (∀ (s : State) (id qn u : Nat) (o : SluOp), s.awake → Quiet s.block (pSlu u) → s.block.anySlu = true →
     s.block.opInSlot (.poolMerge id qn) = some (u, o) → ∀ c, s.block.cmd id = some c → ∀ x, s.block.searchOf id = some x →
     ∀ q, x.queries[qn]? = some q → listsOk firstPassLt q.lists = true →
     Completes (.poolMerge id qn) s (fun b => ∃ y p, b.searchOf id = some y ∧ y.queries[qn]? = some p ∧
       p.pool = some (poolMerge (if x.refine = 0 then x.k else x.refine) q.lists x.postings).1 ∧ p.lists = [] ∧
       (x.refine = 0 → ∃ o' ∈ b.ops, o'.work = .final id qn) ∧
       (x.refine ≠ 0 → ∀ e ∈ (poolMerge x.refine q.lists x.postings).1, ∃ m, Posted m b ∧ m.toward = .place e.place ∧
         m.kind = .refineRequest) ∧ b.hostMem = s.block.hostMem ∧ b.cmds = s.block.cmds)) ∧
   (∀ (s : State) (id u : Nat) (o : SluOp) (q : QueryRun), s.awake → Quiet s.block (pSlu u) →
     s.block.opInSlot (.final id 0) = some (u, o) → ∀ c, s.block.cmd id = some c → c.opcode ≠ 0x11 →
     ∀ x, s.block.searchOf id = some x → x.queries = [q] → ∀ pool, q.pool = some pool → q.result = none → x.refine = 0 →
     Completes (.finalSelection id 0 []) s (fun b => b.cmd id = none))) ∧
  (∀ (s : State) (u : Fin 64), s.awake →
     (s.block.running (pSlu u.val) = true → s.block.slotsUsed u.val < 4 → ∀ o ∈ s.block.ops, o.unit = none →
       (∀ x ∈ s.block.ops, x.unit = none → x.id ≠ o.id → opBefore o x = true) →
       Completes (.operationStart u) s (fun b =>
         (∃ x ∈ b.ops, x.id = o.id ∧ x.work = o.work ∧ x.unit = some u.val) ∧
         (∀ x ∈ s.block.ops, x.id ≠ o.id → x ∈ b.ops) ∧ b.sans = { s.block.sans with ops := b.ops } ∧
         RegsBut [(pSlu u.val).at 0x108] s.block b)) ∧
     (s.block.slotsUsed u.val = 4 → exec (.operationStart u) s = .next s))

/-- A command whose deadline the meter has reached ends; before that nothing happens. A pitch that has ended closes: its lane
purges and no entry of it is left; a purge that ends opens its lane. (Choices of the model in it: log 6, 10.) -/
def Obligations.DeadlinesAndPitches : Prop :=
  (∀ (s : State) (id : Nat), s.awake → ∀ c, s.block.cmd id = some c →
    (s.block.passed c.deadline = false → exec (.deadline (.command id)) s = .next s) ∧
    (s.block.deadlineFree id = true → exec (.deadline (.command id)) s = .next s) ∧
    (s.block.passed c.deadline = true → s.block.deadlineFree id = false → s.block.versionOf id = none →
      (∀ e ∈ s.block.jobList, e.2.loadCmd ≠ some id ∧ e.2.runCmd ≠ some id) →
      Completes (.deadline (.command id)) s (fun b => b.cmd id = none))) ∧
  (∀ (s : State) (id : Nat) (r : ShardReq), s.awake → ∀ x, s.block.ctx id = some x → x.work = .shard r →
    s.block.passed x.deadline = true →
    Completes (.deadline (.context id)) s (fun b => b.ctx id = none ∧ b.cmds = s.block.cmds)) ∧
  (∀ s : State, s.awake → s.block.pitches = true →
    s.block.get (pQpl 0) 0x110 + (s.block.qpl.closed + 1) * s.block.pitchLen ≤ s.block.meter →
    Completes .pitchClose s (fun b => b.qpl.closed = s.block.qpl.closed + 1 ∧ s.block.qpl.closed % 8 ∈ b.qpl.purging ∧
      (∀ e ∈ b.trf.entries, e.pitch ≠ some s.block.qpl.closed))) ∧
  (∀ s : State, s.awake → s.block.meter < s.block.get (pQpl 0) 0x110 + (s.block.qpl.closed + 1) * s.block.pitchLen →
    exec .pitchClose s = .next s) ∧
  (∀ (s : State) (lane : Fin 8), s.awake → lane.val ∈ s.block.qpl.purging → Completes (.purgeEnd lane) s (fun b =>
    lane.val ∉ b.qpl.purging ∧ (∀ l, l ≠ lane.val → (l ∈ b.qpl.purging ↔ l ∈ s.block.qpl.purging)) ∧
    b.hostMem = s.block.hostMem ∧ b.cmds = s.block.cmds)) ∧
  (∀ (s : State) (lane : Fin 8), s.awake → lane.val ∉ s.block.qpl.purging → exec (.purgeEnd lane) s = .next s)

/-- TOPK: a handed command that passes its checks begins with one operation or more; a row that completes writes its block of
the best K elements into the result area, one bit of TIE_CUT in its header, and frees its slot. The order in which TOPK ranks
a row: by key, then position, each element once. (Choices of the model in it: log 13.) -/
def Obligations.TopkResults : Prop :=
  ((∀ (s : State) (id : Nat), s.awake → ∀ c, s.block.cmd id = some c → c.phase = .handed → c.opcode = 0x13 →
     s.block.passed c.deadline = false → s.block.recheck c = .pass → s.block.admitClosed 0 = false → c.pay.space ≠ 1 → topkCheck c = none →
     s.block.lacksLease c = false → s.block.anySlu = true → (∀ t ∈ s.block.topks, t.cmd ≠ id) →
     (∀ o ∈ s.block.ops, o.serves [id] [] = false) →
     Completes (.topk id) s (fun b => (∃ t ∈ b.topks, t.cmd = id ∧ t.rows = (topkParams c).rows ∧ t.done = 0 ∧ 1 ≤ t.next) ∧
       (∃ o ∈ b.ops, o.work = .topkRow id 0) ∧ (∃ d, b.cmd id = some d ∧ d.phase = .working) ∧
       b.hostMem = s.block.hostMem)) ∧
   (∀ (s : State) (id r : Nat) (o : SluOp) (t : Topk), s.awake → s.block.Canonical → s.block.anySlu = true → ∀ c, s.block.cmd id = some c →
     c.phase = .working → c.opcode = 0x13 → s.block.passed c.deadline = false → c.resValid = true → c.res.space = 0 →
     s.block.ops = [o] → o.work = .topkRow id r → ∀ u, o.unit = some u → s.block.topks = [t] → t.cmd = id →
     t.done + 1 ≠ t.rows →
     Completes (.topk id) s (fun b =>
       Memory.read b.hostMem (c.res.addr + r * (topkParams c).block)
           (topkBlock (topkParams c) (topkRow s.block c (topkParams c) r)).1.length =
         (topkBlock (topkParams c) (topkRow s.block c (topkParams c) r)).1 ∧
       MemBut (c.res.addr + r * (topkParams c).block)
         (topkBlock (topkParams c) (topkRow s.block c (topkParams c) r)).1.length s.block b ∧
       (∀ p ∈ b.ops, p.work ≠ .topkRow id r ∨ t.next ≤ r) ∧
       (∃ y ∈ b.topks, y.cmd = id ∧ y.done = t.done + 1)))) ∧
  (∀ (format : Nat) (descend : Bool) (row : List Nat),
     (topkRank format descend row).Perm
       ((List.range row.length).map (fun i => ((topkKey format descend (row.getD i 0)).toNat, i, row.getD i 0))) ∧
     (topkRank format descend row).Pairwise (fun x y => x.1 < y.1 ∨ (x.1 = y.1 ∧ x.2.1 < y.2.1)))

/-! ## Near-bank units and channel engines -/

/-- A queued sweep takes a free LUT bank when its table is right and no other that could take one stands before it in the
stack's queue. A parity error of a unit without sweeps fences it, and is recorded. The first loaded sweep whose unit computes
no other and has a shortlist free steps when a token is free, and waits counted when none is; it yields to waiting requests, or to a refresh or scrub of its bank, at the end of
its column group; it resumes after them; and it ends returning its shortlist. Patrol scrub takes the rows in order. (Choices of the model in it:
log 10, 15, 16, 130.) -/
def Obligations.SweepsRun : Prop :=
  ((∀ (s : State) (n : Fin 9) (id : Nat), s.awake → s.block.Canonical → ∀ w, s.block.sweep n.val id = some w →
     w.state = .queued → s.block.pageState (pPim n.val) = 2 → (s.block.stack n.val).held w.unit < 2 →
     (∀ v ∈ (s.block.stack n.val).sweeps, v.state = .queued → (s.block.stack n.val).held v.unit < 2 → v.id ≠ id →
       sweepBefore w v = true) →
     (sget 0 s.block.injected (pPim n.val).base).getLsbD 16 = false →
     Completes (.sweepTaken n id true) s (fun b => b.sweep n.val id = some { w with state := .loaded } ∧
       (∀ m, m ≠ n.val → b.stack m = s.block.stack m) ∧ b.sans = { s.block.sans with stackSet := b.stackSet } ∧
       RegsBut [(pMem n.val).at 0x78] s.block b)) ∧
   (∀ (s : State) (n : Fin 9) (id : Nat), s.awake → ∀ w, s.block.sweep n.val id = some w → w.state ≠ .queued →
     ∀ ok, exec (.sweepTaken n id ok) s = .next s) ∧
   (∀ (s : State) (n : Fin 9) (u : Fin 1024) (list : Bool), s.awake → s.block.Canonical →
     u.val ∉ (s.block.stack n.val).fenced → (∀ w ∈ (s.block.stack n.val).sweeps, w.unit ≠ u.val) →
     Completes (.unitFence n u list) s (fun b => u.val ∈ (b.stack n.val).fenced ∧
       (∀ k, k ≠ u.val → (k ∈ (b.stack n.val).fenced ↔ k ∈ (s.block.stack n.val).fenced)) ∧
       b.fld (pPim n.val) 0x10 (if list then 17 else 16) 1 = 1 ∧ b.fld (pPim n.val) 0x20 17 1 = 1 ∧
       b.sans = { s.block.sans with stackSet := b.stackSet } ∧
       RegsBut (errRegs (pPim n.val) ++ intRegs (pPim n.val)) s.block b)) ∧
   (∀ (s : State) (n : Fin 9) (u : Fin 1024) (list : Bool), s.awake → u.val ∈ (s.block.stack n.val).fenced →
     (∀ w ∈ (s.block.stack n.val).sweeps, w.unit ≠ u.val) →
     Completes (.unitFence n u list) s (fun b => b.fld (pPim n.val) 0x10 (if list then 17 else 16) 1 = 1 ∧
       OnlyRegs (errRegs (pPim n.val)) s.block b))) ∧
  (∀ (s : State) (n : Fin 9) (id : Nat), s.awake → s.block.Canonical → Quiet s.block (pPim n.val) →
   ∀ w, s.block.sweep n.val id = some w →
     (w.state = .loaded → (s.block.stack n.val).computing w.unit = none → (s.block.stack n.val).returning w.unit < 2 →
       (∀ v ∈ (s.block.stack n.val).sweeps, v.state = .loaded → (s.block.stack n.val).computing v.unit = none →
         (s.block.stack n.val).returning v.unit < 2 → v.id ≠ id → sweepBefore w v = true) →
       (s.block.stack n.val).active < s.block.quota n.val →
       Completes (.sweepStart n id none) s (fun b => b.sweep n.val id = some { w with state := .stepping } ∧
         b.sans = { s.block.sans with stackSet := b.stackSet } ∧ RegsBut [(pPim n.val).at 0x110] s.block b)) ∧
     (w.state = .loaded → (s.block.stack n.val).computing w.unit = none → (s.block.stack n.val).returning w.unit < 2 →
       (∀ v ∈ (s.block.stack n.val).sweeps, v.state = .loaded → (s.block.stack n.val).computing v.unit = none →
         (s.block.stack n.val).returning v.unit < 2 → v.id ≠ id → sweepBefore w v = true) →
       s.block.quota n.val ≤ (s.block.stack n.val).active → w.waited = false →
       Completes (.sweepStart n id none) s (fun b => b.sweep n.val id = some { w with waited := true } ∧
         b.reg ((pPim n.val).at 0x68) = s.block.reg ((pPim n.val).at 0x68) + 1 ∧
         b.sans = { s.block.sans with stackSet := b.stackSet } ∧ RegsBut [(pPim n.val).at 0x68] s.block b)) ∧
     (w.state = .stepping → w.stopAt s.block.free < w.seg.steps →
       (∃ r ∈ (s.block.stack n.val).waiting, pairOf r = w.unit) →
       Completes (.sweepYield n id) s (fun b => ∃ m, b.sweep n.val id =
           some { w with state := .yielded, step := w.stopAt s.block.free, serve := m, closed := false, yieldAt := none } ∧
         1 ≤ m ∧ m ≤ 8 ∧
         b.sans = { s.block.sans with stackSet := b.stackSet } ∧
         RegsBut [(pMem n.val).at 0x58, (pPim n.val).at 0x60, (pPim n.val).at 0x48] s.block b)) ∧
     (w.state = .yielded → Completes (.sweepResume n ⟨id, none⟩) s (fun b =>
       b.sweep n.val id = some { w with
         state := .stepping, serve := 0, closed := false
         yieldAt := if (takePair w.unit w.serve (s.block.stack n.val).waiting).2.any (fun r => decide (pairOf r = w.unit)) then
           some (w.seg.groupEnd w.step) else none } ∧
       (b.stack n.val).waiting = (takePair w.unit w.serve (s.block.stack n.val).waiting).2 ∧
       b.sans = { s.block.sans with stackSet := b.stackSet } ∧
       RegsBut [(pMem n.val).at 0x40, (pMem n.val).at 0x48, (pMem n.val).at 0x60, (pMem n.val).at 0x68,
         (pMem n.val).at 0x78] s.block b)) ∧
     (∀ t, w.state = .stepping → w.yieldAt = some t → t < w.seg.steps → exec (.sweepEnd n id) s = .next s) ∧
     (w.state = .stepping → (∀ t, w.yieldAt = some t → w.seg.steps ≤ t) → Completes (.sweepEnd n id) s (fun b =>
       b.sweep n.val id = some { w with state := .returning } ∧
       b.reg ((pPim n.val).at 0x40) = s.block.reg ((pPim n.val).at 0x40) + 1 ∧
       b.sans = { s.block.sans with stackSet := b.stackSet })) ∧
     (∀ (d : Fin 8) (k : Fin 256), (s.block.stack n.val).computing (d.val * 128 + k.val / 2) = some w →
       w.state = .stepping → w.seg.bank = k.val → w.stopAt s.block.free < w.seg.steps →
       ∀ m, m = ((s.block.stack n.val).waiting.filter (fun r => decide (pairOf r = w.unit))).length →
       (Completes (.dramRefresh n d k) s (fun b =>
         b.sweep n.val id = some { w with
             state := .yielded, step := w.stopAt s.block.free, serve := min m 8, closed := true, yieldAt := none } ∧
         b.sans = { s.block.sans with stackSet := b.stackSet } ∧
         RegsBut [(pMem n.val).at 0x58, (pMem n.val).at 0x70, (pPim n.val).at 0x60, (pPim n.val).at 0x48] s.block b)) ∧
       (∀ row, row < 4096 → scrubNumber d.val k.val row = (s.block.stack n.val).scrubbed →
         (0 < (s.block.stack n.val).scrubbed ∨ (s.block.stack n.val).scrubFrom ≤ s.block.meter) →
         Completes (.patrolScrub n d k row) s (fun b =>
           b.sweep n.val id = some { w with
             state := .yielded, step := w.stopAt s.block.free, serve := min m 8, closed := true, yieldAt := none } ∧
           (b.stack n.val).scrubbed = ((s.block.stack n.val).scrubbed + 1) % scrubRows ∧
           b.sans = { s.block.sans with stackSet := b.stackSet } ∧
           RegsBut [(pMem n.val).at 0x58, (pMem n.val).at 0x70, (pPim n.val).at 0x60, (pPim n.val).at 0x48] s.block b))) ∧
     (∀ (d : Fin 8) (k : Fin 256) (row : Nat), scrubNumber d.val k.val row ≠ (s.block.stack n.val).scrubbed →
       exec (.patrolScrub n d k row) s = .next s))

/-- A shortlist whose CRC holds leaves its sweep and returns its annotated entries to the shard that awaits them. A
controller request: a write to an index row is refused and recorded; a request to a pair whose unit computes waits; a read
returns the row's bytes; a write changes them and no other row. (Choices of the model in it: log 15, 17.) -/
def Obligations.StackRequests : Prop :=
  (∀ (s : State) (n : Fin 9) (id : Nat) (r : ShardReq) (h : ShardRun),
     s.awake → s.block.Canonical → s.block.anySlu = true → ∀ w, s.block.sweep n.val id = some w → w.state = .returning →
     (sget 0 s.block.injected (pPim n.val).base).getLsbD 17 = false → ∀ x, s.block.ctx w.ctx = some x → x.work = .shard r →
     ∀ v, (s.block.index x.index).version x.version = some v → ∀ p, v.part w.part = some p →
     x.shards.find? (fun h => decide (h.shard = shardOf w.part)) = some h → w.part ∈ h.awaiting →
     Completes (.shortlistAnnotation n id true) s (fun b => b.sweep n.val id = none ∧
       (∃ y g, b.ctx w.ctx = some y ∧ y.shards.find? (fun h => decide (h.shard = shardOf w.part)) = some g ∧
         g.awaiting = h.awaiting.erase w.part ∧ g.returns = h.returns ++
           [scanSpan v p w.table r.terms x.cairn s.block.place w.seg.slot w.seg.count w.keep] ∧
         (g.awaiting = [] → h.merged = false → h.ended = false →
           ∃ o ∈ b.ops, o.work = .shardMerge w.ctx (some (shardOf w.part)))) ∧
       b.cmds = s.block.cmds ∧ b.hostMem = s.block.hostMem)) ∧
  (∀ (s : State) (n : Fin 9) (r : DramReq), s.awake → s.block.Canonical → Quiet s.block (pMem n.val) →
   s.block.pageState (pMem n.val) = 2 →
     (∀ bs, r.write = some bs → (r.die.val, r.bank.val, r.row) ∈ s.block.indexRows n.val → r.cmd = none →
       Completes (.controllerRequest n r) s (fun b => b.fld (pMem n.val) 0x10 17 1 = 1 ∧ b.fld (pMem n.val) 0x20 17 1 = 1 ∧
         b.get (pMem n.val) 0x118 = (r.die.val + r.bank.val * 8 + r.row * 2048 + 2 ^ 35) % 2 ^ 64 ∧
         b.reg ((pMem n.val).at 0x50) = s.block.reg ((pMem n.val).at 0x50) + 1 ∧
         OnlyRegs ([(pMem n.val).at 0x118, (pMem n.val).at 0x50] ++ errRegs (pMem n.val) ++ intRegs (pMem n.val)) s.block b)) ∧
     (∀ bs, r.write = some bs → (r.die.val, r.bank.val, r.row) ∉ s.block.indexRows n.val →
       (s.block.stack n.val).computing (pairOf r) = none →
       Completes (.controllerRequest n r) s (fun b =>
         (b.stack n.val).row r.die.val r.bank.val r.row =
           Memory.write ((s.block.stack n.val).row r.die.val r.bank.val r.row) r.col bs ∧
         (∀ d k m, (d, k, m) ≠ (r.die.val, r.bank.val, r.row) →
           (b.stack n.val).row d k m = (s.block.stack n.val).row d k m) ∧
         (b.stack n.val).sweeps = (s.block.stack n.val).sweeps ∧ (∀ m, m ≠ n.val → b.stack m = s.block.stack m) ∧
         b.sans = { s.block.sans with stackSet := b.stackSet } ∧
         RegsBut [(pMem n.val).at 0x48, (pMem n.val).at 0x78] s.block b)) ∧
     (r.write = none → r.uncorrectable = false →
       (s.block.stack n.val).computing (pairOf r) = none →
       Completes (.controllerRequest n r) s (fun b =>
         b.out.dram = Memory.read ((s.block.stack n.val).row r.die.val r.bank.val r.row) r.col r.len ∧
         OnlyRegs [(pMem n.val).at 0x40, (pMem n.val).at 0x78] s.block b)) ∧
     (r.write = none → r.uncorrectable = true → r.cmd = none →
       Completes (.controllerRequest n r) s (fun b => b.fld (pMem n.val) 0x10 16 1 = 1 ∧
         b.get (pMem n.val) 0x110 = (r.die.val + r.bank.val * 8 + r.row * 2048 + 2 ^ 35) % 2 ^ 64 ∧
         b.out.dram = s.block.out.dram ∧ b.stackSet = s.block.stackSet ∧ b.hostMem = s.block.hostMem)) ∧
     ((r.die.val, r.bank.val, r.row) ∉ s.block.indexRows n.val → (∃ bs, r.write = some bs) →
       (s.block.stack n.val).computing (pairOf r) ≠ none →
       Completes (.controllerRequest n r) s (fun b => (b.stack n.val).waiting = (s.block.stack n.val).waiting ++ [r] ∧
         b.out.dram = s.block.out.dram ∧ b.sans = { s.block.sans with stackSet := b.stackSet } ∧ b.regs = s.block.regs)))

/-- A work item whose data have their home on a channel goes to that channel's engine, or to its substitute, which counts it;
it takes a credit of its sender, or waits at the sender for one; a cold scan has the table its partition's CODE8 names, C and
the terms of its shard request. The engine gives channel time to the class it serves next: it starts reading the class's first
item, reads a tile, which one that cannot be read ends, sends a page to its LUN, or begins a block's move or erase; an erase that it
has begun has ended by its next operation; a window that ends clears the time used and takes SHARE anew. (Choices of the model in it:
log 18, 134.) -/
def Obligations.ChannelItems : Prop :=
  (∀ (s : State) (c : Fin 64), s.awake → s.block.Canonical → ∀ e, s.block.engineFor c.val = some e →
     (∀ r : RefineItem, s.block.refineOk r = true → s.block.atHome c.val (s.block.itemRuns (.refine r)) = true →
       ∀ i, i = { id := s.block.nextId, work := .refine r, channel := c.val, deadline := some r.deadline, state := .waiting } →
       ((s.block.engine e).credit r.qpl.val ≠ 0 → Completes (.refinementItem c r) s (fun b =>
         (b.engine e).items = (s.block.engine e).items ++ [i] ∧
         (b.engine e).credit r.qpl.val + 1 = (s.block.engine e).credit r.qpl.val ∧
         (∀ k, k ≠ e → b.engine k = s.block.engine k) ∧ b.nextId = s.block.nextId + 1 ∧
         RegsBut [(pFlc e).at 0x120, (pFlc e).at 0x78] s.block b ∧ b.hostMem = s.block.hostMem)) ∧
       ((s.block.engine e).credit r.qpl.val = 0 → Completes (.refinementItem c r) s (fun b =>
         (b.engine e).items = (s.block.engine e).items ∧ (b.engine e).held = (s.block.engine e).held ++ [i] ∧
         (∀ k, k ≠ e → b.engine k = s.block.engine k) ∧ b.hostMem = s.block.hostMem))) ∧
     (∀ (ctx part : Nat) (r : ColdItem), s.block.coldItem ctx part = some r →
       s.block.atHome c.val ((s.block.itemRuns (.cold r)).take 1) = true →
       (∀ x q v p, s.block.ctx ctx = some x → x.work = .shard q → (s.block.index x.index).version x.version = some v →
         v.part part = some p → r.table = (if p.code8 then q.table8 else q.table4) ∧ r.keep = keepOf q ∧ r.terms = q.terms) ∧
       ((s.block.engine e).credit r.qpl.val ≠ 0 → Completes (.coldScanItem c ⟨ctx, part⟩) s (fun b =>
         (b.engine e).items = (s.block.engine e).items ++ [{ id := s.block.nextId, work := .cold r, channel := c.val,
                                                             deadline := some r.deadline, state := .waiting }] ∧
         (b.engine e).credit r.qpl.val + 1 = (s.block.engine e).credit r.qpl.val ∧
         (∀ k, k ≠ e → b.engine k = s.block.engine k) ∧ b.nextId = s.block.nextId + 1 ∧
         RegsBut [(pFlc e).at 0x120, (pFlc e).at 0x78] s.block b ∧ b.hostMem = s.block.hostMem)))) ∧
  (∀ (s : State) (c : Fin 64) (r : RefineItem), s.awake →
     (s.block.refineOk r = false ∨ s.block.atHome c.val (s.block.itemRuns (.refine r)) = false) →
     exec (.refinementItem c r) s = .next s) ∧
  (∀ (s : State) (c : Fin 64) (ctx part : Nat), s.awake → s.block.coldItem ctx part = none →
     exec (.coldScanItem c ⟨ctx, part⟩) s = .next s) ∧
  ((∀ (s : State) (c : Fin 64) (t : Nat), s.awake → s.block.Canonical → s.block.pageState (pFlc c.val) = 2 →
     (∀ i ∈ (s.block.engine c.val).slow ++ (s.block.engine c.val).kept, i.served = true → ∀ r x, i.work ≠ .erase r x) →
     ∀ n, s.block.nextClass c.val = some n →
     (n ≤ 1 → ∀ i ∈ (s.block.engine c.val).items, i.cls = n → i.state = .waiting →
       (∀ j ∈ (s.block.engine c.val).items, j.cls = n → j.state = .waiting → j.id ≠ i.id → itemBefore i j = true) →
       Completes (.channelOperation c t) s (fun b =>
         (∃ j ∈ (b.engine c.val).items, j.id = i.id ∧ j.state = .reading ∧ j.issued = s.block.meter ∧
           j.limit = s.block.fld (pFlc c.val) 0x110 0 16) ∧
         (∀ j ∈ (s.block.engine c.val).items, j.id ≠ i.id → j ∈ (b.engine c.val).items) ∧
         (∀ k, k ≠ c.val → b.engine k = s.block.engine k) ∧ b.sans = { s.block.sans with engines := b.engines } ∧
         b.regs = s.block.regs)) ∧
     (∀ i p x, n = 2 → s.block.nextSlow c.val 2 = some i → i.work = .tile p none → p.channel = c.val → s.block.pageAt p = some x →
       (s.block.engine c.val).kept = [] →
       ((∀ k, k < 4 → s.block.readFrom true x k = some [x.2]) →
         (∀ a, s.block.siteAddress x = some a → s.block.readCount a.1 + 1 < 1000 * s.block.fld pFtl 0x124 0 16) →
         Completes (.channelOperation c t) s (fun b => (b.engine c.val).slow = (s.block.engine c.val).slow.erase i ∧
           (b.engine c.val).items = (s.block.engine c.val).items ∧ (∀ k, k ≠ c.val → b.engine k = s.block.engine k) ∧
           b.reg ((pFlc c.val).at 0x58) = s.block.reg ((pFlc c.val).at 0x58) + 16384 ∧
           b.reg ((pBay x.2.now).at 0x60) = s.block.reg ((pBay x.2.now).at 0x60) + 16384 ∧
           b.sans = { s.block.sans with engines := b.engines, ftl := { s.block.ftl with reads := b.ftl.reads } } ∧
           RegsBut [(pFlc c.val).at 0x58, (pBay x.2.now).at 0x60] s.block b)) ∧
       ((∀ k, k < 4 → s.block.readFrom true x k = none) → s.block.siteAddress x = none → Completes (.channelOperation c t) s (fun b =>
         (b.engine c.val).slow = (s.block.engine c.val).slow.erase i ∧
         b.reg ((pFlc c.val).at 0x68) = s.block.reg ((pFlc c.val).at 0x68) + 1 ∧ b.cmds = s.block.cmds ∧ b.hostMem = s.block.hostMem))) ∧
     (∀ q, n = 3 → s.block.ftl.programs.find? (fun p => decide (p.lun.channel.val = c.val) && !p.sent) = some q →
       Completes (.channelOperation c t) s (fun b => { q with sent := true } ∈ b.ftl.programs ∧
         b.ftl.programs.length = s.block.ftl.programs.length ∧ (b.engine c.val).items = (s.block.engine c.val).items ∧
         (∀ k, k ≠ c.val → b.engine k = s.block.engine k) ∧
         b.sans = { s.block.sans with engines := b.engines, ftl := { s.block.ftl with programs := b.ftl.programs } } ∧
         b.regs = s.block.regs)) ∧
     (∀ i, n = 4 → s.block.nextSlow c.val 4 = some i →
       Completes (.channelOperation c t) s (fun b =>
         (b.engine c.val).slow = mapIf (fun x => decide (x = i)) (fun x => { x with served := true }) (s.block.engine c.val).slow ∧
         (b.engine c.val).items = (s.block.engine c.val).items ∧ (∀ k, k ≠ c.val → b.engine k = s.block.engine k) ∧
         b.sans = { s.block.sans with engines := b.engines } ∧ b.regs = s.block.regs))) ∧
   (∀ (s : State) (c : Fin 64) (t : Nat) (r : BlockRef) (secure : Bool), s.awake → s.block.Canonical →
     s.block.pageState (pFlc c.val) = 2 → (s.block.engine c.val).slow = [⟨.erase r secure, true⟩] → (s.block.engine c.val).kept = [] →
     (s.block.engine c.val).items = [] → (∀ p ∈ s.block.ftl.programs, p.lun.channel ≠ c) → s.block.readsLun r.lun = false →
     Completes (.channelOperation c t) s (fun b => (b.engine c.val).slow = [] ∧ (∃ e ∈ b.ftl.erases, e.1 = r ∧ 0 < e.2) ∧
       b.reg (pFtl.at 0x48) = s.block.reg (pFtl.at 0x48) + 1 ∧
       b.reg (pFtl.at 0x78) = s.block.reg (pFtl.at 0x78) + (if secure then 1 else 0) ∧
       (∀ k, k ≠ c.val → b.engine k = s.block.engine k) ∧ b.sans = { s.block.sans with engines := b.engines, ftl := b.ftl })) ∧
   (∀ (s : State) (c : Fin 64), s.awake → s.block.Canonical →
     (s.block.meter / 100000 ≠ (s.block.engine c.val).window → Completes (.flcWindow c) s (fun b =>
       b.engine c.val = { s.block.engine c.val with used := [], window := s.block.meter / 100000,
                                                    shares := s.block.reg ((pFlc c.val).at 0x10C) } ∧
       (∀ k, k ≠ c.val → b.engine k = s.block.engine k) ∧ b.sans = { s.block.sans with engines := b.engines } ∧
       b.regs = s.block.regs)) ∧
     (s.block.meter / 100000 = (s.block.engine c.val).window → exec (.flcWindow c) s = .next s)))

/-- A read that decodes leaves its refinement item returning the exact distances of its candidates in refined-key order, and
a worn block is scheduled for rewrite; one that stays uncorrectable or passes READ_LIMIT ends the item TIER_FAULT, and so does
one of an item of either kind that is known to be uncorrectable or lies on a lost page. A result that waits and has its return credits is sent: to the search's
query here, or to the place that asked; its item leaves the store and its credit comes back. (Choices of the model in it: log 18, 19, 135.) -/
def Obligations.ChannelReads : Prop :=
  (∀ (s : State) (c : Fin 64) (id : Nat) (r : RefineItem), s.awake → s.block.Canonical → Quiet s.block (pFlc c.val) →
     ∀ l, l = s.block.itemRuns (.refine r) → (s.block.lunBusy c.val l = true → s.block.suspends c.val = true) →
     ∀ i, s.block.item c.val id = some i → i.state = .reading → i.work = .refine r →
     (∀ (corr retries t u p : Nat), s.block.runsLost c.val l = false → retries ≤ s.block.fld (pFlc c.val) 0x114 0 4 →
       ∀ v, (s.block.index r.index).version r.version = some v →
       (∀ e ∈ r.cands, (fullVector (s.block.index r.index) v e).isSome = true) →
       (s.block.engine c.val).room (32 * (r.cands.length + i.entries.length)) = true →
       Completes (.channelReadComplete c id (.decoded corr retries t u p)) s (fun b => ∃ j, b.item c.val id = some j ∧
         j.state = .returning ∧ j.refined = sortBy refinedLt (r.cands.filterMap (fun e =>
           (fullVector (s.block.index r.index) v e).map (fun vec => ⟨exactDistance v.root r.vector vec, e.vid, e.part⟩))) ∧
         (∀ k, k ≠ c.val → b.engine k = s.block.engine k) ∧
         (s.block.fld pFtl 0x128 0 8 < corr ∨ 0 < retries → blockAt c.val t u p ∈ b.ftl.rewrites) ∧
         b.hostMem = s.block.hostMem ∧ b.cmds = s.block.cmds)) ∧
     (∀ t u p w : Nat, s.block.runsLost c.val l = false → r.fromPlace ≠ s.block.place → (s.block.engine c.val).held = [] →
       Completes (.channelReadComplete c id (.uncorrectable t u p w)) s (fun b => b.item c.val id = none ∧
         b.fld (pFlc c.val) 0x10 16 1 = 1 ∧ blockAt c.val t u p ∈ b.ftl.rewrites ∧
         (∃ m, Posted m b ∧ m.toward = .place r.fromPlace ∧ m.kind = .refineReply ∧ m.args = [r.cmd, r.query, 0x03]) ∧
         b.hostMem = s.block.hostMem ∧ b.cmds = s.block.cmds)) ∧
     (i.issued + 100 * i.limit ≤ s.block.meter → r.fromPlace ≠ s.block.place →
       (s.block.engine c.val).held = [] → Completes (.readLimitExpiry c id) s (fun b => b.item c.val id = none ∧
         b.fld (pFlc c.val) 0x10 17 1 = 1 ∧
         (∃ m, Posted m b ∧ m.toward = .place r.fromPlace ∧ m.kind = .refineReply ∧ m.args = [r.cmd, r.query, 0x03]) ∧
         b.hostMem = s.block.hostMem ∧ b.cmds = s.block.cmds)) ∧
     (s.block.meter < i.issued + 100 * i.limit → exec (.readLimitExpiry c id) s = .next s)) ∧
  (∀ (s : State) (c : Fin 64) (id : Nat) (w : ItemWork) (read : ReadOutcome), s.awake → s.block.Canonical →
     ∀ l, l = s.block.itemRuns w → (s.block.lunBusy c.val l = true → s.block.suspends c.val = true) →
     ∀ i, s.block.item c.val id = some i → i.state = .reading → i.work = w → (s.block.engine c.val).held = [] →
     s.block.runsLost c.val l = true ∨ (∃ e ∈ flashWords l, ∃ x, e.2 = some x ∧ s.block.wordBad x e.1.2 = true) → Quiet s.block (pFlc c.val) →
     Completes (.channelReadComplete c id read) s (fun b => b.item c.val id = none ∧
       (∀ r, w = .refine r → r.fromPlace ≠ s.block.place →
         (∃ m, Posted m b ∧ m.toward = .place r.fromPlace ∧ m.kind = .refineReply ∧ m.args = [r.cmd, r.query, 0x03]) ∧
         b.hostMem = s.block.hostMem ∧ b.cmds = s.block.cmds) ∧
       (∀ k x q, w = .cold k → s.block.ctx k.ctx = some x → x.work = .shard q → q.fromPlace ≠ s.block.place →
         s.block.passed x.deadline = false →
         (∃ m, Posted m b ∧ m.toward = .place q.fromPlace ∧ m.kind = .shardReply ∧ m.args = [q.reqId, s.block.place] ∧
           m.body = .answer (.ended 0x03#8)) ∧ b.hostMem = s.block.hostMem ∧ b.cmds = s.block.cmds))) ∧
  (∀ (s : State) (c : Fin 64) (i : Item) (r : RefineItem), s.awake → s.block.Canonical →
     (s.block.engine c.val).items.find? (fun i => decide (i.state = .returning) &&
       decide (i.resultCredits ≤ s.block.returnCredit c.val i.sender)) = some i → i.work = .refine r →
     (s.block.engine c.val).held = [] →
     (r.fromPlace = s.block.place → Completes (.resultReturn c) s (fun b => b.item c.val i.id = none ∧
       (⟨i.sender, i.resultCredits, .final r.cmd r.query⟩ : Lent) ∈ (b.engine c.val).lent ∧
       (b.engine c.val).credit r.qpl.val = (s.block.engine c.val).credit r.qpl.val + 1 ∧
       (∀ x ∈ b.qpl.searches, x.cmd = r.cmd → ∃ y ∈ s.block.qpl.searches, y.cmd = r.cmd ∧
         x.queries.length = y.queries.length ∧ ∀ q p, y.queries[r.query]? = some q → x.queries[r.query]? = some p →
           p.refined = q.refined ++ [i.refined]) ∧
       b.cmds = s.block.cmds ∧ b.hostMem = s.block.hostMem)) ∧
     (r.fromPlace ≠ s.block.place → Completes (.resultReturn c) s (fun b => b.item c.val i.id = none ∧
       (b.engine c.val).credit r.qpl.val = (s.block.engine c.val).credit r.qpl.val + 1 ∧
       (∃ m, Posted m b ∧ m.toward = .place r.fromPlace ∧ m.kind = .refineReply ∧ m.args = [r.cmd, r.query, 0x00] ∧
         m.body = .refined i.refined) ∧ b.qpl = s.block.qpl ∧ b.cmds = s.block.cmds ∧ b.hostMem = s.block.hostMem)))

/-! ## Scan cores and matrix cores -/

/-- What the arithmetic and local instructions of a thread compute, and that they change nothing else; an execution fault ends a
job's run BAD_COMMAND and a search's shard request TIER_FAULT. (Choices of the model
in it: log 56, 63, 64, 65, 66, 67, 116, 140.) -/
def Obligations.ThreadsCompute : Prop :=
  ∀ (s : State) (t : ThreadRef) (j : Nat) (x : Job) (y : Thread), s.awake → s.block.Canonical →
    s.block.CanonicalParts → Ready s.block t j x y →
    (∀ op z, intOp op y.past x.codeLen = some z →
      Completes (.scalarInteger t op) s (fun b => Issued s.block b t j x z [])) ∧
    (∀ d a c : Fin 32, 32 ≤ (y.sreg c).toNat →
      intOp (.shl d a c) y.past x.codeLen = some (y.past.setS d 0) ∧ intOp (.shr d a c) y.past x.codeLen = some (y.past.setS d 0)) ∧
    (∀ (a : Fin 32) (target : Nat), y.sreg a ≠ 0 → target % 4 ≠ 0 ∨ x.codeLen < target + 4 →
      (j < 64 → Completes (.scalarInteger t (.branch a target)) s (fun b => RunEnded b j 0x0B ∧
        b.fld (pScl t.cluster.val) 0x10 18 1 = 1)) ∧
      (∀ z r, 64 ≤ j → s.block.ctx (j - 64) = some z → z.work = .shard r →
        Completes (.scalarInteger t (.branch a target)) s (fun b => b.ctx (j - 64) = none ∧
          b.fld (pScl t.cluster.val) 0x10 18 1 = 1 ∧ b.cmds = s.block.cmds ∧
          ∃ m, Posted m b ∧ m.toward = .place r.fromPlace ∧ m.kind = .shardReply ∧ m.body = .answer (.ended 0x03)))) ∧
    (∀ op, floatOpKnown op = true →
      Completes (.scalarBinary32 t op) s (fun b => Issued s.block b t j x (floatOp op y.past) [])) ∧
    (∀ d a : Fin 32, j < 64 → Completes (.scalarBinary32 t (.fromFmt d a .int4)) s (fun b => RunEnded b j 0x0B)) ∧
    (∀ op, Completes (.simd t op) s (fun b => Issued s.block b t j x (simdOp op y.past) [])) ∧
    (∀ (acc : Fin 32) (code : BitVec 16) (table : Nat), table + 64 ≤ x.frame →
      Completes (.lsum4 t acc code table) s (fun b => Issued s.block b t j x (y.past.setS acc (y.sreg acc + BitVec.ofNat 32
        ((y.frame.byte (table + nbits code.toNat 0 4)).toNat + (y.frame.byte (table + 16 + nbits code.toNat 4 4)).toNat +
         (y.frame.byte (table + 32 + nbits code.toNat 8 4)).toNat + (y.frame.byte (table + 48 + nbits code.toNat 12 4)).toNat)))
        [])) ∧
    (∀ n ∈ [1, 2, 4, 8], ∀ (r : Fin 32) (a : Nat), a + n ≤ x.frame → a % n = 0 →
      Completes (.localStore t (.loadS n r a)) s (fun b => Issued s.block b t j x (storeOp (.loadS n r a) y.past) []) ∧
      Completes (.localStore t (.storeS n r a)) s (fun b => ∃ z, Issued s.block b t j x z [] ∧ z.s = y.s ∧ z.v = y.v ∧
        z.pc = y.pc + 4 ∧ (∀ k, k < min n 4 → z.frame.byte (a + k) = BitVec.ofNat 8 ((y.sreg r).toNat / 256 ^ k)) ∧
        (∀ k, k < a ∨ a + n ≤ k → z.frame.byte k = y.frame.byte k))) ∧
    (∀ (r : Fin 16) (a : Nat), a + 16 ≤ x.frame → a % 16 = 0 →
      Completes (.localStore t (.loadV r a)) s (fun b => Issued s.block b t j x (storeOp (.loadV r a) y.past) []) ∧
      Completes (.localStore t (.storeV r a)) s (fun b => Issued s.block b t j x (storeOp (.storeV r a) y.past) [])) ∧
    (∀ lo hi, Completes (.meter t lo hi) s (fun b => Issued s.block b t j x
      ((y.past.setS lo (BitVec.ofNat 32 s.block.meter)).setS hi (BitVec.ofNat 32 (s.block.meter / 2 ^ 32))) [])) ∧
    (∀ (c : Fin 48) (rd : Fin 32), ∀ i, s.block.ctrInfo (ownCtr t c) = some i →
      Completes (.test t c rd) s (fun b => Issued s.block b t j x
        (y.past.setS rd (BitVec.ofNat 32 (s.block.ctr (ownCtr t c) i.init).value)) []))

/-- The counter instructions: SIG puts a signal on its way; WAIT subtracts or parks; TAKE subtracts, or underflows; a parked
WAIT completes once VALUE suffices. An overflow or underflow in fault mode ends the run SYNC_FAULT. A signal in flight that
is the first of its sender to its counter adds its amount there, or overflows; one that is not the first waits, and so does one
behind a move or a tile that its sender asked for before it. (Choices of
the model in it: log 61, 62.) -/
def Obligations.CountersSignal : Prop :=
  ((∀ (s : State) (t : ThreadRef) (j n : Nat) (x : Job) (y : Thread), s.awake → s.block.Canonical → Ready s.block t j x y →
     1 ≤ n → n ≤ 65535 →
     (∀ target i, s.block.ctrInfo target = some i → i.job = j → Completes (.sig t target n) s (fun b =>
       Issued s.block b t j x y.past [(pScl t.cluster.val).at 0x70] ∧ b.cores.signals = s.block.cores.signals ++ [⟨s.block.nextId, some t, target, n, j⟩] ∧
       b.cores.ctrs = s.block.cores.ctrs ∧ b.cores.mxcs = s.block.cores.mxcs)) ∧
     (∀ c : Fin 48, ∀ i, s.block.ctrInfo (ownCtr t c) = some i →
       (n ≤ i.bound → n ≤ (s.block.ctr (ownCtr t c) i.init).value → s.block.waiters t c.val = [] →
         Completes (.wait t c n) s (fun b => Issued s.block b t j x y.past [] ∧
           (b.ctr (ownCtr t c) i.init).value + n = (s.block.ctr (ownCtr t c) i.init).value)) ∧
       (n ≤ i.bound → (s.block.ctr (ownCtr t c) i.init).value < n ∨ s.block.waiters t c.val ≠ [] →
         Completes (.wait t c n) s (fun b => ∃ z, Issued s.block b t j x z [(pScl t.cluster.val).at 0x58] ∧
           z.waiting = some (.ctr c.val n) ∧ z.parked = true ∧ z.pc = y.pc + 4 ∧ z.s = y.s ∧ z.v = y.v ∧ z.frame = y.frame ∧
           b.cores.ctrs = s.block.cores.ctrs)) ∧
       (i.bound < n → i.realign = false → s.block.CanonicalParts → j < 64 → Completes (.wait t c n) s (fun b =>
         RunEnded b j 0x0C ∧ b.fld (pScl t.cluster.val) 0x10 16 1 = 1)) ∧
       (n ≤ (s.block.ctr (ownCtr t c) i.init).value → Completes (.take t c n) s (fun b =>
         Issued s.block b t j x { y.past with cond := 1 } [] ∧
         (b.ctr (ownCtr t c) i.init).value + n = (s.block.ctr (ownCtr t c) i.init).value)) ∧
       ((s.block.ctr (ownCtr t c) i.init).value < n → i.realign = true → Completes (.take t c n) s (fun b =>
         Issued s.block b t j x { y.past with cond := 0 } [(pScl t.cluster.val).at 0x60] ∧
         b.ctr (ownCtr t c) i.init = { value := (s.block.ctr (ownCtr t c) i.init).value, misalign := true })) ∧
       ((s.block.ctr (ownCtr t c) i.init).value < n → i.realign = false → s.block.CanonicalParts → j < 64 →
         Completes (.take t c n) s (fun b => RunEnded b j 0x0C ∧ b.fld (pScl t.cluster.val) 0x10 16 1 = 1)))) ∧
   (∀ (s : State) (t : ThreadRef) (j c n : Nat) (x : Job) (y : Thread), s.awake → s.block.Canonical →
     s.block.thread t = some (j, x, y) → s.block.coreRuns t.cluster.val = true → y.waiting = some (.ctr c n) →
     ∀ i, s.block.ctrInfo (coreCtr t c) = some i →
     ((∀ z ∈ s.block.waiters t c, y.order ≤ z.order) → n ≤ (s.block.ctr (coreCtr t c) i.init).value →
       Completes (.waitComplete t) s (fun b => b.thread t = some (j, x, unpark y) ∧
         (∀ u, u ≠ t → b.thread u = s.block.thread u) ∧
         (b.ctr (coreCtr t c) i.init).value + n = (s.block.ctr (coreCtr t c) i.init).value ∧ b.regs = s.block.regs ∧
         b.hostMem = s.block.hostMem ∧ b.cmds = s.block.cmds)) ∧
     ((s.block.ctr (coreCtr t c) i.init).value < n → exec (.waitComplete t) s = .next s))) ∧
  (∀ (s : State) (id : Nat) (g : Signal), s.awake → s.block.Canonical → s.block.CanonicalParts →
     s.block.cores.signals.find? (fun g => decide (g.id = id)) = some g → ∀ i, s.block.ctrInfo g.target = some i →
     i.job = g.job → s.block.cores.holds g = false ∨ firstSignal s.block.cores.signals g = false →
     (firstSignal s.block.cores.signals g = true → (s.block.ctr g.target i.init).value + g.n ≤ i.bound →
       ((∃ c u k, g.target = .core c u k) ∨ (s.block.ctr g.target i.init).value + g.n ≠ i.init) →
       Completes (.signalArrival id) s (fun b =>
         (b.ctr g.target i.init).value = (s.block.ctr g.target i.init).value + g.n ∧
         (b.ctr g.target i.init).misalign = (s.block.ctr g.target i.init).misalign ∧
         b.cores.signals = s.block.cores.signals.filter (fun y => decide (y.id ≠ id)) ∧
         b.cores.threads = s.block.cores.threads ∧ b.cores.jobs = s.block.cores.jobs ∧ b.hostMem = s.block.hostMem ∧
         b.cmds = s.block.cmds)) ∧
     (firstSignal s.block.cores.signals g = true → i.bound < (s.block.ctr g.target i.init).value + g.n → i.realign = true →
       Completes (.signalArrival id) s (fun b => b.ctr g.target i.init = { value := i.bound, misalign := true } ∧
         b.cores.jobs = s.block.cores.jobs ∧ b.hostMem = s.block.hostMem ∧ b.cmds = s.block.cmds)) ∧
     (firstSignal s.block.cores.signals g = true → i.bound < (s.block.ctr g.target i.init).value + g.n → i.realign = false →
       i.job < 64 → s.block.jobRunning i.job = true → Completes (.signalArrival id) s (fun b => RunEnded b i.job 0x0C)) ∧
     (firstSignal s.block.cores.signals g = false → exec (.signalArrival id) s = .next s)) ∧
  (∀ (s : State) (id : Nat) (g : Signal), s.awake → s.block.cores.signals.find? (fun g => decide (g.id = id)) = some g →
     s.block.cores.holds g = true → exec (.signalArrival id) s = .next s)

/-- Block moves and tier requests: MOVE and TILE put one in flight; when its data is in place it signals its counter by 1, in
staging SRAM, in the frame, or in the result reference of a batch run; data of a killed thread is discarded, that of a thread
which has executed END goes on; a tile that cannot be read ends the run TIER_FAULT. END ends the thread. (Choices of the model
in it: log 10, 68, 69, 140, 143.) -/
def Obligations.ThreadTransfers : Prop :=
  (∀ (s : State) (t : ThreadRef) (j : Nat) (x : Job) (y : Thread), s.awake → s.block.Canonical → s.block.CanonicalParts →
    Ready s.block t j x y →
    (∀ (toFrame : Bool) (addr : Nat) (place : MovePlace) (len : Nat) (c : Fin 48), 64 ≤ len → len ≤ 4096 → len % 64 = 0 →
      (∀ a, place = .staging a → a % 64 = 0 ∧ a + len ≤ 2 ^ 27) →
      (∀ o, place = .result o → toFrame = false ∧ x.service = false ∧ o % 64 = 0 ∧ ∃ id d, x.runCmd = some id ∧
        s.block.cmd id = some d ∧ d.resValid = true ∧ o + len ≤ d.res.len) → addr % 64 = 0 → addr + len ≤ x.frame →
      Completes (.move t toFrame addr place len c) s (fun b => Issued s.block b t j x y.past [] ∧
        b.cores.moves = s.block.cores.moves ++ [⟨s.block.nextId, t, j, toFrame, addr, place, len, c.val, false, none, false⟩] ∧
        b.cores.staging = s.block.cores.staging)) ∧
    (∀ (addr staging : Nat) (c : Fin 48), addr + 32 ≤ x.frame → staging % 64 = 0 → staging + tileBytes ≤ 2 ^ 27 →
      (s.block.keyTile j (s.block.job j) (Memory.read y.frame addr 32)).isSome = true →
      ∀ home, home = s.block.keyHome j (s.block.job j) (Memory.read y.frame addr 32) →
      Completes (.tile t addr staging c) s (fun b => Issued s.block b t j x y.past
          ((pScl t.cluster.val).at 0x70 :: pPlc.at 0x78 :: (List.range 64).map (fun c => (pFlc c).at 0x120)) ∧
        (home = none → Issued s.block b t j x y.past [(pScl t.cluster.val).at 0x70] ∧ b.engines = s.block.engines) ∧
        (∀ k p, home = some (k, p) → s.block.dramShort 16384 = false → b.cached k = true) ∧
        b.cores.tiles = s.block.cores.tiles ++ [⟨s.block.nextId, t, j, Memory.read y.frame addr 32, staging, c.val, false, false⟩] ∧
        b.cores.staging = s.block.cores.staging)) ∧
    (j < 64 → Completes (.endInstr t) s (fun b => b.thread t = none ∧ b.job j = some { x with ended := t :: x.ended } ∧
      b.cores.moves = endMoves t y.frame s.block.cores.moves ∧
      RegsBut [(pScl t.cluster.val).at 0x40] s.block b ∧ b.hostMem = s.block.hostMem ∧ b.cmds = s.block.cmds)) ∧
    (s.block.clusterJob t.cluster.val = none → Completes (.endInstr t) s (fun b => b.thread t = none ∧
      (∀ u, u ≠ t → b.thread u = s.block.thread u) ∧ b.qpl = s.block.qpl ∧
      RegsBut [(pScl t.cluster.val).at 0x40] s.block b ∧ b.hostMem = s.block.hostMem ∧ b.cmds = s.block.cmds))) ∧
  (∀ (s : State) (id j : Nat) (m : MoveRun) (x : Job) (y : Thread), s.awake → s.block.Canonical → s.block.CanonicalParts →
    s.block.cores.moves.find? (fun m => decide (m.id = id)) = some m →
    (m.killed = true → Completes (.blockMoveComplete id) s (fun b => b.cores.staging = s.block.cores.staging ∧
      b.cores.threads = s.block.cores.threads ∧ b.cores.ctrs = s.block.cores.ctrs ∧ (∀ k ∈ b.cores.moves, k.id ≠ id) ∧
      b.hostMem = s.block.hostMem ∧ b.cmds = s.block.cmds)) ∧
    (∀ a, m.killed = false → m.quiet = false → m.after = none → m.place = .staging a → s.block.thread m.thread = some (j, x, y) →
      (j < 64 ∨ s.block.searchThread m.thread.cluster.val m.thread.core.val = some y) → Takes s.block (coreCtr m.thread m.ctr) →
      Completes (.blockMoveComplete id) s (fun b =>
        (m.toFrame = true → (∃ f, b.thread m.thread = some (j, x, { y with frame := f }) ∧ f = Memory.write y.frame m.addr
          (Memory.read (s.block.staging (threadDie m.thread)) a m.len)) ∧ b.cores.staging = s.block.cores.staging) ∧
        (m.toFrame = false → b.staging (threadDie m.thread) = Memory.write (s.block.staging (threadDie m.thread)) a
          (Memory.read y.frame m.addr m.len) ∧ b.cores.threads = s.block.cores.threads) ∧
        Took s.block b (coreCtr m.thread m.ctr) ∧ (∀ k ∈ b.cores.moves, k.id ≠ id) ∧
        b.hostMem = s.block.hostMem ∧ b.cmds = s.block.cmds)) ∧
    (∀ a data, m.killed = false → m.quiet = false → m.after = some data → m.place = .staging a → m.toFrame = false →
      Takes s.block (coreCtr m.thread m.ctr) → Completes (.blockMoveComplete id) s (fun b =>
        b.staging (threadDie m.thread) = Memory.write (s.block.staging (threadDie m.thread)) a data ∧
        b.cores.threads = s.block.cores.threads ∧ Took s.block b (coreCtr m.thread m.ctr) ∧
        b.hostMem = s.block.hostMem ∧ b.cmds = s.block.cmds)) ∧
    (∀ o r c, m.killed = false → m.quiet = false → m.after = none → m.place = .result o → m.toFrame = false → 0 < m.len →
      s.block.thread m.thread = some (j, x, y) → j < 64 → (s.block.job m.job).bind (·.runCmd) = some r →
      s.block.cmd r = some c → c.resValid = true → c.res.space = 0 → Takes s.block (coreCtr m.thread m.ctr) →
      Completes (.blockMoveComplete id) s (fun b =>
        Memory.read b.hostMem (c.res.addr + o) m.len = Memory.read y.frame m.addr m.len ∧
        MemBut (c.res.addr + o) m.len s.block b ∧ b.cores.staging = s.block.cores.staging ∧
        Took s.block b (coreCtr m.thread m.ctr)))) ∧
  (∀ (s : State) (id : Nat) (m : TileReq), s.awake → s.block.Canonical → s.block.CanonicalParts →
    s.block.cores.tiles.find? (fun m => decide (m.id = id)) = some m → m.killed = false →
    (∀ bs, m.quiet = false → s.block.keyTile m.job (s.block.job m.job) m.key = some bs → bs ≠ [] →
      s.block.keyLost m.job m.key = false → Takes s.block (coreCtr m.thread m.ctr) →
      Completes (.tileComplete id true) s (fun b =>
        b.staging (threadDie m.thread) = Memory.write (s.block.staging (threadDie m.thread)) m.staging bs ∧
        Took s.block b (coreCtr m.thread m.ctr) ∧ (∀ k ∈ b.cores.tiles, k.id ≠ id) ∧ b.cores.threads = s.block.cores.threads ∧
        b.hostMem = s.block.hostMem ∧ b.cmds = s.block.cmds)) ∧
    (m.job < 64 → s.block.jobRunning m.job = true → Completes (.tileComplete id false) s (fun b => RunEnded b m.job 0x03) ∧
      (s.block.keyLost m.job m.key = true → Completes (.tileComplete id true) s (fun b => RunEnded b m.job 0x03))))

/-- INVGET takes the oldest queued invocation, its number and buffers in s0 to s3, or waits; INVEND ends the invocation a
thread has taken, and one that has ended already writes nothing and gives condition 0. JOB_LOAD binds the free units its
image asks for, or ends when a check fails; the load completes when its home copies are SEALED, and fails when the image has
become unreadable. JOB_RUN starts every thread; with INVOKE 1 it queues an invocation. JOB_STOP leaves a RUNNING job
STOPPING; when the meter next counts, its threads are killed and its run ends. The last END ends a run too, once no
move to the run's result reference is left. (Choices of the
model in it: log 8, 35, 60, 62, 71, 143.) -/
def Obligations.JobsRun : Prop :=
  (∀ (s : State) (t : ThreadRef) (j : Nat) (x : Job) (y : Thread), s.awake → s.block.Canonical → s.block.CanonicalParts →
     Ready s.block t j x y → x.service = true →
     ((∀ k ∈ x.queue, k.slot.isSome = true) → ∀ i, x.nextInvocation = some i → ∀ n, i.slot = some n →
       Completes (.invget t) s (fun b => ∃ x' z, b.thread t = some (j, x', z) ∧ z.pc = y.pc + 4 ∧
         z.s = (((y.s.set 0 (BitVec.ofNat 32 i.number)).set 1 (BitVec.ofNat 32 (x.buffers j n).1)).set 2
           (BitVec.ofNat 32 (x.buffers j n).2)).set 3 (BitVec.ofNat 32 i.input.length) ∧ z.v = y.v ∧ z.frame = y.frame ∧
         x'.queue = x.queue.map (fun k => if k.number = i.number then { k with taken := true } else k) ∧
         RegsBut [(pScl t.cluster.val).at 0x40] s.block b ∧ b.hostMem = s.block.hostMem ∧ b.cmds = s.block.cmds)) ∧
     (x.queue = [] → Completes (.invget t) s (fun b => ∃ z, b.thread t = some (j, x, z) ∧ z.waiting = some .inv ∧
       z.parked = true ∧ z.s = y.s ∧ RegsBut [(pScl t.cluster.val).at 0x40, (pScl t.cluster.val).at 0x58] s.block b ∧
       b.hostMem = s.block.hostMem ∧ b.cmds = s.block.cmds)) ∧
     (∀ number count i, x.queue.find? (fun i => i.taken && decide (i.number = number)) = some i → count ≤ x.invOut →
       (i.ended = true → Completes (.invend t number count) s (fun b => ∃ x' z, b.thread t = some (j, x', z) ∧ z.cond = 0 ∧
         z.s = y.s ∧ (∀ k ∈ x'.queue, k.number ≠ number) ∧ b.hostMem = s.block.hostMem ∧ b.cmds = s.block.cmds)) ∧
       (i.ended = false → j < 64 → ∀ id, i.cmd = some id → Completes (.invend t number count) s (fun b => ∃ x' z,
         b.thread t = some (j, x', z) ∧ z.cond = 1 ∧ z.s = y.s ∧ (∀ k ∈ x'.queue, k.number ≠ number) ∧ b.cmd id = none)))) ∧
  ((∀ (s : Block) (id : Nat) (q : List Instr), ∀ c b, Handed ⟨q, s⟩ id 0x40 [0, 1] c b →
     ∀ h, h = readImage (b.readInput c 0 0x200) → ∀ img, img = b.readInput c 0 (min h.len c.pay.len) →
     b.noWrites = false → Completes (.jobLoad id) ⟨q, s⟩ (fun t => if jobLoadCheck b c h img = none then
         ∃ y, t.job c.object = some y ∧ y.st = .loading ∧ y.loadCmd = some id ∧ y.threads = h.threads ∧
           y.counters = h.counters ∧ y.clusters = b.freeClusters.take h.clusters ∧ y.mxcs = b.freeMxcs.take h.mxcs ∧
           t.cmd id = some c ∧ t.hostMem = s.hostMem
       else t.cmd id = none)) ∧
   (∀ (s : State) (j : Fin 64), s.awake → s.block.Canonical → s.block.CanonicalParts →
     ∀ x, s.block.job j.val = some x → x.st = .loading → ∀ id, x.loadCmd = some id → ∀ c, s.block.cmd id = some c →
     (s.block.homeSealed .job j.val 0 = true → s.block.passed c.deadline = false → Completes (.loadComplete j true) s (fun b =>
       (∃ y, b.job j.val = some y ∧ y.st = .loaded ∧ y.clusters = x.clusters ∧ y.mxcs = x.mxcs) ∧ b.cmd id = none)) ∧
     (s.block.homeSealed .job j.val 0 = false → exec (.loadComplete j true) s = .next s) ∧
     Completes (.loadComplete j false) s (fun b => b.job j.val = none ∧ b.cmd id = none)) ∧
   (∀ (s : Block) (id : Nat) (q : List Instr), ∀ c b, Handed ⟨q, s⟩ id 0x41 (s.jobDies c.object) c b →
     ∀ x, b.job c.object = some x → b.lacksLease c = false →
     (jobRunCheck b c false = none → c.param 0 1 = 0 → (∀ n ∈ x.clusters, b.unitRuns (pScl n) = true ∧ b.fencedCores n = []) →
       (∀ m ∈ x.mxcs, b.unitRuns (pMxc m) = true) → (∀ th ∈ b.cores.threads, th.ref.cluster.val ∉ x.clusters) →
       (∀ n ∈ x.clusters, b.clusterJob n = some (c.object, x)) →
       Completes (.jobRun id) ⟨q, s⟩ (fun t => (∃ y, t.job c.object = some y ∧ y.st = .running ∧ y.ended = [] ∧
         y.clusters = x.clusters ∧ y.runs = x.runs ∧ (x.service = false → y.runCmd = some id) ∧
         (∀ th : ThreadRef, th.cluster.val ∈ x.clusters → th.thread < x.threads →
           ∃ z, t.thread th = some (c.object, y, z) ∧ z = startThread y c.object th ∧ z.pc = 0)) ∧
         (x.service = false → t.cmd id = some c) ∧ (x.service = true → t.cmd id = none))) ∧
     (jobRunCheck b c true = none → c.param 0 1 = 1 → Completes (.jobRunInvoke id) ⟨q, s⟩ (fun t => ∃ y i,
       t.job c.object = some y ∧ i ∈ y.queue ∧ i.number = x.nextInv ∧ i.cmd = some id ∧ i.taken = false ∧
       i.input = b.readInput c 0 c.pay.len ∧ y.nextInv = (x.nextInv + 1) % 2 ^ 32 ∧ y.st = x.st ∧ t.cmd id = some c ∧
       t.hostMem = s.hostMem ∧ RegsBut [pHlk.at 0x78] s t))) ∧
   (∀ (s : Block) (id : Nat) (q : List Instr), ∀ c b, Handed ⟨q, s⟩ id 0x42 (s.jobDies c.object) c b →
     ∀ x, b.job c.object = some x → c.param 1 127 = 0 →
     (x.st = .running → Completes (.jobStop id) ⟨q, s⟩ (fun t => (∃ y, t.job c.object = some y ∧ y.st = .stopping ∧
       y.stopCmd = some id ∧ y.unload = decide (c.param 0 1 = 1) ∧ y.runCmd = x.runCmd ∧ y.clusters = x.clusters) ∧
       t.cmd id = some c ∧ t.cores.threads = s.cores.threads)) ∧
     (x.st = .loaded → (c.param 0 1 = 0 → Completes (.jobStop id) ⟨q, s⟩ (fun t =>
       (∃ y, t.job c.object = some y ∧ y.st = .loaded ∧ y.clusters = x.clusters) ∧ t.cmd id = none)) ∧
       (c.param 0 1 = 1 → Completes (.jobStop id) ⟨q, s⟩ (fun t => t.job c.object = none ∧ t.cmd id = none)))) ∧
   (∀ (b : Block) (j : Nat) (x : Job), b.sled.power = .on → b.bivouac = false → b.sled.poweringOff = false → b.Canonical →
     b.CanonicalParts → b.transport.cut = [] → j < 64 → b.job j = some x → x.st = .stopping →
     (∀ e ∈ b.jobList, e.2.st = .stopping → e.1 = j) →
     ∃ t, step ⟨[], b⟩ = .next ⟨[], t⟩ ∧ (x.unload = false → RunEnded t j 0x0F) ∧ (x.unload = true → t.job j = none) ∧
       (∀ id, x.stopCmd = some id ∨ x.runCmd = some id → t.cmd id = none)) ∧
   (∀ (s : State) (j : Fin 64), s.awake → s.block.Canonical → s.block.CanonicalParts → ∀ x, s.block.job j.val = some x →
     (x.st = .running → (∀ c ∈ x.clusters, x.threadsOn c = 0) →
       (∀ m ∈ s.block.cores.moves, m.job = j.val → m.killed = false → m.place.isResult = false) → Completes (.allThreadsEnd j) s (fun b =>
       RunEnded b j.val 0x00 ∧ (∀ r, x.runCmd = some r → b.cmd r = none))) ∧
     (∀ m ∈ s.block.cores.moves, m.job = j.val → m.killed = false → m.place.isResult = true →
       exec (.allThreadsEnd j) s = .next s) ∧
     (∀ c ∈ x.clusters, x.threadsOn c ≠ 0 → exec (.allThreadsEnd j) s = .next s)))

/-- ISSUE_STEP queues a step, or waits while the queue is full; the step at the head runs once its WAIT holds, writes what
its kind computes and signals its counter; a schedule entry lands in weight SRAM; a route operation writes its outputs.
(Choices of the model in it: log 73, 74, 75, 142.) -/
def Obligations.MatrixCores : Prop :=
  (∀ (s : State) (t : ThreadRef) (j addr m : Nat) (x : Job) (y : Thread) (n : Fin 64) (c : Fin 48), s.awake →
    s.block.Canonical → s.block.CanonicalParts → Ready s.block t j x y → addr + 64 ≤ x.frame →
    (x.mxc? j n.val = some m → (readStep (Memory.read y.frame addr 64)).ok = true →
      ((s.block.mxc m).steps.length < 16 → Completes (.issueStep t n addr c) s (fun b =>
        Issued s.block b t j x y.past [(pScl t.cluster.val).at 0x70, (pMxc m).at 0x110] ∧
        (b.mxc m).steps = (s.block.mxc m).steps ++ [⟨t, j, Memory.read y.frame addr 64, c.val⟩] ∧
        (b.mxc m).tiles = (s.block.mxc m).tiles)) ∧
      (16 ≤ (s.block.mxc m).steps.length → Completes (.issueStep t n addr c) s (fun b => ∃ z,
        Issued s.block b t j x z [(pScl t.cluster.val).at 0x58] ∧ z.parked = true ∧
        z.waiting = some (.issue m (Memory.read y.frame addr 64) c.val) ∧ b.cores.mxcs = s.block.cores.mxcs))) ∧
    ((readRoute (Memory.read y.frame addr 64)).ok = true → s.block.anySlu = true →
      (∀ o ∈ s.block.ops, o.id < s.block.nextId) → Completes (.route (.issue t addr c)) s (fun b => b.thread t = some (j, x, y.past) ∧
        (∃ o ∈ b.ops, o.work = .route j t (Memory.read y.frame addr 64) c.val) ∧
        (∀ o ∈ s.block.ops, o ∈ b.ops) ∧ b.hostMem = s.block.hostMem ∧ b.cmds = s.block.cmds))) ∧
  (∀ (s : State) (m : Fin 64) (x : Step) (rest : List Step), s.awake → s.block.Canonical →
    s.block.CanonicalParts → (s.block.mxc m.val).steps = x :: rest → ∀ d, d = readStep x.desc →
    s.block.running (pMxc m.val) = true → s.block.issuerRuns x.job = true → Quiet s.block (pMxc m.val) →
    ∀ e ∈ [(0, Instr.matmul m), (1, .dist m), (2, .table m)],
      (d.kind = e.1 → WaitHolds s.block m d.waitEn d.waitCtr d.waitN →
        ∀ o, stepOut (s.block.weights m.val) (s.block.staging (m.val / 32)) d = some o → Completes e.2 s (fun b =>
          (b.mxc m.val).steps = rest ∧ (b.mxc m.val).tiles = (s.block.mxc m.val).tiles ∧
          b.staging (m.val / 32) = o.writes.foldl (fun k w => Memory.write k w.1 w.2) (s.block.staging (m.val / 32)) ∧
          b.reg ((pMxc m.val).at 0x40) = s.block.reg ((pMxc m.val).at 0x40) + 1 ∧
          (∃ g ∈ b.cores.signals, g.target = coreCtr x.thread x.ctr ∧ g.n = 1 ∧ g.sender = none) ∧
          RegsBut ([0x40, 0x48, 0x50, 0x60, 0x68].map (pMxc m.val).at) s.block b ∧
          b.hostMem = s.block.hostMem ∧ b.cmds = s.block.cmds)) ∧
      (d.kind ≠ e.1 → exec e.2 s = .next s)) ∧
  (∀ (s : State) (m : Fin 64) (j i : Nat) (x : Job) (e : SchedEntry), s.awake → s.block.Canonical → s.block.CanonicalParts →
    s.block.mxcJob m.val = some (j, x) → x.st = .running → s.block.running (pMxc m.val) = true → Quiet s.block (pMxc m.val) →
    (x.schedOf (x.mxcs.idxOf m.val))[(s.block.mxc m.val).next]? = some (i, e) →
    WaitHolds s.block m e.waitEn e.waitCtr e.waitN →
    (e.sigEn = true → Takes s.block (.matrix m (Fin.ofNat 64 e.sigCtr))) →
    ((s.block.mxc m.val).next ∉ (s.block.mxc m.val).copies → s.block.entryReadable j x i e = false → j < 64 →
      Completes (.scheduleEntryLanding m true) s (fun b => RunEnded b j 0x03)) ∧
    (∀ ts, (s.block.mxc m.val).next ∈ (s.block.mxc m.val).copies ∨ s.block.entryReadable j x i e = true →
      allTiles e.tiles (s.block.jobTile j x i) = some ts → (∀ g ∈ granules e.granule ts, landOk g.2 = true ∧
        g.1 + tileGran g.2 ≤ 512) → Completes (.scheduleEntryLanding m true) s (fun b =>
      (b.mxc m.val).tiles = ((granules e.granule ts).foldl (fun (y : Mxc) g => y.land g.1 g.2) (s.block.mxc m.val)).tiles ∧
      (b.mxc m.val).next = ((s.block.mxc m.val).next + 1) % (x.schedOf (x.mxcs.idxOf m.val)).length ∧
      (b.mxc m.val).steps = (s.block.mxc m.val).steps ∧ b.hostMem = s.block.hostMem ∧ b.cmds = s.block.cmds)) ∧
    (j < 64 → Completes (.scheduleEntryLanding m false) s (fun b => RunEnded b j 0x03))) ∧
  (∀ (s : State) (id j : Nat) (o : SluOp) (t : ThreadRef) (d : Bytes) (c : Nat), s.awake → s.block.Canonical →
    s.block.CanonicalParts → s.block.ops.find? (fun o => decide (o.id = id)) = some o → o.work = .route j t d c →
    ∀ u, o.unit = some u → s.block.running (pSlu u) = true → Takes s.block (coreCtr t c) →
    (∀ i, s.block.ctrInfo (coreCtr t c) = some i → i.job = j) →
    Completes (.route (.complete id)) s (fun b => b.staging (threadDie t) =
        ((readRoute d).outputs (s.block.staging (threadDie t))).foldl (fun k w => Memory.write k w.1 w.2)
          (s.block.staging (threadDie t)) ∧ (∀ p ∈ b.ops, p.id ≠ id) ∧ Took s.block b (coreCtr t c) ∧
      b.hostMem = s.block.hostMem ∧ b.cmds = s.block.cmds))

/-! ## Links and transport -/

/-- A write of PXY_CTRL with GO starts an idle slot's access: it ends at once for a module that is not the lead or a SEC or
DBG page (DISABLED) or a target that is no member (OUT_OF_RANGE); else it is sent. While a slot is BUSY a write of its PXY_CTRL changes nothing. It ends with the target's status, or when
its budget runs out. The target carries the access out and replies; an
access that does not come on the lead's rope session does nothing there. (Choices of the model in it: log 42, 107, 114.) -/
def Obligations.ProxiedAccesses : Prop :=
  (∀ (s : State) (i : Fin 4) (v : BitVec 32), s.open_ → s.block.Canonical →
    ∀ t, t = s.block.get pHlk (pxyOff i.val) → ∀ id, id = nbits t 0 12 → ∀ type, type = nbits t 12 5 → sget none s.block.proxies i.val = none →
    (v.getLsbD 0 = true → s.block.lead = false ∨ type = 0x02 ∨ type = 0x16 → Completes (.pxyGo i v) s (fun b =>
      b.get pHlk (pxyOff i.val + 0x14) = 0x500 ∧ sget none b.proxies i.val = none ∧ b.out = s.block.out ∧
      b.cmds = s.block.cmds ∧ b.hostMem = s.block.hostMem)) ∧
    (v.getLsbD 0 = true → s.block.lead = true → type ≠ 0x02 → type ≠ 0x16 →
      (∀ m ∈ s.block.rope.members, m.id = id → m.lost = true) → Completes (.pxyGo i v) s (fun b =>
        b.get pHlk (pxyOff i.val + 0x14) = 0x1000 ∧ sget none b.proxies i.val = none ∧ b.out = s.block.out)) ∧
    (v.getLsbD 0 = true → s.block.lead = true → type ≠ 0x02 → type ≠ 0x16 →
      (∃ m ∈ s.block.rope.members, m.id = id ∧ m.lost = false) → Completes (.pxyGo i v) s (fun b =>
        sget none b.proxies i.val = some ⟨s.block.meter, id⟩ ∧ b.get pHlk (pxyOff i.val + 0x14) = 0 ∧
        (∃ m, Posted m b ∧ m.toward = .module id ∧ m.kind = .proxy ∧ m.args = [i.val] ∧
          m.data = proxyBody s.block i.val (v.toNat % 8)) ∧ b.cmds = s.block.cmds ∧ b.hostMem = s.block.hostMem)) ∧
    (v.getLsbD 0 = false → Completes (.pxyGo i v) s (fun b =>
      OnlyRegs (pHlk.at (pxyOff i.val + 0x10) :: writeRegs) s.block b))) ∧
  (∀ (s : State) (i : Fin 4) (v : BitVec 32), s.open_ → s.block.proxyBusy i.val = true →
    Completes (.pxyGo i v) s (fun b => OnlyRegs writeRegs s.block b)) ∧
  (∀ (s : State) (i : Fin 4), s.awake → s.block.Canonical → ∀ r, sget none s.block.proxies i.val = some r →
    (r.start + 10 * s.block.get pHlk (pxyOff i.val + 0x18) ≤ s.block.meter → Completes (.proxyTimeout i) s (fun b =>
      sget none b.proxies i.val = none ∧ b.get pHlk (pxyOff i.val + 0x14) = 0x200 ∧
      b.sans = { s.block.sans with proxies := b.proxies } ∧ RegsBut [pHlk.at (pxyOff i.val + 0x14)] s.block b)) ∧
    (s.block.meter < r.start + 10 * s.block.get pHlk (pxyOff i.val + 0x18) → exec (.proxyTimeout i) s = .next s) ∧
    (∀ (st : BitVec 8) (data : BitVec 64), Completes (.proxyReply i st data) s (fun b =>
      sget none b.proxies i.val = none ∧ b.get pHlk (pxyOff i.val + 0x14) = st.toNat * 256 ∧
      (s.block.fld pHlk (pxyOff i.val + 0x10) 1 1 = 0 → b.reg (pHlk.at (pxyOff i.val + 8)) = data) ∧
      (s.block.fld pHlk (pxyOff i.val + 0x10) 1 1 = 1 →
        b.reg (pHlk.at (pxyOff i.val + 8)) = s.block.reg (pHlk.at (pxyOff i.val + 8))) ∧
      b.cmds = s.block.cmds ∧ b.hostMem = s.block.hostMem))) ∧
  (∀ (s : State) (i : Fin 4), s.awake → sget none s.block.proxies i.val = none →
    exec (.proxyTimeout i) s = .next s ∧ ∀ st data, exec (.proxyReply i st data) s = .next s) ∧
  (∀ (s : State) (m : ProxyMsg), s.awake → s.block.Canonical → s.block.joined = true → ∀ t, t = m.target.toNat →
    nbits t 0 12 = s.block.endpoint →
    (s.block.fromLead m.session.toNat = false → Completes (.proxyAccess m) s (fun b => b.out = s.block.out ∧
      b.regs = s.block.regs ∧ b.cmds = s.block.cmds ∧ b.hostMem = s.block.hostMem)) ∧
    (s.block.fromLead m.session.toNat = true → nbits t 12 5 = 0x02 ∨ nbits t 12 5 = 0x16 → Completes (.proxyAccess m) s (fun b =>
      (∃ k, Posted k b ∧ k.toward = .session m.session.toNat ∧ k.kind = .proxyReply ∧ k.args = [5]) ∧ b.regs = s.block.regs ∧
      b.cmds = s.block.cmds ∧ b.hostMem = s.block.hostMem)) ∧
    (s.block.fromLead m.session.toNat = true → nbits t 12 5 ≠ 0x02 → nbits t 12 5 ≠ 0x16 → m.ctrl.getLsbD 1 = false → Completes (.proxyAccess m) s (fun b =>
      ∃ k, Posted k b ∧ k.toward = .session m.session.toNat ∧ k.kind = .proxyReply ∧ k.args = [0] ∧
        k.data = toLe 0 8 ++ toLe (regRead (nbits t 12 5 * 0x200000 + nbits t 17 9 * 0x1000 +
          nbits m.offset.toNat 2 10 * 4) (m.ctrl.getLsbD 2) (s.block.takeRope m.session.toNat 4)).1.toNat 8)) ∧
    (s.block.fromLead m.session.toNat = true → nbits t 12 5 ≠ 0x02 → nbits t 12 5 ≠ 0x16 → m.ctrl.getLsbD 1 = true → Completes (.proxyAccess m) s (fun b =>
      RegsBut sendRegs (regWrite (nbits t 12 5 * 0x200000 + nbits t 17 9 * 0x1000 + nbits m.offset.toNat 2 10 * 4)
        (m.ctrl.getLsbD 2) m.data (s.block.takeRope m.session.toNat 4)) b ∧
      ∃ k, Posted k b ∧ k.toward = .session m.session.toNat ∧ k.kind = .proxyReply ∧ k.args = [0])))

/-- Lock, hello, the hello's limit and retry, and the loss of signal: when a port is UP and with which LAST_DOWN it goes
down. A DATA flit in order is taken, and its segment goes to the transport with its last flit; one with an error or out of
order is discarded with one NAK. Acknowledgements free the replay buffer; a NAK, or three quarters of LINK_GIVEUP without
progress, replays it; GIVE_UP takes the port down. A frame brings one segment. (Choices of the model in it: log 79, 80, 81.) -/
def Obligations.LinksRun : Prop :=
  (∀ (s : State) (n : Fin 8), s.awake → s.block.Canonical → s.block.portLit n.val = true →
     ∀ x, x = s.block.link n.val →
     (∀ g : BitVec 8, s.block.linkMode n.val = false → Completes (.pcsLock n g) s (fun b =>
       (b.link n.val).up = true ∧ (b.link n.val).pcs = true ∧ (b.link n.val).signal = g.toNat ∧
       (x.up = false → b.fld (pKwf n.val) 0x20 16 1 = 1) ∧ b.cmds = s.block.cmds ∧ b.hostMem = s.block.hostMem)) ∧
     (∀ g : BitVec 8, s.block.linkMode n.val = true → x.hello = false → Completes (.pcsLock n g) s (fun b =>
       (b.link n.val).up = false ∧ (b.link n.val).pcs = true ∧ (b.link n.val).lockAt = some s.block.meter ∧
       (b.link n.val).sent = x.sent ++ [flitBytes { type := 2, hello := true } ((List.range 8).flatMap (fun _ => toLe 1024 2))] ∧
       b.cmds = s.block.cmds ∧ b.hostMem = s.block.hostMem)) ∧
     (∀ cr : List (BitVec 16), s.block.linkMode n.val = true → x.pcs = true → x.waiting = [] →
       Completes (.hello n cr) s (fun b => (b.link n.val).up = true ∧ (b.link n.val).hello = true ∧
         (b.link n.val).expect = 0 ∧ (b.link n.val).lockAt = none ∧ (b.link n.val).replay = x.replay ∧
         (x.replay = [] → (b.link n.val).nextSeq = 0) ∧
         (∀ v, v < 8 → sget 0 (b.link n.val).credits v = (cr.getD v 0).toNat) ∧
         b.cmds = s.block.cmds ∧ b.hostMem = s.block.hostMem)) ∧
     (∀ cr : List (BitVec 16), x.pcs = false → exec (.hello n cr) s = .next s) ∧
     (∀ t, s.block.linkMode n.val = true → x.pcs = true → x.hello = false → x.lockAt = some t →
       (t + 1000000 ≤ s.block.meter → Completes (.helloTimeout n) s (fun b => (b.link n.val).lastDown = 4 ∧
         (b.link n.val).up = false ∧ (b.link n.val).downAt = some s.block.meter ∧ (b.link n.val).lockAt = none ∧
         b.fld (pKwf n.val) 0x10 16 1 = 1 ∧ RegsBut (errRegs (pKwf n.val) ++ intRegs (pKwf n.val)) s.block b ∧
         b.cmds = s.block.cmds ∧ b.hostMem = s.block.hostMem)) ∧
       (s.block.meter < t + 1000000 → exec (.helloTimeout n) s = .next s)) ∧
     (∀ t, s.block.linkMode n.val = true → x.pcs = true → x.downAt = some t →
       (t + 10000000 ≤ s.block.meter → Completes (.helloRetry n) s (fun b =>
         (b.link n.val).lockAt = some s.block.meter ∧ (b.link n.val).downAt = none ∧
         (b.link n.val).sent = x.sent ++ [flitBytes { type := 2, hello := true } ((List.range 8).flatMap (fun _ => toLe 1024 2))] ∧
         RegsBut [(pKwf n.val).at 0x78] s.block b ∧ b.cmds = s.block.cmds ∧ b.hostMem = s.block.hostMem)) ∧
       (s.block.meter < t + 10000000 → exec (.helloRetry n) s = .next s)) ∧
     (∀ g : BitVec 8, Completes (.signalLoss n g) s (fun b => (b.link n.val).up = false ∧ (b.link n.val).pcs = false ∧
       (b.link n.val).hello = false ∧ (b.link n.val).lastDown = 2 ∧ (b.link n.val).replay = x.replay ∧
       (b.link n.val).waiting = x.waiting ∧ b.fld (pKwf n.val) 0x10 16 1 = 1 ∧
       (x.up = true → b.fld (pKwf n.val) 0x20 16 1 = 1) ∧ (∀ k, k ≠ n.val → b.link k = s.block.link k) ∧
       RegsBut (errRegs (pKwf n.val) ++ intRegs (pKwf n.val)) s.block b ∧ b.cmds = s.block.cmds ∧
       b.hostMem = s.block.hostMem))) ∧
  (∀ (s : State) (n : Fin 8), s.awake → s.block.Canonical → Quiet s.block (pKwf n.val) → Quiet s.block pKwt →
     ∀ x, x = s.block.link n.val → x.up = true →
     (s.block.linkMode n.val = true →
       (∀ f : Bytes, f.length = 256 → le f 0xFC 4 = (crc32 (slice f 0 0xFC)).toNat → nbits (le f 0 1) 0 4 = 1 →
         (le f 4 2 = x.expect → sget 0 x.inUse (nbits (le f 0 1) 4 3) < 1024 → nbits (le f 1 1) 0 1 = 0 → 0 < le f 2 1 →
           x.unacked + 1 < s.block.fld (pKwf n.val) 0x114 0 8 → Completes (.dataFlit n f true) s (fun b =>
             (b.link n.val).expect = (x.expect + 1) % 65536 ∧ (b.link n.val).unacked = x.unacked + 1 ∧
             sget [] (b.link n.val).assembly (nbits (le f 0 1) 4 3) =
               (if nbits (le f 0 1) 7 1 = 1 then [] else sget [] x.assembly (nbits (le f 0 1) 4 3)) ++ slice f 12 (le f 2 1) ∧
             b.reg ((pKwf n.val).at 0x48) = s.block.reg ((pKwf n.val).at 0x48) + 1 ∧ b.cmds = s.block.cmds ∧
             b.hostMem = s.block.hostMem)) ∧
         (le f 4 2 = x.expect → sget 0 x.inUse (nbits (le f 0 1) 4 3) < 1024 → nbits (le f 1 1) 0 1 = 1 → ∃ b : Block,
           exec (.dataFlit n f true) s = exec (.segmentReceived
             ((if nbits (le f 0 1) 7 1 = 1 then [] else sget [] x.assembly (nbits (le f 0 1) 4 3)) ++ slice f 12 (le f 2 1)))
             { s with block := b } ∧ (b.link n.val).expect = (x.expect + 1) % 65536 ∧ (b.link n.val).unacked = 0 ∧
           (∃ h : FlitHead, h.type = 0 ∧ h.ack = some (le f 4 2) ∧ flitBytes h [] ∈ (b.link n.val).sent) ∧ b.cmds = s.block.cmds ∧ b.hostMem = s.block.hostMem) ∧
         (le f 4 2 ≠ x.expect → x.nakAt = none → Completes (.dataFlit n f true) s (fun b =>
           (b.link n.val).expect = x.expect ∧ (b.link n.val).assembly = x.assembly ∧
           (b.link n.val).nakAt = some s.block.meter ∧
           (b.link n.val).sent = x.sent ++ [flitBytes { type := 2, nak := true, ack := some x.lastIn } []] ∧
           RegsBut [(pKwf n.val).at 0x78] s.block b ∧ b.cmds = s.block.cmds ∧ b.hostMem = s.block.hostMem))) ∧
       (∀ f, Completes (.dataFlit n f false) s (fun b => (b.link n.val).expect = x.expect ∧
         (b.link n.val).assembly = x.assembly ∧ b.fld (pKwf n.val) 0x10 17 1 = 1 ∧
         b.reg ((pKwf n.val).at 0x58) = s.block.reg ((pKwf n.val).at 0x58) + 1 ∧ b.cmds = s.block.cmds ∧
         b.hostMem = s.block.hostMem)) ∧
       (∀ (ack : Option (BitVec 16)) (vc : BitVec 3) (count : BitVec 12), x.waiting = [] → swf 0 x.credits = true →
         Completes (.linkAcknowledgement n ack vc count) s (fun b =>
           sget 0 (b.link n.val).credits vc.toNat = sget 0 x.credits vc.toNat + count.toNat ∧
           (∀ a, ack = some a → (b.link n.val).replay = x.replay.filter (fun f => !seqUpTo f.fseq a.toNat)) ∧
           (ack = none → (b.link n.val).replay = x.replay) ∧ (b.link n.val).sent = x.sent ∧
           b.sans = { s.block.sans with links := b.links } ∧ b.regs = s.block.regs)) ∧
       (∀ a : BitVec 16, ∀ y, y = x.ackUpTo a.toNat s.block.meter → y.waiting = [] → y.replay ≠ [] →
         (if y.replayed then y.fails + 1 else y.fails) < s.block.replayMax n.val → Completes (.nak n a) s (fun b =>
           (b.link n.val).replay = x.replay.filter (fun f => !seqUpTo f.fseq a.toNat) ∧
           (b.link n.val).sent = x.sent ++ y.replay.map HeldFlit.bytes ∧ (b.link n.val).progress = s.block.meter ∧
           b.reg ((pKwf n.val).at 0x68) = s.block.reg ((pKwf n.val).at 0x68) + 1 ∧ b.cmds = s.block.cmds ∧
           b.hostMem = s.block.hostMem)) ∧
       (x.replay ≠ [] → (if x.replayed then x.fails + 1 else x.fails) < s.block.replayMax n.val →
         (4 * x.progress + 3 * s.block.linkGiveup n.val ≤ 4 * s.block.meter → x.fails < s.block.replayMax n.val →
           Completes (.replayWaitExpiry n) s (fun b => (b.link n.val).replay = x.replay ∧
             (b.link n.val).sent = x.sent ++ x.replay.map HeldFlit.bytes ∧ (b.link n.val).progress = s.block.meter ∧
             (b.link n.val).replayed = true ∧ b.cmds = s.block.cmds ∧ b.hostMem = s.block.hostMem)) ∧
         (4 * s.block.meter < 4 * x.progress + 3 * s.block.linkGiveup n.val → exec (.replayWaitExpiry n) s = .next s))) ∧
     (∀ f rest, x.replay = f :: rest →
       (f.first + s.block.linkGiveup n.val ≤ s.block.meter → Completes (.giveUp n) s (fun b => (b.link n.val).up = false ∧
         (b.link n.val).lastDown = 1 ∧ (b.link n.val).replay = [] ∧ (b.link n.val).waiting = [] ∧
         b.reg ((pKwf n.val).at 0x70) = s.block.reg ((pKwf n.val).at 0x70) + 1 ∧ b.fld (pKwf n.val) 0x10 16 1 = 1 ∧
         b.cmds = s.block.cmds ∧ b.hostMem = s.block.hostMem)) ∧
       (s.block.meter < f.first + s.block.linkGiveup n.val → x.fails < s.block.replayMax n.val →
         exec (.giveUp n) s = .next s)) ∧
     (∀ t, x.ackAt = some t →
       (t + s.block.ackWait n.val ≤ s.block.meter → Completes (.ackWaitExpiry n) s (fun b =>
         b.link n.val = { x with unacked := 0, ackAt := none, sent := x.sent ++ [flitBytes { type := 0, ack := some x.lastIn } []] } ∧
         b.sans = { s.block.sans with links := b.links } ∧ RegsBut [(pKwf n.val).at 0x78] s.block b)) ∧
       (s.block.meter < t + s.block.ackWait n.val → exec (.ackWaitExpiry n) s = .next s)) ∧
     (s.block.linkMode n.val = false →
       (∀ f, Completes (.frameReceived n f false) s (fun b => b.fld (pKwf n.val) 0x10 18 1 = 1 ∧
         b.reg ((pKwf n.val).at 0x60) = s.block.reg ((pKwf n.val).at 0x60) + 1 ∧ b.sans = s.block.sans)) ∧
       (∀ f, beNat (slice f 12 2) ≠ 0x8100 → beNat (slice f 12 2) ≠ 0x8A5E → Completes (.frameReceived n f true) s (fun b =>
         b.reg ((pKwf n.val).at 0x48) = s.block.reg ((pKwf n.val).at 0x48) + 1 ∧
         OnlyRegs [(pKwf n.val).at 0x48] s.block b)) ∧
       (∀ f, beNat (slice f 12 2) = 0x8A5E → 18 ≤ f.length → f.length ≤ 9216 →
         (∀ h, readSeg (slice f 14 (f.length - 18)) = some h → h.kind ≠ 6) →
         exec (.frameReceived n f true) s = exec (.segmentReceived (slice f 14 (f.length - 18)))
           { s with block := s.block.bump (pKwf n.val) 1 }) ∧
       (∀ f g h, g = slice f 14 (f.length - 18) → beNat (slice f 12 2) = 0x8A5E → 18 ≤ f.length → f.length ≤ 9216 →
         s.block.fatal = false → s.block.pageState pKwt = 2 → readSeg g = some h → h.kind = 6 → h.dst = s.block.endpoint →
         h.last = false → (g.drop 48).length ≤ h.msgLen →
         (∀ r ∈ s.block.transport.reasm, ¬(r.src = h.src ∧ r.session = h.session ∧ r.msgId = h.msgId)) →
         Completes (.frameReceived n f true) s (fun b =>
           (∃ r ∈ b.transport.reasm, r.src = h.src ∧ r.session = h.session ∧ r.msgId = h.msgId ∧ r.at_ = s.block.meter ∧
             r.parts = [(h.number, g.drop 48)]) ∧
           b.reg ((pKwf n.val).at 0x48) = s.block.reg ((pKwf n.val).at 0x48) + 1 ∧
           b.sans = { s.block.sans with transport := b.transport } ∧ RegsBut [(pKwf n.val).at 0x48] s.block b))))

/-- What a segment does: discarded when it is not this module's or breaks the layout; counted when its nonce is stale or it
fails authentication; else put to its message, which is acknowledged when whole and taken once. REPLY and ACK end the resends
of what they acknowledge. A message that is not acknowledged within its RTO is sent again; with RESEND_MAX resends and no
deadline it closes its client session; without budget for another send it is given up. (Choices of the model in it: log 82,
83, 84.) -/
def Obligations.MessagesCarried : Prop :=
  ((∀ (s : State) (g : Bytes), s.awake → readSeg g = none → exec (.segmentReceived g) s = .next s) ∧
   (∀ (s : State) (g : Bytes), s.awake → s.block.Canonical → s.block.CanonicalParts →
     s.block.fatal = false → Quiet s.block pKwt → s.block.pageState pKwt = 2 → ∀ h, readSeg g = some h → ∀ n, n = h.session → ∀ x, x = s.block.session n →
     (h.dst ≠ s.block.endpoint → exec (.segmentReceived g) s = .next s) ∧
     (h.dst = s.block.endpoint → h.kind ≠ 6 → x.state = .closed → exec (.segmentReceived g) s = .next s) ∧
     (h.dst = s.block.endpoint → h.kind ≠ 6 → x.state = .opened → x.endpoint = h.src → x.rope = false → h.epoch = 0 →
       (s.block.rx n).discards < 15 →
       ((s.block.rx n).stale h.nonce = true → Completes (.segmentReceived g) s (AuthDiscarded s.block n)) ∧
       ((s.block.rx n).stale h.nonce = false →
         (∀ r ∈ s.block.transport.reasm, ¬(r.src = h.src ∧ r.session = n ∧ r.msgId = h.msgId)) →
         Completes (.segmentReceived g) s (fun b =>
           match Config.gcmOpen x.keyIn (ivOf n 0 h.nonce) (slice g 0 48) (g.drop 48) with
           | none => AuthDiscarded s.block n b
           | some p =>
             (h.last = false → h.len ≤ h.msgLen →
               (∃ r ∈ b.transport.reasm, r.src = h.src ∧ r.session = n ∧ r.msgId = h.msgId ∧ r.at_ = s.block.meter ∧
                 r.parts = [(h.number, padTo (p.take h.len) h.len)]) ∧ h.nonce ∈ (b.rx n).accepted ∧
               b.sans = { s.block.sans with transport := b.transport } ∧ b.regs = s.block.regs) ∧
             (h.last = true → h.number = 0 → h.len = h.msgLen → h.kind = 0 →
               (∃ m ∈ b.out.sent, m.toward = .session n ∧ m.kind = .ack ∧ m.data = toLe h.msgId 4 ++ toLe 0 4) ∧
               (h.msgId ∉ (s.block.rx n).delivered → b.nextCmd = s.block.nextCmd + 1) ∧
               (h.msgId ∈ (s.block.rx n).delivered → b.nextCmd = s.block.nextCmd ∧ b.cmds = s.block.cmds)))))) ∧
   (∀ (s : State) (n : BitVec 12) (id : BitVec 32), s.awake →
     (∀ r ∈ s.block.transport.reasm, r.session = n.toNat → r.msgId = id.toNat →
       r.at_ + s.block.fld pKwt 0x10C 8 8 * 1000 ≤ s.block.meter → s.block.Canonical →
       Completes (.reasmWaitExpiry n id) s (fun b => r ∉ b.transport.reasm ∧ b.fld pKwt 0x10 21 1 = 1 ∧
         b.sans = { s.block.sans with transport := b.transport } ∧ RegsBut (errRegs pKwt) s.block b)) ∧
     ((∀ r ∈ s.block.transport.reasm, r.session = n.toNat → r.msgId = id.toNat →
       s.block.meter < r.at_ + s.block.fld pKwt 0x10C 8 8 * 1000) → exec (.reasmWaitExpiry n id) s = .next s) ∧
     Completes (.ack n id) s (fun b => (∀ m ∈ b.transport.sent, ¬(m.session = n.toNat ∧ m.msgId = id.toNat)) ∧
       b.cmds = s.block.cmds ∧ b.hostMem = s.block.hostMem ∧ b.rope = s.block.rope)) ∧
   (∀ (s : State) (n : BitVec 12) (id : BitVec 32) (body : Bytes), s.awake → s.block.Canonical →
     (∀ m, s.block.transport.sent.find? (fun m => decide (m.session = n.toNat ∧ m.msgId = id.toNat ∧ m.kind = 0)) = some m →
       (m.msg.kind ∉ [.logCopy, .joinRequest, .refineRequest, .forwarded] ∨ (m.msg.kind = .refineRequest ∧ le body 2 1 = 0) →
         Completes (.reply n id body) s (fun b =>
           (∀ m ∈ b.transport.sent, ¬(m.session = n.toNat ∧ m.msgId = id.toNat)) ∧ b.rope = s.block.rope ∧
           b.cmds = s.block.cmds ∧ b.hostMem = s.block.hostMem)) ∧
       (∀ q k l, m.msg.kind = .refineRequest → m.msg.args = q :: k :: l → le body 2 1 ≠ 0 → le body 2 1 ≠ stTierFault →
         Completes (.reply n id body) s (fun b => b.cmd q = none)) ∧
       (m.msg.kind = .joinRequest → s.block.rope.jstate = 2 → le body 2 1 ≠ 0 → Completes (.reply n id body) s (fun b =>
         b.rope.jstate = 5 ∧ b.get pRop 0x114 = le body 2 1 ∧ b.fld pRop 0x10 16 1 = 1 ∧ b.cmds = s.block.cmds ∧
         b.hostMem = s.block.hostMem))) ∧
     (s.block.transport.sent.find? (fun m => decide (m.session = n.toNat ∧ m.msgId = id.toNat ∧ m.kind = 0)) = none →
       exec (.reply n id body) s = .next s))) ∧
  (∀ (s : State) (n : BitVec 12) (id : BitVec 32) (m : SentMsg), s.awake → s.block.Canonical →
     s.block.transport.sent.find? (fun m => decide (m.session = n.toNat ∧ m.msgId = id.toNat)) = some m →
     (s.block.meter < m.lastSent + s.block.rto m ∨ s.block.portHolds (n.toNat, id.toNat) = true →
       exec (.rtoExpiry n id) s = .next s) ∧
     (m.lastSent + s.block.rto m ≤ s.block.meter → s.block.portHolds (n.toNat, id.toNat) = false →
       ((m.msg.deadline = none ∧ m.resends < s.block.fld pKwt 0x10C 0 4) ∨
         (m.msg.deadline ≠ none ∧ s.block.mayResend m = true) → Completes (.rtoExpiry n id) s (fun b =>
           (∃ k ∈ b.transport.sent, k.session = n.toNat ∧ k.msgId = id.toNat ∧ k.resends = m.resends + 1 ∧
             k.lastSent = s.block.meter ∧ k.body = m.body) ∧
           b.reg (pKwt.at 0x50) = s.block.reg (pKwt.at 0x50) + 1 ∧ b.cmds = s.block.cmds ∧ b.hostMem = s.block.hostMem)) ∧
       (m.msg.deadline ≠ none → s.block.mayResend m = false → Completes (.rtoExpiry n id) s (fun b =>
         (∀ k ∈ b.transport.sent, ¬(k.session = n.toNat ∧ k.msgId = id.toNat)) ∧ b.cmds = s.block.cmds)) ∧
       (m.msg.deadline = none → s.block.fld pKwt 0x10C 0 4 ≤ m.resends → (s.block.session n.toNat).rope = false →
         Completes (.rtoExpiry n id) s (fun b => (b.session n.toNat).state = .closed))))

/-! ## The rope -/

/-- Beats, declarations, memberships, fencing and the stand-in of a member. (Choices of the model in it: log 85, 86, 127, 147.) -/
def Obligations.RopeMembers : Prop :=
  ∀ s : State, s.awake → s.block.Canonical →
    (s.block.rope.jstate = 3 → s.block.sled.poweringOff = false →
      (∀ t, s.block.rope.lastBeat = some t → t + s.block.beatCfg.1 * 100 ≤ s.block.meter) → Completes .beatSend s (fun b =>
        b.rope = { s.block.rope with lastBeat := some s.block.meter } ∧
        (∃ m, Posted m b ∧ m.toward = .all ∧ m.kind = .beat ∧
          m.args = [s.block.place, s.block.fld pGlb 0x110 25 1, s.block.heardMap]) ∧
        b.reg (pRop.at 0x68) = s.block.reg (pRop.at 0x68) +
          (s.block.liveMembers.filter (fun m => decide (m.id ≠ s.block.endpoint))).length ∧ b.cmds = s.block.cmds ∧ b.hostMem = s.block.hostMem)) ∧
    (s.block.rope.jstate ≠ 3 → exec .beatSend s = .next s ∧ exec .fence s = .next s) ∧
    (∀ (p : BitVec 6) (spare : Bool) (map : BitVec 64), s.block.rope.jstate = 3 →
      ((∃ m ∈ s.block.rope.members, m.lost = false ∧ m.place = p.toNat ∧ m.spare = spare) →
        Completes (.beat p spare map) s (fun b => b.rope.heard = ⟨p.toNat, s.block.meter, map.toNat⟩ ::
            s.block.rope.heard.filter (fun h => decide (h.place ≠ p.toNat)) ∧
          b.sans = { s.block.sans with rope := b.rope } ∧ RegsBut [pRop.at 0x70] s.block b)) ∧
      ((∀ m ∈ s.block.rope.members, m.place = p.toNat → m.spare = spare → m.lost = true) →
        exec (.beat p spare map) s = .next s)) ∧
    (∀ (p : BitVec 6) (m : RopeMember), s.block.liveMembers.find? (fun m => decide (m.place = p.toNat)) = some m →
      s.block.rope.jstate = 3 → s.block.declares m = true →
      (s.block.mayDeclare p.toNat = true → (∀ k ∈ s.block.rope.members, k.id < 4096) → Completes (.declareLost ⟨p, false⟩) s (fun b =>
        b.rope.epoch = (s.block.rope.epoch + 1) % 2 ^ 32 ∧ (∀ k ∈ b.rope.members, k.id = m.id → k.lost = true) ∧
        (∃ k, Posted k b ∧ k.toward = .all ∧ k.kind = .membership) ∧ b.fld pKwt 0x10 18 1 = 1)) ∧
      (s.block.heardIn s.block.missTime p.toNat = true → exec (.declareLost ⟨p, false⟩) s = .next s) ∧
      (s.block.mayRetire m = true → (∀ k ∈ s.block.rope.members, k.id < 4096) → Completes (.declareLost ⟨p, true⟩) s (fun b =>
        b.rope.epoch = (s.block.rope.epoch + 1) % 2 ^ 32 ∧ (∀ k ∈ b.rope.members, k.id = m.id → k.lost = true) ∧
        (∃ k, Posted k b ∧ k.toward = .all ∧ k.kind = .membership))) ∧
      (s.block.mayRetire m = false → exec (.declareLost ⟨p, true⟩) s = .next s)) ∧
    (∀ n : Membership, s.block.sessionOf n.leadId.toNat = none →
      (s.block.rope.jstate = 3 → epochAfter n.epoch.toNat s.block.rope.epoch = true →
        (∃ e ∈ n.members, e.1.toNat = s.block.endpoint) → Completes (.membershipNotice n) s (fun b =>
          b.rope.epoch = n.epoch.toNat ∧ b.rope.leadId = n.leadId.toNat ∧ b.get pKwt 0x138 = n.epoch.toNat ∧
          b.rope.jstate = 3)) ∧
      (s.block.rope.jstate = 3 → epochAfter n.epoch.toNat s.block.rope.epoch = true →
        (∀ e ∈ n.members, e.1.toNat ≠ s.block.endpoint) → Completes (.membershipNotice n) s (fun b =>
          b.rope.jstate = 4 ∧ b.rope.members = [] ∧ b.joined = false ∧ b.fld pKwt 0x10 19 1 = 1)) ∧
      (s.block.rope.jstate = 3 → n.epoch.toNat ≠ s.block.rope.epoch → epochAfter n.epoch.toNat s.block.rope.epoch = false →
        exec (.membershipNotice n) s = .next s) ∧
      (s.block.rope.jstate = 2 → (∃ e ∈ n.members, e.1.toNat = s.block.endpoint) → Completes (.membershipNotice n) s (fun b =>
        b.rope.jstate = 3 ∧ b.joined = true ∧ b.get pRop 0x114 = 0 ∧ b.rope.epoch = n.epoch.toNat)) ∧
      (s.block.rope.jstate = 2 → (∀ e ∈ n.members, e.1.toNat ≠ s.block.endpoint) → Completes (.membershipNotice n) s (fun b =>
        b.rope.jstate = 0 ∧ b.get pRop 0x114 = 0x0F ∧ b.fld pRop 0x10 16 1 = 1 ∧ b.cmds = s.block.cmds))) ∧
    (s.block.rope.jstate = 3 → 2 * (s.block.liveMembers.filter (fun m =>
        decide (m.id = s.block.endpoint) || s.block.heardIn (2 * s.block.missTime) m.place)).length < s.block.liveMembers.length →
      Completes .fence s (fun b => b.rope.jstate = 4 ∧ b.rope.members = [] ∧ b.joined = false ∧
        b.fld pKwt 0x10 19 1 = 1)) ∧
    (∀ t, s.block.rope.declaredAt = some t → s.block.rope.standin = 1 →
      (t + 2 * s.block.missTime ≤ s.block.meter → Completes .fenceWaitExpiry s (fun b => b.rope.standin = 2 ∧
        b.rope.declaredAt = none ∧ b.fld pRop 0x20 17 1 = 1 ∧ b.sans = { s.block.sans with rope := b.rope, indexes := b.indexes } ∧
        RegsBut (intRegs pRop) s.block b)) ∧
      (s.block.meter < t + 2 * s.block.missTime → exec .fenceWaitExpiry s = .next s)) ∧
    (∀ items place, (s.block.rope.standin = 2 → Completes (.restoreEnd ⟨items, place⟩) s (fun b => b.rope.standin = 3 ∧
        s.block.place ∉ b.rope.notReady ∧ b.rope.stored = some (s.block.rope.ropeId, s.block.place) ∧
        ∃ k, Posted k b ∧ k.toward = .all ∧ k.kind = .membership)) ∧
      (s.block.rope.standin ≠ 2 → exec (.restoreEnd ⟨items, place⟩) s = .next s)) ∧
    (s.block.rope.standin = 3 → Completes .standinRebuildEnd s (fun b => b.rope.standin = 0 ∧
      (∀ m ∈ b.rope.members, m.id = s.block.endpoint → m.spare = false) ∧ b.fld pGlb 0x110 25 1 = 0 ∧
      (∃ k, Posted k b ∧ k.toward = .all ∧ k.kind = .membership) ∧ b.cmds = s.block.cmds ∧ b.hostMem = s.block.hostMem)) ∧
    (s.block.rope.standin ≠ 3 → exec .standinRebuildEnd s = .next s)

/-- JOIN, the join request at a lead, the formation's limit, LEAVE and DECLARE. (Choices of the model in it: log 85, 87.) -/
def Obligations.RopeJoins : Prop :=
  (∀ (s : State) (v : BitVec 32), s.open_ → Quiet s.block pRop → s.block.Canonical → v.getLsbD 0 = true → v.getLsbD 1 = false → v.getLsbD 2 = false →
    (s.block.rope.jstate ∉ [0, 4, 5] → Completes (.join v) s (fun b => OnlyRegs (pRop.at 0x108 :: writeRegs) s.block b)) ∧
    (s.block.rope.jstate ∈ [0, 4] → s.block.running pKwt = false → Completes (.join v) s (fun b =>
      b.rope.jstate = 5 ∧ b.get pRop 0x114 = 0x04 ∧ b.fld pRop 0x10 16 1 = 1 ∧ b.cmds = s.block.cmds ∧
      b.hostMem = s.block.hostMem)) ∧
    (s.block.rope.jstate ∈ [0, 4, 5] → s.block.running pKwt = true → s.block.running (pQpl 0) = true →
      s.block.running (pQpl 1) = true → s.block.tstate = 1 →
      (s.block.fld pRop 0x104 6 1 = 1 → s.block.tableOk = true → Completes (.join v) s (fun b => b.rope.jstate = 1 ∧
        b.rope.formAt = some s.block.meter ∧ b.rope.leadId = s.block.endpoint ∧ b.rope.key = s.block.stagedRopeKey ∧
        b.rope.members.map (·.id) = s.block.tableEntries.map (·.id) ∧ b.cmds = s.block.cmds ∧ b.hostMem = s.block.hostMem)) ∧
      (s.block.fld pRop 0x104 6 1 = 0 → Completes (.join v) s (fun b => b.rope.jstate = 2 ∧
        b.rope.leadId = s.block.fld pRop 0x104 7 12 ∧ b.rope.formAt = some s.block.meter ∧
        (∃ m, Posted m b ∧ m.toward = .module (s.block.fld pRop 0x104 7 12) ∧ m.kind = .joinRequest) ∧
        b.cmds = s.block.cmds ∧ b.hostMem = s.block.hostMem)))) ∧
  (∀ (s : State) (r : JoinReq), s.awake → s.block.Canonical → r.sessionOk = true → s.block.rope.jstate = 1 →
    ((∀ m ∈ s.block.rope.members, m.id ≠ r.moduleId.toNat) ∨ r.tenant.toNat ≠ s.block.get pSec 0x104 →
      Completes (.joinRequest r) s (fun b => (∃ m, Posted m b ∧ m.toward = .module r.moduleId.toNat ∧ m.kind = .joinReply ∧
        m.args = [5]) ∧ b.rope = s.block.rope ∧ b.cmds = s.block.cmds ∧ b.hostMem = s.block.hostMem)) ∧
    (∀ k ∈ s.block.rope.members, k.id = r.moduleId.toNat → r.tenant.toNat = s.block.get pSec 0x104 → r.tenant.toNat ≠ 0 →
      (∃ j ∈ s.block.rope.members, j.id ≠ r.moduleId.toNat ∧ j.joined = false) → Completes (.joinRequest r) s (fun b =>
        (∃ m, Posted m b ∧ m.toward = .module r.moduleId.toNat ∧ m.kind = .joinReply ∧ m.args = [0]) ∧ b.rope.jstate = 1 ∧
        b.rope.members = s.block.rope.members.map (fun j => if j.id = r.moduleId.toNat then { j with joined := true } else j))) ∧
    (∀ k ∈ s.block.rope.members, k.id = r.moduleId.toNat → r.tenant.toNat = s.block.get pSec 0x104 → r.tenant.toNat ≠ 0 →
      (∀ j ∈ s.block.rope.members, j.lost = false ∧ (j.id ≠ r.moduleId.toNat → j.joined = true)) →
      (∃ j ∈ s.block.rope.members, j.id = s.block.endpoint) → Completes (.joinRequest r) s (fun b =>
        b.rope.jstate = 3 ∧ b.rope.epoch = 1 ∧ b.joined = true ∧ ∃ m, Posted m b ∧ m.toward = .all ∧ m.kind = .membership))) ∧
  (∀ s : State, s.awake → s.block.Canonical → ∀ t, s.block.rope.formAt = some t →
    s.block.rope.jstate = 1 ∨ s.block.rope.jstate = 2 →
    (t + s.block.fld pRop 0x110 0 16 * 100000 ≤ s.block.meter → Completes .formWaitExpiry s (fun b => b.rope.jstate = 0 ∧
      b.rope.members = [] ∧ b.rope.formAt = none ∧ b.get pRop 0x114 = 0x02 ∧ b.fld pRop 0x10 16 1 = 1 ∧
      b.cmds = s.block.cmds ∧ b.hostMem = s.block.hostMem)) ∧
    (s.block.meter < t + s.block.fld pRop 0x110 0 16 * 100000 → exec .formWaitExpiry s = .next s)) ∧
  (∀ (s : State) (v : BitVec 32), s.open_ → s.block.Canonical → Quiet s.block pRop → v.getLsbD 0 = false → v.getLsbD 1 = true →
    v.getLsbD 2 = false → s.block.rope.jstate = 3 →
    (s.block.lead = false → Completes (.leave v) s (fun b => b.rope.jstate = 0 ∧ b.joined = false ∧ b.rope.members = [] ∧
      ∃ m ∈ b.out.sent, m.toward = .all ∧ m.kind = .membership)) ∧
    (s.block.lead = true → (∃ m ∈ s.block.rope.members, m.lost = false ∧ m.id ≠ s.block.endpoint) →
      Completes (.leave v) s (fun b => b.fld pRop 0x10 17 1 = 1 ∧
        OnlyRegs (pRop.at 0x108 :: errRegs pRop ++ writeRegs) s.block b))) ∧
  (∀ (s : State) (v : BitVec 32), s.open_ → s.block.Canonical → Quiet s.block pRop → v.getLsbD 0 = false →
    v.getLsbD 1 = false → v.getLsbD 2 = true → ∀ id, id = bits (v.setWidth 64) 16 12 →
    (∀ m, s.block.liveMembers.find? (fun m => decide (m.id = id)) = some m → s.block.rope.jstate = 3 → s.block.lead = true →
      id ≠ s.block.endpoint → (∀ k ∈ s.block.rope.members, k.id < 4096) → Completes (.declare v) s (fun b =>
        b.rope.epoch = (s.block.rope.epoch + 1) % 2 ^ 32 ∧ (∀ k ∈ b.rope.members, k.id = id → k.lost = true) ∧
        (∃ k, Posted k b ∧ k.toward = .all ∧ k.kind = .membership) ∧ b.fld pKwt 0x10 18 1 = 1)) ∧
    (s.block.lead = false ∨ id = s.block.endpoint → Completes (.declare v) s (fun b => b.fld pRop 0x10 17 1 = 1 ∧
      OnlyRegs (pRop.at 0x108 :: errRegs pRop ++ writeRegs) s.block b)))

/-- An evaluation notes every page's counts and scores every page; with no action enabled a page rises at once to the band
its score reaches. CLEAR ends a forced band and clears the sled's FATAL. (Choices of the model in it: log 103, 104.) -/
def Obligations.HealthEvaluations : Prop :=
  (∀ s : State, s.awake → s.block.Canonical → s.block.CanonicalParts →
    (s.block.pageState pHlt = 2 → s.block.health.lastAt + s.block.evalPeriod ≤ s.block.meter →
      (∀ n, n < 5 → s.block.fld pHlt 0x108 n 1 = 0) → Completes .healthEvaluation s (fun b =>
        b.health.lastAt = s.block.meter ∧ b.reg (pHlt.at 0x40) = s.block.reg (pHlt.at 0x40) + 1 ∧
        b.health.samples = (allPages.map s.block.healthNow).filter (fun x => decide (x.corr + x.retry + x.retrain ≠ 0)) ::
          s.block.health.samples.take 7 ∧
        (∀ p ∈ allPages, b.fld p 0x98 0 16 = s.block.score p (s.block.healthNow p) ∧
          ((s.block.bandRec p).forced = false → s.block.bandOf p < 2 →
            s.block.fld pHlt 0x104 16 16 ≤ s.block.score p (s.block.healthNow p) → b.bandOf p = 2) ∧
          ((s.block.bandRec p).forced = false → s.block.bandOf p = 0 →
            s.block.fld pHlt 0x104 0 16 ≤ s.block.score p (s.block.healthNow p) →
            s.block.score p (s.block.healthNow p) < s.block.fld pHlt 0x104 16 16 → b.bandOf p = 1)) ∧
        b.sans = { s.block.sans with health := b.health })) ∧
    (s.block.meter < s.block.health.lastAt + s.block.evalPeriod → exec .healthEvaluation s = .next s)) ∧
  (∀ (s : State) (v : BitVec 32), s.open_ → s.block.Canonical → s.block.CanonicalParts →
    (v.getLsbD 0 = true → v.getLsbD 1 = false → Completes (.clearFatal v) s (fun b => b.sled.fatal = 0 ∧
      b.sled.power = .on ∧ b.sled.tripLast = s.block.sled.tripLast ∧ b.sans = { s.block.sans with sled := b.sled } ∧
      RegsBut writeRegs s.block b)) ∧
    (∀ p, v.getLsbD 0 = false → v.getLsbD 1 = true → pageOfCode (nbits v.toNat 16 5) (nbits v.toNat 21 9) = some p →
      ((s.block.bandRec p).forced = true → Completes (.clearPage v) s (fun b => (b.bandRec p).forced = false ∧
        b.bandOf p = s.block.bandOf p ∧ b.reg (pHlt.at 0x78) = s.block.reg (pHlt.at 0x78) + 1 ∧
        b.sans = { s.block.sans with health := b.health } ∧ RegsBut (pHlt.at 0x78 :: writeRegs) s.block b)) ∧
      ((s.block.bandRec p).forced = false → Completes (.clearPage v) s (fun b => OnlyRegs writeRegs s.block b))))

/-! ## Updates and versions -/

/-- INSERT, DELETE and UPSERT send their records to their owners; as the last reply of a step arrives the next step is asked
for, and the last confirmation ends the command OK. (Choices of the model in it: log 42.) -/
def Obligations.UpdatesRun : Prop :=
  (∀ (s : Block) (q : List Instr) (id : Nat) (rs : List PeerReply),
    ∀ e ∈ [(UpdKind.insert, 0x20, Instr.insert id rs), (.delete, 0x21, .delete id rs), (.upsert, 0x22, .upsert id rs)],
      ∀ c b, Handed ⟨q, s⟩ id e.2.1 [0] c b → ∀ h, h = updHeader e.1 (b.readInput c 0 64) → ∀ recs, recs = readRecords b c e.1 h →
      updCheck b c e.1 h recs = none → (∀ p ∈ b.places, b.placeReady p = true) →
      (∀ r ∈ recs, b.ownerOf c.object r.vid ∈ b.places) → Completes e.2.2 ⟨q, s⟩ (fun t =>
        (∃ u ∈ t.updates, u.cmd = id ∧ u.index = c.object ∧ u.kind = e.1 ∧ u.records = h.records ∧ u.ids = recs.map (·.vid) ∧
          u.step = .durable ∧ u.waiting = u.owners ∧ ∀ p, p ∈ u.owners ↔ ∃ r ∈ recs, b.ownerOf c.object r.vid = p) ∧
        (∀ r ∈ recs, ∃ m k, Posted m t ∧ m.toward = .place (b.ownerOf c.object r.vid) ∧ m.kind = .ownerRecords ∧ m.args = [id] ∧
          m.body = .owner k ∧ k.kind = e.1 ∧ k.tag = id ∧ r ∈ k.records) ∧
        t.cmd id = some c ∧ t.hostMem = s.hostMem)) ∧
  (∀ (s : State) (id p : Nat) (num : Nat), s.awake → s.block.Canonical → ∀ c, s.block.cmd id = some c →
    c.phase = .working → ∀ u, s.block.updateOf id = some u → u.waiting = [p] → p ≠ s.block.place →
    ∀ e ∈ [(0x20, Instr.insert id [⟨p, 0, num, []⟩]), (0x21, .delete id [⟨p, 0, num, []⟩]), (0x22, .upsert id [⟨p, 0, num, []⟩])],
      c.opcode = e.1 →
      (u.step = .durable → Completes e.2 s (fun b => (∃ y, b.updateOf id = some y ∧ y.step = .cairn ∧
        y.waiting = [(s.block.index u.index).keeper]) ∧ (∃ m, Posted m b ∧ m.toward = .place (s.block.index u.index).keeper ∧
          m.kind = .cairnRequest ∧ m.args = [u.index, id]) ∧ b.cmds = s.block.cmds ∧ b.hostMem = s.block.hostMem)) ∧
      (u.step = .cairn → Completes e.2 s (fun b => (∃ y, b.updateOf id = some y ∧ y.step = .record ∧ y.cairn = num ∧
        y.waiting = if u.kind = .insert then u.owners else s.block.places) ∧ (∃ d, b.cmd id = some d ∧ d.cairn = num) ∧
        (∀ n ∈ (if u.kind = .insert then u.owners else s.block.places), ∃ m, Posted m b ∧ m.toward = .place n ∧
          m.kind = .cairnRecord) ∧ b.hostMem = s.block.hostMem)) ∧
      (u.step = .record → Completes e.2 s (fun b => (∃ y, b.updateOf id = some y ∧ y.step = .confirm ∧ y.cairn = u.cairn) ∧
        (∃ m, Posted m b ∧ m.toward = .place (s.block.index u.index).keeper ∧ m.kind = .confirm ∧ m.args = [u.index, u.cairn]) ∧
        b.cmds = s.block.cmds ∧ b.hostMem = s.block.hostMem)) ∧
      (u.step = .confirm → Completes e.2 s (fun b => b.cmd id = none ∧ b.updateOf id = none)))

/-- An owner appends the records it is sent to its logs, without a cairn; a page that has gathered for 20 µs is written and
sent to its parity places; a parity place folds a copy in and says so. (Choices of the model in it: log 27, 29, 122.) -/
def Obligations.OwnersAndLogs : Prop :=
  (∀ (s : State) (m : OwnerMsg), s.awake → s.block.Canonical → Quiet s.block pIdx → ∀ x, x = s.block.index m.index.val →
    m.records ≠ [] → m.fromPlace ≠ s.block.place → (∀ g ∈ x.groups, ¬(g.fromPlace = m.fromPlace ∧ g.tag = m.tag)) →
    (x.versions = [] → m.kind ≠ .delete → x.side.length + m.records.length ≤ 16777216 →
      x.tombs.length + m.records.length ≤ 16777216 → s.block.running pIdx = true →
      Completes (.ownerRecords m) s (fun b => (∃ k, Posted k b ∧ k.toward = .place m.fromPlace ∧
      k.kind = .ownerReply ∧ k.args = [m.tag, 0x03, 0]) ∧ b.indexes = s.block.indexes ∧ b.cmds = s.block.cmds ∧
      b.hostMem = s.block.hostMem)) ∧
    (s.block.running pIdx = true →
      ((m.kind = .insert ∧ 16777216 < x.side.length + m.records.length) ∨
        (m.kind = .delete ∧ 16777216 < x.tombs.length + m.records.length) → Completes (.ownerRecords m) s (fun b =>
        (∃ k, Posted k b ∧ k.toward = .place m.fromPlace ∧ k.kind = .ownerReply ∧ k.args = [m.tag, 0x10, 0]) ∧
        b.fld pIdx 0x10 18 1 = 1 ∧ b.indexes = s.block.indexes)) ∧
      (x.side.length + m.records.length ≤ 16777216 → x.tombs.length + m.records.length ≤ 16777216 → s.block.joined = true →
        s.block.noWrites = false → (m.kind = .delete ∨ x.versions ≠ []) → Completes (.ownerRecords m) s (fun b =>
          (∃ g ∈ (b.index m.index.val).groups, g.fromPlace = m.fromPlace ∧ g.tag = m.tag ∧ g.count = m.records.length) ∧
          (m.kind ≠ .delete → ∀ r ∈ m.records, ∃ e ∈ (b.index m.index.val).side, e.vid = r.vid ∧ e.cairn = none ∧
            e.vec = r.vec ∧ e.attr = r.attr ∧ e.tag = (m.fromPlace, m.tag)) ∧
          (m.kind ≠ .insert → ∀ r ∈ m.records, ∃ t ∈ (b.index m.index.val).tombs, t.vid = r.vid ∧ t.cairn = none ∧
            t.tag = (m.fromPlace, m.tag)) ∧
          (∀ e ∈ x.side, e ∈ (b.index m.index.val).side) ∧ (∀ t ∈ x.tombs, t ∈ (b.index m.index.val).tombs) ∧
          (∀ n, n ≠ m.index.val → b.index n = s.block.index n) ∧ b.cmds = s.block.cmds ∧ b.hostMem = s.block.hostMem)))) ∧
  (∀ (s : State) (ix : Fin 16) (p : LogPage), s.awake → s.block.Canonical →
    (s.block.index ix.val).logPages.find? (fun p => decide (p.number + 1 = (s.block.index ix.val).nextPage) && decide (0 < p.bytes)) =
      some p →
    (p.since + 2000 ≤ s.block.meter → Completes (.logPageTimer ix) s (fun b =>
      (∃ w ∈ b.ftl.writes, w.what = .logPage ix.val p.number ∧ w.data = (s.block.index ix.val).pageBytes p.number) ∧
      (∀ n ∈ s.block.parityPlaces (pageKey ix.val p.number), ∃ m, Posted m b ∧ m.toward = .place n ∧ m.kind = .logCopy ∧
        m.args = [ix.val, p.number] ∧ m.data = (s.block.index ix.val).pageBytes p.number) ∧
      (b.index ix.val).side = (s.block.index ix.val).side ∧ (b.index ix.val).tombs = (s.block.index ix.val).tombs ∧
      b.cmds = s.block.cmds ∧ b.hostMem = s.block.hostMem)) ∧
    (s.block.meter < p.since + 2000 → exec (.logPageTimer ix) s = .next s)) ∧
  (∀ (s : State) (p page : Nat) (data : Bytes), s.awake →
    (s.block.joined = true → p ≠ s.block.place → Completes (.logCopy p page data) s (fun b =>
      (∃ r ∈ b.rope.parity, r.stripe = (Config.ropeStripe p page).1) ∧
      (∃ m, Posted m b ∧ m.toward = .place p ∧ m.kind = .logCopyHeld ∧ m.args = [page]) ∧ b.cmds = s.block.cmds ∧
      b.hostMem = s.block.hostMem)) ∧
    (s.block.joined = false → exec (.logCopy p page data) s = .next s))

/-- The keeper of an index: it assigns the next cairn, records confirmations and voids, and tells the visible cairn; a
touched place records a change under its cairn; a member takes the visible cairn it is told. (Choices of the model in it: log
22, 23, 125.) -/
def Obligations.CairnsAdvance : Prop :=
  ∀ (s : State) (ix : Fin 16), s.awake → s.block.Canonical → ∀ x, x = s.block.index ix.val →
    (x.keeper = s.block.place → s.block.placeReady s.block.place = true →
      (∀ p tag, p ≠ s.block.place → s.block.running pIdx = true → (∀ o ∈ x.opened, ¬(o.place = p ∧ o.tag = tag)) →
        (x.exhausted = false → Completes (.cairnRequest ix p tag) s (fun b =>
          b.index ix.val = { x with assigned := x.assigned + 1, opened := x.opened ++ [⟨x.assigned + 1, p, tag⟩] } ∧
          (∃ m, Posted m b ∧ m.toward = .place p ∧ m.kind = .cairnGrant ∧ m.args = [tag, 0, x.assigned + 1]) ∧
          b.reg (pIdx.at 0x40) = s.block.reg (pIdx.at 0x40) + 1 ∧ b.cmds = s.block.cmds ∧ b.hostMem = s.block.hostMem)) ∧
        (x.exhausted = true → Completes (.cairnRequest ix p tag) s (fun b => b.indexes = s.block.indexes ∧
          (∃ m, Posted m b ∧ m.toward = .place p ∧ m.kind = .cairnGrant ∧ m.args = [tag, 0x10, 0]) ∧ b.cmds = s.block.cmds))) ∧
      (∀ (c : BitVec 48) (o : OpenCairn), x.opened.find? (fun o => decide (o.cairn = c.toNat)) = some o →
        o.place ≠ s.block.place → Completes (.confirm ix c) s (fun b =>
          (b.index ix.val).opened = x.opened.filter (fun y => decide (y.cairn ≠ c.toNat)) ∧
          (b.index ix.val).visible = Index.keeperVisible { x with opened := x.opened.filter (fun y => decide (y.cairn ≠ c.toNat)) } ∧
          (b.index ix.val).assigned = x.assigned ∧ x.localVc ≤ (b.index ix.val).localVc ∧
          (∃ m, Posted m b ∧ m.toward = .place o.place ∧ m.kind = .confirmed ∧ m.args = [o.tag, 0, 0]) ∧
          b.cmds = s.block.cmds ∧ b.hostMem = s.block.hostMem))) ∧
    (∀ c : BitVec 48,
      (x.keeper = s.block.place → (∃ o ∈ x.opened, o.cairn = c.toNat) → Completes (.voidCairn ix c) s (fun b =>
        (b.index ix.val).opened = x.opened.filter (fun y => decide (y.cairn ≠ c.toNat)) ∧ c.toNat ∈ (b.index ix.val).voids ∧
        c.toNat ∈ (b.index ix.val).untold ∧ (b.index ix.val).voided = (x.voided + 1) % 2 ^ 32 ∧ b.fld pIdx 0x10 19 1 = 1 ∧
        (∀ e ∈ (b.index ix.val).side, e.cairn ≠ some c.toNat) ∧ (∀ t ∈ (b.index ix.val).tombs, t.cairn ≠ some c.toNat) ∧
        b.sans = { s.block.sans with indexes := b.indexes } ∧ RegsBut (pIdx.at 0x70 :: errRegs pIdx) s.block b)) ∧
      (x.keeper ≠ s.block.place ∨ (∀ o ∈ x.opened, o.cairn ≠ c.toNat) → exec (.voidCairn ix c) s = .next s)) ∧
    (x.keeper = s.block.place → x.sentVc < x.visible →
      (∀ t, x.lastSend = some t → t + 100 * s.block.fld pIdx 0x104 0 16 ≤ s.block.meter) →
      Completes (.visibleCairnSend ix) s (fun b =>
        b.index ix.val = { x with lastSend := some s.block.meter, sentVc := x.visible, untold := [] } ∧
        (∀ p ∈ s.block.others, ∃ m, Posted m b ∧ m.toward = .place p ∧ m.kind = .visibleCairn ∧
          m.args = ix.val :: x.visible :: x.untold) ∧
        (∀ r ∈ s.block.rope.members, r.spare = true → r.place = 63 → r.lost = false → ∃ m, Posted m b ∧
          m.toward = .module r.id ∧ m.kind = .visibleCairn ∧ m.args = ix.val :: x.visible :: x.untold) ∧ b.cmds = s.block.cmds ∧ b.hostMem = s.block.hostMem)) ∧
    (x.visible ≤ x.sentVc → exec (.visibleCairnSend ix) s = .next s) ∧
    (∀ (c : BitVec 48) (l : List Nat),
      (x.keeper ≠ s.block.place → Completes (.visibleCairnMessage ix c l) s (fun b =>
        (b.index ix.val).localVc = max x.localVc c.toNat ∧ (∀ e ∈ (b.index ix.val).side, ∀ k, e.cairn = some k → k ∉ l) ∧
        (∀ e ∈ x.side, e.cairn = none → e ∈ (b.index ix.val).side) ∧
        b.sans = { s.block.sans with indexes := b.indexes } ∧ RegsBut [pIdx.at 0x78] s.block b)) ∧
      (x.keeper = s.block.place → exec (.visibleCairnMessage ix c l) s = .next s)) ∧
    (∀ m : CairnMsg, m.index = ix → m.fromPlace ≠ s.block.place →
      m.deleted = [] ∨ s.block.indexMoving ix.val = none → s.block.running pIdx = true → m.cairn.toNat ∉ x.voids →
      Completes (.cairnRecord m) s (fun b =>
        (b.index ix.val).side = x.side.map (fun e =>
          if e.tag = (m.fromPlace, m.tag) ∧ e.cairn = none then { e with cairn := some m.cairn.toNat } else e) ∧
        (b.index ix.val).tombs = x.tombs.map (fun t =>
          if t.tag = (m.fromPlace, m.tag) ∧ t.cairn = none then { t with cairn := some m.cairn.toNat } else t) ∧
        (b.index ix.val).versions = x.versions.map (fun v => v.recordDeletes m.deleted m.cairn.toNat) ∧
        (b.index ix.val).deletes = x.deletes ++ m.deleted.map (fun i => (i, m.cairn.toNat)) ∧
        (∃ k, Posted k b ∧ k.toward = .place m.fromPlace ∧ k.kind = .cairnRecorded ∧ k.args = [m.tag, 0, 0]) ∧
        b.reg (pIdx.at 0x48) = s.block.reg (pIdx.at 0x48) + 1 ∧ b.cmds = s.block.cmds ∧ b.hostMem = s.block.hostMem))

/-- A mount or consolidation brings a version in, MOUNTING; its placed tiles make it MOUNTED; a switch makes it CURRENT, in
the keeper's order and once every place has said that it can, and a retirement RETIRING. (Choices of the model in it: log 24,
25, 26, 117 to 123.) -/
def Obligations.VersionsComeAndGo : Prop :=
  (∀ (s : Block) (q : List Instr) (id : Nat) (rs : List PeerReply), ∀ c b, Handed ⟨q, s⟩ id 0x25 [0] c b →
    ∀ m, m = b.readInput c 0 c.pay.len → b.noWrites = false → Quiet s pIdx →
    Completes (.indexMount (.own id rs)) ⟨q, s⟩ (fun t => if mountCheck b c m = none then
      (∃ v ∈ (t.index c.object).versions, v.root = parseRoot m ∧ v.state = .mounting ∧ v.cmd = some id ∧
        v.waiting = b.others) ∧ (t.index c.object).high = (parseRoot m).version ∧
      (∀ v ∈ (b.index c.object).versions, v ∈ (t.index c.object).versions) ∧
      (∀ p ∈ b.others, ∃ k, Posted k t ∧ k.toward = .place p ∧ k.kind = .mountStart) ∧ t.cmd id = some c ∧ t.hostMem = s.hostMem
      else t.cmd id = none)) ∧
  (∀ (s : State) (ix : Fin 16) (ver : BitVec 32), s.awake → s.block.Canonical →
    ∀ v, (s.block.index ix.val).version ver.toNat = some v → v.state = .mounting → (s.block.takeInjected pIdx 16).1 = false →
    (s.block.homeSealed .index ix.val ver.toNat = true → (∃ t ∈ v.tiles, tileOk t.2 = false) → v.cmd = none → Completes (.mountTilesPlaced ix ver) s (fun b =>
      (b.index ix.val).version ver.toNat = none ∧ b.fld pIdx 0x10 16 1 = 1 ∧
      (∃ k, Posted k b ∧ k.toward = .place v.fromPlace ∧ k.kind = .mountReady ∧ k.args = [v.tag, 0x03]) ∧
      b.cmds = s.block.cmds)) ∧
    (s.block.homeSealed .index ix.val ver.toNat = true → v.tiles.length = v.root.tiles → (∀ t ∈ v.tiles, tileOk t.2 = true) →
      (∀ e ∈ directory v.tiles v.root, slotsOk (readPart v.tiles v.root e) = true) →
      (∀ n, n < v.root.partitions → (readNode v.tiles v.root n).2 = true) →
      ascending (fun x y => decide (x < y)) ((directory v.tiles v.root).map (·.part)) = true →
      (s.block.index ix.val).codebooksDiffer v.tiles v.root = false →
      (∀ id, v.cmd = some id → s.block.passed ((s.block.cmd id).bind (·.deadline)) = false) →
      Completes (.mountTilesPlaced ix ver) s (fun b => ∃ w, (b.index ix.val).version ver.toNat = some w ∧ w.state = .mounted ∧
        w.root = v.root ∧ w.nodes = (List.range v.root.partitions).map (fun n => (readNode v.tiles v.root n).1) ∧
        w.parts = ((directory v.tiles v.root).filter (fun e => decide (s.block.placeOfShard ix.val (shardOf e.part) =
          s.block.place))).map (readPart v.tiles v.root) ∧
        (∀ id, v.cmd = some id → v.busy = true → v.waiting = [] → b.cmd id = none) ∧
        (v.cmd = none → ∃ k, Posted k b ∧ k.toward = .place v.fromPlace ∧ k.kind = .mountReady ∧ k.args = [v.tag, 0]))) ∧
    (s.block.homeSealed .index ix.val ver.toNat = false → exec (.mountTilesPlaced ix ver) s = .next s)) ∧
  (∀ (s : Block) (q : List Instr) (id : Nat) (rs : List PeerReply),
    ∀ e ∈ [(0x24, Instr.indexSwitch (.own id rs)), (0x26, .indexRetire (.own id rs))], ∀ c b, Handed ⟨q, s⟩ id e.1 [0] c b →
      c.payValid = false → c.resValid = false → c.param (if e.1 = 0x26 then 32 else 65) (if e.1 = 0x26 then 96 else 63) = 0 →
      c.object < 16 → ∀ x, x = b.index c.object →
      ∀ r : SwitchRun, r = { cmd := some id, fromPlace := b.place, tag := id, index := c.object,
                              version := c.param 0 32, retire := decide (e.1 = 0x26), expect := c.param 32 32,
                              first := decide (c.param 64 1 = 1), deadline := c.deadline } →
      (x.keeper = b.place → b.placeReady b.place = true → b.places.all b.placeReady = true → (∀ y ∈ b.switching, y.index ≠ c.object) → x.asks = [] →
        x.switchStale r = false →
        (b.others = [] → e.1 = 0x24 → Completes e.2 ⟨q, s⟩ (fun t => (∃ v, (t.index c.object).version (c.param 0 32) = some v ∧
          v.state = .current) ∧ (∀ v ∈ (t.index c.object).versions, v.state = .current → v.root.version = c.param 0 32) ∧
          t.cmd id = none)) ∧
        (b.others = [] → e.1 = 0x26 → Completes e.2 ⟨q, s⟩ (fun t => (∀ v, (t.index c.object).version (c.param 0 32) = some v →
          v.state = .retiring) ∧ t.cmd id = none)) ∧
        (b.others ≠ [] → Completes e.2 ⟨q, s⟩ (fun t => (t.index c.object).versions = x.versions ∧ t.cmd id = some c ∧
          (∃ y ∈ t.switching, y.cmd = some id ∧ y.checking = true ∧ y.waiting = b.others) ∧
          ∀ p ∈ b.others, ∃ k, Posted k t ∧ k.toward = .place p ∧ k.kind = .switchCheck ∧
            k.args = [id, c.object, c.param 0 32, if e.1 = 0x26 then 1 else 0]))) ∧
      (x.keeper ≠ b.place → x.high ≠ 0 → Completes e.2 ⟨q, s⟩ (fun t => t.indexes = b.indexes ∧ t.cmd id = some c ∧
        (∃ k, Posted k t ∧ k.toward = .place x.keeper ∧ k.kind = .switchAsk) ∧ t.hostMem = s.hostMem))) ∧
  (∀ (s : State) (id : Nat) (rs : List PeerReply) (c : Cmd) (r : SwitchRun), s.awake → s.block.Canonical → s.block.cmd id = some c →
    c.phase = .working → c.opcode = 0x24 → (s.block.index c.object).keeper = s.block.place → r ∈ s.block.switching →
    (∀ y ∈ s.block.switching, y.cmd = some id → y = r) → r.cmd = some id → r.index = c.object → r.retire = false →
    (∀ p ∈ r.waiting, ∃ y ∈ rs, y.place = p) → (∀ y ∈ rs, y.status = 0#8) →
    ∀ v, (s.block.index c.object).version r.version = some v →
    (r.checking = true → s.block.others ≠ [] → Completes (.indexSwitch (.own id rs)) s (fun b =>
      (∃ w, (b.index c.object).version r.version = some w ∧ w.state = .current) ∧ b.cmd id = some c ∧
      (∀ w ∈ (b.index c.object).versions, w.state = .current → w.root.version = r.version) ∧
      ∀ p ∈ s.block.others, ∃ k, Posted k b ∧ k.toward = .place p ∧ k.kind = .switchApply ∧ k.args = [r.tag, r.index, r.version])) ∧
    (r.checking = false → Completes (.indexSwitch (.own id rs)) s (fun b => b.cmd id = none))) ∧
  (∀ (s : State) (o : PeerOrder), s.awake → s.block.Canonical → nbits o.params 127 1 = 0 → s.block.running pIdx = true →
    (s.block.index o.object).keeper ≠ s.block.place → ∀ v, (s.block.index o.object).version o.version = some v → v.state = .mounted →
    (nbits o.params 126 1 = 0 → Completes (.indexSwitch (.order o)) s (fun b =>
      (∃ w, (b.index o.object).version o.version = some w ∧ w.state = .current) ∧ b.fld pIdx 0x20 16 1 = 1 ∧
      (∃ k, Posted k b ∧ k.toward = .place o.fromPlace ∧ k.kind = .switchApplied ∧ k.args = [o.tag, 0]) ∧ b.cmds = s.block.cmds)) ∧
    (nbits o.params 126 1 = 1 → Completes (.indexSwitch (.order o)) s (fun b => b.indexes = s.block.indexes ∧
      (∃ k, Posted k b ∧ k.toward = .place o.fromPlace ∧ k.kind = .switchApplied ∧ k.args = [o.tag, 0]) ∧ b.cmds = s.block.cmds))) ∧
  (∀ (s : Block) (q : List Instr) (id : Nat) (r : Root) (ts : List Bytes) (rs : List PeerReply),
    ∀ c b, Handed ⟨q, s⟩ id 0x23 [0] c b → consolidateCheck b c = none → b.noWrites = false →
    ∀ cut, cut = (if c.param 64 48 = 0 then (b.index c.object).localVc else c.param 64 48) →
    ∀ v, (b.index c.object).version (c.param 32 32) = some v →
    buildVersion (b.index c.object) v (c.param 0 32) cut (rs.flatMap (fun p => readSideRecords v.root p.data)) = .ok (r, ts) →
    b.overLimits c.object (directory (numbered ts) r) = false → b.baseLost v = false →
    Completes (.consolidate (.own id rs)) ⟨q, s⟩ (fun t => (∃ w ∈ (t.index c.object).versions, w.root = r ∧
      w.state = .mounting ∧ w.built = true ∧ w.cmd = some id ∧ w.waiting = b.others ∧ w.base = c.param 32 32 ∧
      w.tiles.map (·.2) = ts) ∧ (∀ p ∈ b.others, ∃ k, Posted k t ∧ k.toward = .place p ∧ k.kind = .mountStart) ∧
      t.cmd id = some c ∧ t.hostMem = s.hostMem))

/-! ## Tables and placement -/

/-- A gather reads the rows held here into its result, and asks their owners for the others; a prefetch stages them; a reply
brings rows, the last one ends the command; one that fails ends it once no other is awaited, as rows whose owner's place is lost do. (Choices of the model in it: log 36, 37, 145.) -/
def Obligations.RowsGathered : Prop :=
  (∀ (s : Block) (q : List Instr) (id : Nat) (pf : Bool) (rs : List PeerReply),
    ∀ c b, Handed ⟨q, s⟩ id (if pf then 0x34 else 0x30) [0, 1] c b →
    ∀ rows, rows = (List.range (c.param 32 17)).map (fun i => le (b.readInput c (4 * i) 4) 0 4) → gatherCheck b c pf rows = none →
    ∀ t, b.tableOf c.object = some t → ∀ v, v = (if c.param 0 32 = 0 then t.current else c.param 0 32) →
    (∀ g ∈ b.gathers, g.cmd ≠ id) → (∀ x ∈ rows, (t.row v x).length = t.rowBytes) →
    (∀ x ∈ rows, b.movingOut (fun i => decide (i = .rowBlock c.object (rowBlock x))) = none) →
    (∀ x ∈ rows, b.holdsRow c.object x = true → b.rowLost t v x = false) →
    ((∀ x ∈ rows, b.placeReady (b.blockOwner c.object (rowBlock x)) = false) → rows ≠ [] →
      Completes (if pf then .tblPrefetch id rs else .tblGather id rs) ⟨q, s⟩ (fun z => z.cmd id = none)) ∧
    ((∀ x ∈ rows, b.placeReady (b.blockOwner c.object (rowBlock x)) = true) → (∃ x ∈ rows, b.holdsRow c.object x = false) →
      Completes (if pf then .tblPrefetch id rs else .tblGather id rs) ⟨q, s⟩ (fun z =>
        (∃ g ∈ z.gathers, g.cmd = id ∧ g.version = v ∧ g.left = (nub rows).filter (fun x => !b.holdsRow c.object x)) ∧
        (∀ x ∈ rows, b.holdsRow c.object x = false → ∃ m, Posted m z ∧ m.kind = .tableRequest ∧ m.args = [id] ∧
          m.toward = .place (b.blockOwner c.object (rowBlock x)) ∧ ∃ r, m.body = .forward (.table r) ∧ x ∈ r.rows ∧ r.version = v ∧
            r.prefetch = pf) ∧
        (pf = true → z.hostMem = s.hostMem ∧
          (b.dramShort (16384 * rows.length) = false →
            ∃ y, z.tableOf c.object = some y ∧ ∀ x ∈ rows, b.holdsRow c.object x = true → ∃ h ∈ y.held, h.1 = x ∧ h.2.1 = v)) ∧
        (pf = false → c.res.space = 0 → MemBut c.res.addr (rows.length * t.stride) s z ∧
          ∀ i x, rows[i]? = some x → b.holdsRow c.object x = true →
            z.hostRead (c.res.addr + i * t.stride) t.stride = padTo (t.row v x) t.stride))) ∧
    ((∀ x ∈ rows, b.placeReady (b.blockOwner c.object (rowBlock x)) = true) → (∀ x ∈ rows, b.holdsRow c.object x = true) →
      Completes (if pf then .tblPrefetch id rs else .tblGather id rs) ⟨q, s⟩ (fun z => z.cmd id = none ∧
        ∀ g ∈ z.gathers, g.cmd ≠ id))) ∧
  (∀ (s : State) (id n st num : Nat) (pf : Bool) (g : Gather) (data : Bytes), s.awake → s.block.Canonical →
    ∀ c, s.block.cmd id = some c → c.phase = .working → c.opcode = (if pf then 0x34 else 0x30) → g.prefetch = pf →
    s.block.gathers.find? (fun g => decide (g.cmd = id)) = some g → ∀ t, s.block.tableOf c.object = some t → n ≠ s.block.place →
    (∀ l, l = (if pf then readNums data else (readRows t.rowBytes data).map (·.1)) →
      (∃ x ∈ g.left, x ∉ l) → Completes (if pf then .tblPrefetch id [⟨n, 0, num, data⟩] else .tblGather id [⟨n, 0, num, data⟩]) s
        (fun b => (∃ y ∈ b.gathers, y.cmd = id ∧ y.left = g.left.filter (fun x => !decide (x ∈ l)) ∧
          y.staged = g.staged + (if pf then num else 0)) ∧ b.tables = s.block.tables)) ∧
    (∀ l, l = (if pf then readNums data else (readRows t.rowBytes data).map (·.1)) → (∀ x ∈ g.left, x ∈ l) →
      Completes (if pf then .tblPrefetch id [⟨n, 0, num, data⟩] else .tblGather id [⟨n, 0, num, data⟩]) s
        (fun b => b.cmd id = none)) ∧
    (0 < st → st < 256 → ((∀ x ∈ g.left, x ∈ readNums data) → Completes (if pf then .tblPrefetch id [⟨n, BitVec.ofNat 8 st, num, data⟩]
        else .tblGather id [⟨n, BitVec.ofNat 8 st, num, data⟩]) s (fun b => b.cmd id = none)) ∧
      ((∃ x ∈ g.left, x ∉ readNums data) → Completes (if pf then .tblPrefetch id [⟨n, BitVec.ofNat 8 st, num, data⟩]
        else .tblGather id [⟨n, BitVec.ofNat 8 st, num, data⟩]) s (fun b => b.cmds = s.block.cmds ∧ ∃ y ∈ b.gathers, y.cmd = id ∧
          y.left = g.left.filter (fun x => !decide (x ∈ readNums data)) ∧ y.failed ≠ 0 ∧ (g.failed = 0 → y.failed = st))))) ∧
  (∀ (s : State) (r : TableReq), s.awake → s.block.Canonical → Quiet s.block pTbl → r.fromPlace ≠ s.block.place →
    (s.block.tableOf r.table = none → Completes (.tableRequest r) s (fun b =>
      (∃ m, Posted m b ∧ m.toward = .place r.fromPlace ∧ m.kind = .tableRows ∧ m.args = [r.tag, 0x07, 0]) ∧
      b.tables = s.block.tables ∧ b.cmds = s.block.cmds ∧ b.hostMem = s.block.hostMem)) ∧
    (∀ t, s.block.tableOf r.table = some t → s.block.running pTbl = true → (∃ v ∈ t.versions, v.version = r.version) →
      (∀ x ∈ r.rows, s.block.movingOut (fun i => decide (i = .rowBlock r.table (rowBlock x))) = none) →
      (∀ x ∈ r.rows, s.block.holdsRow r.table x = true → s.block.rowLost t r.version x = false) →
      Completes (.tableRequest r) s (fun b =>
        (∀ l, l = r.rows.filter (s.block.holdsRow r.table) → l ≠ [] → ∃ m, Posted m b ∧ m.toward = .place r.fromPlace ∧
          m.kind = .tableRows ∧ (∃ n, m.args = [r.tag, 0, n] ∧ (r.prefetch = true →
            s.block.dramShort (16384 * r.rows.length) = false →
            n = l.length)) ∧
          m.data = if r.prefetch then l.flatMap (fun x => toLe x 4) else rowsData (l.map (fun x => (x, t.row r.version x)))) ∧
        (∀ x ∈ r.rows, s.block.holdsRow r.table x = false → ∃ m, Posted m b ∧ m.kind = .forwarded ∧
          m.toward = .place (s.block.blockOwner r.table (rowBlock x)) ∧ ∃ f, m.body = .forward (.table f) ∧ x ∈ f.rows ∧
            f.fromPlace = r.fromPlace ∧ f.tag = r.tag ∧ f.version = r.version) ∧
        b.cmds = s.block.cmds ∧ b.hostMem = s.block.hostMem))) ∧
  (∀ (s : State) (n row : Nat), s.awake → ∀ t, s.block.tableOf n = some t → Completes (.pfHoldExpiry n row) s (fun b =>
    (∃ y, b.tableOf n = some y ∧ y.versions = t.versions ∧ y.pending = t.pending ∧ (∀ h ∈ y.held, h ∈ t.held) ∧
      (∀ h ∈ t.held, h.1 = row → h.2.2 + s.block.fld pTbl 0x104 0 16 * 100 ≤ s.block.meter → h ∉ y.held) ∧
      (∀ h ∈ t.held, h.1 ≠ row ∨ s.block.meter < h.2.2 + s.block.fld pTbl 0x104 0 16 * 100 → h ∈ y.held)) ∧
    (∀ k, k ≠ n → b.tableOf k = s.block.tableOf k) ∧ b.regs = s.block.regs ∧ b.cmds = s.block.cmds ∧
    b.hostMem = s.block.hostMem))

/-- A scatter takes the next origin sequence and sends each owner its records; an owner holds them once, pending, and makes
them durable; when every owner has replied the scatter commits, and its records are committed at every owner. (Choices of the
model in it: log 38, 144, 146.) -/
def Obligations.ScattersCommit : Prop :=
  (∀ (s : Block) (q : List Instr) (id : Nat) (add : Bool) (rs : List PeerReply),
    ∀ c b, Handed ⟨q, s⟩ id (if add then 0x32 else 0x31) [0, 1] c b →
    ∀ rows, rows = (List.range (c.param 32 17)).map (fun i => le (b.readInput c (4 * i) 4) 0 4) → scatterCheck b c add rows = none →
    ∀ t, b.tableOf c.object = some t → (∀ x ∈ rows, b.placeReady (b.blockOwner c.object (rowBlock x)) = true) →
    Completes (if add then .tblScatterAdd id rs else .tblScatterSet id rs) ⟨q, s⟩ (fun z =>
      z.nextSeq c.object (c.param 0 32) = (b.nextSeq c.object (c.param 0 32) + 1) % 2 ^ 32 ∧
      (∃ x ∈ z.scatters, x.cmd = id ∧ x.table = c.object ∧ x.step = c.param 0 32 ∧ x.records = rows.length ∧ x.moved = [] ∧
        x.left = nub (rows.map rowBlock)) ∧
      (∀ i x, rows[i]? = some x → ∃ m, Posted m z ∧ m.kind = .tentative ∧ m.args = [id] ∧
        m.toward = .place (b.blockOwner c.object (rowBlock x)) ∧ ∃ f, m.body = .forward (.records f) ∧ f.step = c.param 0 32 ∧
          f.fromPlace = b.place ∧ f.tag = id ∧
          (⟨b.fld pGlb 0x110 0 12, b.nextSeq c.object (c.param 0 32), i, x, add,
            b.readInput c (roundUp (4 * rows.length) 64 + i * t.stride) t.rowBytes⟩ : ScatterRec) ∈ f.records) ∧
      z.cmd id = some c ∧ z.tables = b.tables ∧ z.hostMem = s.hostMem)) ∧
  (∀ (s : State) (id n num : Nat) (add : Bool) (x : Scatter) (data : Bytes), s.awake → s.block.Canonical →
    ∀ c, s.block.cmd id = some c → c.phase = .working → c.opcode = (if add then 0x32 else 0x31) → n ≠ s.block.place →
    s.block.scatters.find? (fun x => decide (x.cmd = id)) = some x → x.failed = 0 →
    (∀ e ∈ [(0, { x with left := x.left.filter (fun k => !decide (k ∈ readNums data)), owners := nub (snoc x.owners n) }),
        (0x0D, { x with moved := snoc x.moved (num % 2 ^ 24, num / 2 ^ 24 % 64), movedMap := num / 2 ^ 32 })],
      Completes (if add then .tblScatterAdd id [⟨n, e.1, num, data⟩] else .tblScatterSet id [⟨n, e.1, num, data⟩]) s (fun b =>
        b.scatters.find? (fun x => decide (x.cmd = id)) = some e.2 ∧ b.cmds = s.block.cmds ∧ b.tables = s.block.tables ∧
        b.hostMem = s.block.hostMem)) ∧
    ((∀ k ∈ x.left, k ∈ readNums data) →
      Completes (if add then .tblScatterAdd id [⟨n, 0x10, num, data⟩] else .tblScatterSet id [⟨n, 0x10, num, data⟩]) s (fun b =>
        b.cmd id = none ∧ ∀ y ∈ b.scatters, y.cmd ≠ id)) ∧
    ((∃ k ∈ x.left, k ∉ readNums data) →
      Completes (if add then .tblScatterAdd id [⟨n, 0x10, num, data⟩] else .tblScatterSet id [⟨n, 0x10, num, data⟩]) s (fun b =>
        b.scatters.find? (fun x => decide (x.cmd = id)) =
          some { x with left := x.left.filter (fun k => !decide (k ∈ readNums data)), failed := 0x10 } ∧ b.cmds = s.block.cmds)) ∧
    (x.left ≠ [] → exec (.commit id none) s = .next s) ∧
    (x.left = [] → s.block.noWrites = false → s.block.passed c.deadline = false → Completes (.commit id none) s (fun b => b.cmd id = none ∧
      (∀ y ∈ b.scatters, y.cmd ≠ id) ∧
      (∀ p ∈ x.owners, p ≠ s.block.place → ∃ m, Posted m b ∧ m.toward = .place p ∧ m.kind = .commit ∧ m.args = [id, s.block.place]) ∧
      ∀ t ∈ b.tables, ∀ r ∈ t.pending, r.fromPlace = s.block.place → r.tag = id → r.committed = true))) ∧
  (∀ (s : State) (m : TentativeMsg), s.awake → s.block.Canonical → Quiet s.block pTbl → m.fromPlace ≠ s.block.place →
    (m.records ≠ [] → s.block.tableOf m.table = none → Completes (.tentativeRecords m) s (fun b =>
      (∃ k, Posted k b ∧ k.toward = .place m.fromPlace ∧ k.kind = .tentativeHeld ∧ k.args = [m.tag, 0x07, 0]) ∧
      b.tables = s.block.tables ∧ b.cmds = s.block.cmds ∧ b.hostMem = s.block.hostMem)) ∧
    (∀ t, m.records ≠ [] → s.block.tableOf m.table = some t →
      (∀ r ∈ m.records, s.block.blockOwner m.table (rowBlock r.row) = s.block.place ∧
        s.block.movingOut (fun i => decide (i = .rowBlock m.table (rowBlock r.row))) = none) →
      (t.dropping = true ∨ m.step ≠ t.openV → Completes (.tentativeRecords m) s (fun b =>
        (∃ k, Posted k b ∧ k.toward = .place m.fromPlace ∧ k.kind = .tentativeHeld ∧ k.args = [m.tag, 0x07, 0]) ∧
        b.tables = s.block.tables ∧ b.cmds = s.block.cmds ∧ b.hostMem = s.block.hostMem)) ∧
      (t.dropping = false → m.step = t.openV → 16777216 < t.pending.length + m.records.length →
        (∀ r ∈ m.records, ∀ p ∈ t.pending, ¬(p.step = m.step ∧ p.item.origin = r.origin ∧ p.item.seq = r.seq ∧
          p.item.pos = r.pos)) → Completes (.tentativeRecords m) s (fun b =>
        (∃ k, Posted k b ∧ k.toward = .place m.fromPlace ∧ k.kind = .tentativeHeld ∧ k.args = [m.tag, 0x10, 0]) ∧
        b.fld pTbl 0x10 17 1 = 1 ∧ b.tables = s.block.tables ∧ b.hostMem = s.block.hostMem)) ∧
      (t.dropping = false → m.step = t.openV → t.pending.length + m.records.length ≤ 16777216 → s.block.running pTbl = true →
        s.block.joined = true → s.block.noWrites = false → Completes (.tentativeRecords m) s (fun b =>
          (∃ y, b.tableOf m.table = some y ∧ y.versions = t.versions ∧ (∀ p ∈ t.pending, p ∈ y.pending) ∧
            (∀ r ∈ m.records, ∃ p ∈ y.pending, p.step = m.step ∧ p.item.origin = r.origin ∧ p.item.seq = r.seq ∧
              p.item.pos = r.pos) ∧
            (∀ p ∈ y.pending, p ∈ t.pending ∨ (p.item ∈ m.records ∧ p.committed = false ∧ p.durable = false ∧
              p.fromPlace = m.fromPlace ∧ p.tag = m.tag))) ∧
          (∀ n, n ≠ m.table → b.tableOf n = s.block.tableOf n) ∧ b.cmds = s.block.cmds ∧ b.hostMem = s.block.hostMem))) ∧
    (∀ t, m.records = [] → s.block.tableOf m.table = some t → t.sealing = false → Completes (.tentativeRecords m) s (fun b =>
      (∃ y, b.tableOf m.table = some y ∧ y.versions = t.versions ∧
        y.pending = t.pending.filter (fun p => p.committed || !decide (p.fromPlace = m.fromPlace ∧ p.tag = m.tag))) ∧
      b.cmds = s.block.cmds ∧ b.hostMem = s.block.hostMem)) ∧
    (∀ id, Completes (.commit id (some m.fromPlace)) s (fun b =>
      ∀ t ∈ b.tables, ∀ r ∈ t.pending, r.fromPlace = m.fromPlace → r.tag = id → r.committed = true)))

/-- TBL_SWITCH. Its keeper, alone, publishes: the committed records of the OPEN version are folded and it becomes CURRENT;
defines a table without extents; and drops one. Elsewhere the command is put to the keeper, and a place does the step its
keeper orders. (Choices of the model in it: log 26, 145.) -/
def Obligations.TablesSwitch : Prop :=
  (∀ (s : Block) (q : List Instr) (id : Nat) (a : TblAction) (rs : List PeerReply) (i : Instr),
    (a, i) ∈ [(TblAction.publish, Instr.tblSwitchPublish (.own id rs)), (.define, .tblSwitchDefine (.own id rs)),
      (.drop, .tblSwitchDrop (.own id rs))] →
    Quiet s pTbl → ∀ c b, Handed ⟨q, s⟩ id 0x33 [0, 1] c b → c.param 32 2 = actionNumber a →
    switchCheck b c a (if c.payValid then b.readInput c 0 c.pay.len else []) = none →
    (∀ r ∈ b.tblSwitches, r.table ≠ c.object ∧ r.id < b.nextId) → b.running pTbl = true →
    (a ≠ .define → b.tableKeeper c.object ≠ b.place → Completes i ⟨q, s⟩ (fun z => z.tables = b.tables ∧
      z.tblSwitches = b.tblSwitches ∧ z.cmd id = some c ∧ z.hostMem = s.hostMem ∧
      ∃ m, Posted m z ∧ m.toward = .place (b.tableKeeper c.object) ∧ m.kind = .tableSwitch ∧
        m.args = [id, c.object, c.param 0 32, actionNumber a, b.remaining c])) ∧
    (∀ t, a ≠ .define → b.tableOf c.object = some t → t.keeper = b.place → t.dropping = true ∨ t.current ≠ c.param 0 32 →
      Completes i ⟨q, s⟩ (fun z => z.cmd id = none)) ∧
    (∀ t, a = .publish → b.tableOf c.object = some t → t.keeper = b.place → t.dropping = false → t.current = c.param 0 32 →
      t.folded = none → t.dropFor = none → b.places = [b.place] → b.placeReady b.place = true → b.tableCutover c.object = false →
      (∀ r ∈ t.pending, r.step = t.current + 1 → r.committed = true ∧ b.rowLost t t.current r.item.row = false) → Completes i ⟨q, s⟩ (fun z => z.cmd id = none ∧
        ∃ y, z.tableOf c.object = some y ∧ y.current = t.current + 1 ∧ y.sealing = false ∧
          (∀ r ∈ y.pending, r.step ≠ t.current + 1) ∧ ∀ x, y.row (t.current + 1) x =
            (t.fold (fun k => decide (b.blockOwner c.object k = b.place))).1.row (t.current + 1) x)) ∧
    (a = .define → b.tableOf c.object = none → b.tableKeeper c.object = b.place → b.places = [b.place] →
      b.placeReady b.place = true → b.homeSealed .table c.object 1 = true → (parseDef (b.readInput c 0 c.pay.len)).extents = 0 →
      Completes i ⟨q, s⟩ (fun z => z.cmd id = none ∧ z.fld pTbl 0x20 16 1 = 1 ∧
        ∃ y, z.tableOf c.object = some y ∧ y.rows = (parseDef (b.readInput c 0 c.pay.len)).rows ∧
          y.rowBytes = (parseDef (b.readInput c 0 c.pay.len)).rowBytes ∧ y.retain = (parseDef (b.readInput c 0 c.pay.len)).retain ∧
          y.efmt = (parseDef (b.readInput c 0 c.pay.len)).efmt ∧ y.current = 1 ∧ y.keeper = b.place ∧ y.pending = [])) ∧
    (∀ t, a = .drop → b.tableOf c.object = some t → t.keeper = b.place → t.dropping = false → t.current = c.param 0 32 →
      b.places = [b.place] → b.placeReady b.place = true →
      (∀ x ∈ b.scatters, (∀ g ∈ b.gathers, g.cmd ≠ x.cmd) ∧ ∀ y ∈ b.qpl.searches, y.cmd ≠ x.cmd) →
      (b.tableBound c.object none = false → Completes i ⟨q, s⟩ (fun z => z.tableOf c.object = none ∧
        ∃ m, Posted m z ∧ m.toward = .place b.place ∧ m.kind = .tableSwitched ∧ m.args = [b.nextId, c.object, 0, 0])) ∧
      (b.tableBound c.object none = true → Completes i ⟨q, s⟩ (fun z => z.cmd id = some c ∧
        ∃ y, z.tableOf c.object = some y ∧ y.dropping = true ∧ y.pending = [])))) ∧
  (∀ (s : State) (o : PeerOrder) (a : TblAction) (i : Instr), (a, i) ∈ [(TblAction.publish, Instr.tblSwitchPublish (.order o)),
      (.define, .tblSwitchDefine (.order o)), (.drop, .tblSwitchDrop (.order o))] →
    s.awake → s.block.Canonical → o.fromPlace ≠ s.block.place →
    (∀ r, nbits o.params 127 1 = 1 → s.block.tblSwitches.find? (fun r => decide (r.table = o.object) && r.begun) = some r →
      r.cmd = none → r.fromPlace ≠ s.block.place → o.fromPlace ∈ r.left → r.lost = false →
      (∀ x ∈ s.block.tblSwitches, x.table = r.table → x.id = r.id) →
      (o.params % 256 ≠ 0 → Completes i s (fun b => (∀ x ∈ b.tblSwitches, x.id ≠ r.id) ∧ b.tables = s.block.tables ∧
        ∃ m, Posted m b ∧ m.toward = .place r.fromPlace ∧ m.kind = .tableSwitched ∧ m.args = [r.tag, r.table, o.params % 256, 0])) ∧
      (o.params % 256 = 0 → r.left = [o.fromPlace] → r.swap = true → r.action = .publish →
        (∀ x ∈ s.block.tblSwitches, x.id = r.id → x = r) → Completes i s (fun b =>
          (∀ x ∈ b.tblSwitches, x.id ≠ r.id) ∧ b.tables = s.block.tables ∧ ∃ m, Posted m b ∧ m.toward = .place r.fromPlace ∧
            m.kind = .tableSwitched ∧ m.args = [r.tag, r.table, 0, min r.folded 0xFFFFFFFF]))) ∧
    (∀ t, nbits o.params 127 1 = 0 → nbits o.params 126 1 = 1 → nbits o.params 40 1 = 1 → s.block.tableOf o.object = some t →
      t.sealing = true → t.current = o.version → t.dropFor = none → Completes i s (fun b =>
        (∃ y, b.tableOf o.object = some y ∧ y.current = t.current + 1 ∧ y.sealing = false ∧
          y.pending = t.pending.filter (fun r => decide (t.current + 1 < r.step))) ∧
        b.fld pTbl 0x20 16 1 = 1 ∧ ∃ m, Posted m b ∧ m.toward = .place o.fromPlace ∧ m.kind = .tableSwitched ∧
          m.args = [o.tag, o.object, 0, 0])) ∧
    (∀ t, nbits o.params 127 1 = 0 → nbits o.params 126 1 = 1 → nbits o.params 40 1 = 0 → a = .publish →
      s.block.tableOf o.object = some t → t.current ≠ o.version → t.current ≠ o.version + 1 → Completes i s (fun b =>
        b.tables = s.block.tables ∧ ∃ m, Posted m b ∧ m.toward = .place o.fromPlace ∧ m.kind = .tableSwitched ∧
          m.args = [o.tag, o.object, 0x07, 0])) ∧
    (∀ t l, nbits o.params 127 1 = 0 → nbits o.params 126 1 = 0 → nbits o.params 125 1 = 1 →
      s.block.tableOf o.object = some t → nbits o.params 24 2 < 2 → l = readRows t.rowBytes o.data → (l.map (·.1)).Nodup → Completes i s (fun b =>
        (nbits o.params 24 2 = 1 → (o.object, o.params % 2 ^ 24) ∈ b.plc.replicas) ∧ (∃ y, b.tableOf o.object = some y ∧ y.current = t.current ∧
          ∀ e ∈ l, (∃ x ∈ e.2, x ≠ 0) → y.row o.version e.1 = e.2) ∧ b.regs = s.block.regs ∧ b.cmds = s.block.cmds)))

/-- A migration: it starts, copies, catches up, cuts over, and retires; or it is abandoned and its source stays owner. A
request for an item this place does not own goes one hop on; load windows end; a placement query
answers where an item is. (Choices of the model in it: log 39, 40, 41, 132, 146.) -/
def Obligations.PlacementMoves : Prop :=
  (∀ (s : State) (i : ItemRef), s.awake → s.block.Canonical →
     (∀ p n, ((p = s.block.place → s.block.running pPlc = true ∧ s.block.fld pPlc 0x104 0 1 = 1 ∧ s.block.moveOver i n = false) ∧
         s.block.moveOf i = none ∧ p ≠ n ∧
         p ∈ s.block.places ∧ n ∈ s.block.places ∧ s.block.placeWhole p = true ∧ s.block.placeWhole n = true ∧
         s.block.itemOwner i = p ∧ s.block.itemDefined i = true → Completes (.migrationStart i p n) s (fun b =>
           b.moveOf i = some { item := i, source := p, dest := n } ∧ (p = s.block.place →
             b.reg (pPlc.at 0x40) = s.block.reg (pPlc.at 0x40) + 1) ∧ b.sans = { s.block.sans with plc := b.plc } ∧
           RegsBut [pPlc.at 0x40] s.block b)) ∧
       ((p = s.block.place ∧ (s.block.running pPlc = false ∨ s.block.fld pPlc 0x104 0 1 = 0)) ∨ (s.block.moveOf i).isSome ∨
         s.block.placeWhole p = false ∨ s.block.placeWhole n = false ∨ s.block.itemOwner i ≠ p → exec (.migrationStart i p n) s = .next s)) ∧
     (∀ m copy, s.block.moveOf i = some m → m.phase = .copy → Quiet s.block pPlc →
       (m.source = s.block.place → m.dest ≠ s.block.place → Completes (.copyEnd i copy) s (fun b =>
         b.moveOf i = some { m with phase := .catchUp } ∧ (∃ k, Posted k b ∧ k.toward = .place m.dest ∧ k.kind = .migrateCopy ∧
           k.body = .copy (s.block.itemCopy i)) ∧ b.itemOwner i = s.block.itemOwner i ∧ b.tables = s.block.tables ∧
         b.indexes = s.block.indexes ∧ b.cmds = s.block.cmds ∧ b.hostMem = s.block.hostMem)) ∧
       (m.dest = s.block.place → m.source ≠ s.block.place → Completes (.copyEnd i copy) s (fun b =>
         b.moveOf i = some { m with phase := .catchUp } ∧
         ((∀ t k x, i = .rowBlock t k → s.block.tableOf t = some x → x.pending.length + (copy.records.map (·.1.records.length)).sum ≤
           12582912) → b.regs = s.block.regs) ∧
         (∀ t k x, i = .rowBlock t k → s.block.tableOf t = some x → ∃ y, b.tableOf t = some y ∧ y.current = x.current ∧
           (∀ p ∈ copy.records, ∀ r ∈ p.1.records, ∃ z ∈ y.pending, z.step = p.1.step ∧ z.item.origin = r.origin ∧
             z.item.seq = r.seq ∧ z.item.pos = r.pos ∧ (p.2 = true → z.committed = true)) ∧
           (∀ z ∈ y.pending, rowBlock z.item.row = k → ∃ p ∈ copy.records, z.step = p.1.step ∧ z.item ∈ p.1.records) ∧
           (∀ z ∈ x.pending, rowBlock z.item.row ≠ k → ∃ w ∈ y.pending, w.step = z.step ∧ w.item = z.item)) ∧
         b.cmds = s.block.cmds))) ∧
     (∀ m tail, s.block.moveOf i = some m → m.phase = .catchUp →
       (∀ t k x, i = .rowBlock t k → s.block.tableOf t = some x → x.sealing = true → exec (.cutover i tail) s = .next s) ∧
       ((∀ t k x, i = .rowBlock t k → s.block.tableOf t = some x → x.sealing = false) →
         (m.source = s.block.place → Completes (.cutover i tail) s (fun b => b.moveOf i = some { m with phase := .cutover } ∧
           (∃ k, Posted k b ∧ k.toward = .place m.dest ∧ k.kind = .migrateCopy ∧ k.body = .copy (s.block.itemCopy i)) ∧
           (∀ p ∈ s.block.others, ∃ k, Posted k b ∧ k.toward = .place p ∧ k.kind = .mapUpdate ∧ k.args = [m.dest] ∧
             k.body = .item i) ∧ b.itemOwner i = s.block.itemOwner i ∧ b.cmds = s.block.cmds ∧ b.hostMem = s.block.hostMem)) ∧
         (m.source ≠ s.block.place → m.dest ≠ s.block.place → Completes (.cutover i tail) s (fun b =>
           b.itemOwner i = m.dest ∧ (∃ k, Posted k b ∧ k.toward = .place m.source ∧ k.kind = .mapAck ∧ k.body = .item i) ∧
           b.tables = s.block.tables ∧ b.cmds = s.block.cmds ∧ b.hostMem = s.block.hostMem)))) ∧
     (∀ m, s.block.moveOf i = some m → m.phase = .cutover → m.held = [] →
       (∀ x ∈ s.block.tables, x.sealFor = none) →
       Completes (.cutoverAcknowledged i) s (fun b => b.itemOwner i = m.dest ∧ b.moveOf i = some { m with phase := .retire } ∧
         b.get pPlc 0x114 = (s.block.get pPlc 0x114 + 1) % 2 ^ 32 ∧ b.fld pPlc 0x20 17 1 = 1 ∧ b.tables = s.block.tables ∧
         b.indexes = s.block.indexes ∧ b.cmds = s.block.cmds ∧ b.hostMem = s.block.hostMem)) ∧
     (∀ m r, s.block.moveOf i = some m → m.phase = .cutover → ∀ at_, m.held = [(.table r, at_)] →
       Completes (.cutoverAcknowledged i) s (fun b => ∃ k, Posted k b ∧ k.toward = .place m.dest ∧ k.kind = .forwarded ∧
         k.body = .forward (.table r))) ∧
     (∀ m, s.block.moveOf i = some m → m.phase = .retire →
       (m.source ≠ s.block.place ∨ ∃ t k, i = .rowBlock t k ∧ ∀ x, s.block.tableOf t = some x →
         ∀ p ∈ x.pending, rowBlock p.item.row = k → p.committed = true) → Completes (.retireEnd i) s (fun b => b.moveOf i = none ∧
         (∀ t k x, i = .rowBlock t k → m.source = s.block.place → (t, k) ∉ s.block.plc.replicas → s.block.tableOf t = some x →
           ∃ y, b.tableOf t = some y ∧ (∀ v ∈ y.versions, ∀ r ∈ v.rows, rowBlock r.1 ≠ k) ∧
             ∀ p ∈ y.pending, rowBlock p.item.row ≠ k) ∧
         (m.source ≠ s.block.place → b.tables = s.block.tables ∧ b.indexes = s.block.indexes) ∧ b.regs = s.block.regs ∧
         b.itemOwner i = s.block.itemOwner i ∧ b.cmds = s.block.cmds ∧ b.hostMem = s.block.hostMem)) ∧
     (∀ m e, s.block.moveOf i = some m →
       (m.phase = .copy ∨ m.phase = .catchUp → e = true ∨ s.block.aborting pPlc = true ∨ s.block.placeReady m.source = false ∨
         s.block.placeReady m.dest = false → Completes (.migrationAbandon i e) s (fun b => b.moveOf i = none ∧
           b.itemOwner i = s.block.itemOwner i ∧ (e = true → s.block.party m = true → b.fld pPlc 0x10 17 1 = 1) ∧
           (m.dest ≠ s.block.place → b.tables = s.block.tables ∧ b.indexes = s.block.indexes) ∧
           b.cmds = s.block.cmds ∧ b.hostMem = s.block.hostMem)) ∧
       (m.phase = .cutover ∨ m.phase = .retire → exec (.migrationAbandon i e) s = .next s))) ∧
  ((∀ (s : State) (r : ShardReq), s.awake → exec (.forwardedRequest (.shard r)) s = exec (.shardRequest r) s ∧
     ∀ n k, r.shards = [n] → r.side = false → s.block.placeOfShard r.index n ≠ s.block.place →
     k = shardBudget r.budget.toNat (s.block.fld (pQpl 0) 0x108 0 16) → k ≠ 0 →
     Completes (.forwardedRequest (.shard r)) s (fun b => (∃ m, Posted m b ∧ m.toward = .place (s.block.placeOfShard r.index n) ∧
       m.kind = .forwarded ∧ m.body = .forward (.shard { r with budget := k })) ∧ b.qpl = s.block.qpl ∧
       b.cmds = s.block.cmds ∧ b.hostMem = s.block.hostMem)) ∧
   (∀ (s : State) (m : CairnMsg) (n : Nat), s.awake → s.block.Canonical → Completes (.forwardedRequest (.deletions m n)) s (fun b =>
     (b.index m.index.val).versions = (s.block.index m.index.val).versions.map (fun v => v.recordDeletes m.deleted m.cairn.toNat) ∧
     (∀ k, k ≠ m.index.val → b.index k = s.block.index k) ∧ b.regs = s.block.regs ∧ b.cmds = s.block.cmds)) ∧
   (∀ s : State, s.awake → s.block.Canonical → ∀ t, s.block.plc.windowAt = some t →
     (s.block.meter < t + 100000 * s.block.fld pPlc 0x108 0 16 → exec .loadWindowEnd s = .next s) ∧
     (t + 100000 * s.block.fld pPlc 0x108 0 16 ≤ s.block.meter → Completes .loadWindowEnd s (fun b =>
       b.plc.last = s.block.plc.counts ∧ b.plc.counts = [] ∧ b.plc.windowAt = some s.block.meter ∧
       b.plc.moves = s.block.plc.moves ∧ b.plc.blockMap = s.block.plc.blockMap ∧ (s.block.plc.startOver = true → b.plc.started = true) ∧
       (b.plcPhase = 0 → b.plc.replicas = [] ∧ b.plc.copies = []) ∧ b.cmds = s.block.cmds ∧ b.hostMem = s.block.hostMem))) ∧
   (∀ (s : State) (v : BitVec 64), s.open_ → s.block.Canonical → Quiet s.block pPlc → ∀ kind, kind = s.block.fld pPlc 0x120 0 2 →
     ∀ object, object = s.block.fld pPlc 0x120 16 16 → Completes (.qKeyWrite v) s (fun b =>
       b.reg (pPlc.at 0x128) = v ∧
       (kind = 3 ∨ (kind = 0 ∧ s.block.tableOf object = none) → b.get pPlc 0x130 = 2 ^ 31 + 2 ^ 30 ∧ b.get pPlc 0x134 = 0) ∧
       (∀ t, kind = 0 → s.block.tableOf object = some t → v.toNat < t.rows → s.block.blockOwner object (rowBlock v.toNat) < 64 →
         b.fld pPlc 0x130 0 6 = s.block.blockOwner object (rowBlock v.toNat) ∧
         (s.block.moveOf (.rowBlock object (rowBlock v.toNat)) = none → b.fld pPlc 0x130 6 1 = 0) ∧
         (s.block.blockOwner object (rowBlock v.toNat) = s.block.place → b.get pPlc 0x134 = min 0xFFFFFFFF
           (((s.block.plc.last.find? (fun e => decide (e.1 = .rowBlock object (rowBlock v.toNat)))).map (·.2)).getD 0))) ∧
       RegsBut (pPlc.at 0x128 :: pPlc.at 0x130 :: pPlc.at 0x134 :: writeRegs) s.block b ∧ b.tables = s.block.tables ∧
       b.cmds = s.block.cmds ∧ b.hostMem = s.block.hostMem)))

/-! ## The shared pool, context state and the DRAM tier -/

/-- POOL_LEASE grants, renews or defines and grants; what it refuses changes no region. A lease whose term passes ends with
its working copy, unless a swap of it has begun. POOL_PUBLISH swaps the working copy in as CURRENT + 1, at once or once its
pages are durable; POOL_RELEASE and POOL_DISCARD discard it. Each needs the lease that it names. (Choices of the model in it:
log 30.) -/
def Obligations.PoolLeasesAndPublishes : Prop :=
  ((∀ (s : Block) (q : List Instr) (id a : Nat) (i : Instr), (a, i) ∈ [(0, Instr.acquire id), (1, .renew id), (2, .create id)] →
     ∀ c b, Handed ⟨q, s⟩ id 0x50 [0, 1] c b → c.param 0 2 = a →
     (∀ st, leaseCheck b c = some st → Completes i ⟨q, s⟩ (fun z => z.cmd id = none ∧ z.regions = b.regions ∧
       z.nextLease = b.nextLease)) ∧
     (∀ w e, leaseCheck b c = none → c.res.space ≠ 1 → e = b.meter + c.param 16 16 * 100000 →
       w = (if c.param 13 1 = 1 then none else some (c.param 8 5)) → Completes i ⟨q, s⟩ (fun z => z.cmd id = none ∧
         (∀ r, a = 0 → b.region c.object = some r → z.region c.object =
           some { r with lease := some ⟨b.nextLease, c.who, w, e, false⟩ } ∧ z.nextLease ≠ b.nextLease) ∧
         (∀ r, a = 1 → b.region c.object = some r → ∃ y, z.region c.object = some y ∧
           y = { r with lease := r.lease.map (fun l => { l with writer := w, ends := e }) }) ∧
         (a = 2 → z.region c.object =
           some { number := c.object, pages := c.param 64 21, lease := some ⟨b.nextLease, c.who, w, e, false⟩ }) ∧
         ∀ n, n ≠ c.object → z.region n = b.region n))) ∧
   (∀ (s : State) (n : BitVec 12), s.awake → s.block.Canonical → ∀ r, s.block.region n.toNat = some r →
     ∀ l, r.lease = some l →
     (l.ends ≤ s.block.meter → (∀ p ∈ s.block.publishes, p.region ≠ n.toNat) → Completes (.leaseExpiry n) s (fun b =>
       b.region n.toNat = some { r with wc := [], lease := none } ∧ (∀ k, k ≠ n.toNat → b.region k = s.block.region k) ∧
       b.fld (pCxp 0) 0x20 17 1 = 1 ∧ b.reg ((pCxp 0).at 0x60) = s.block.reg ((pCxp 0).at 0x60) + 1 ∧
       b.sans = { s.block.sans with regions := b.regions } ∧
       RegsBut ((pCxp 0).at 0x60 :: intRegs (pCxp 0)) s.block b)) ∧
     (s.block.meter < l.ends ∨ (∃ p ∈ s.block.publishes, p.region = n.toNat) → exec (.leaseExpiry n) s = .next s))) ∧
  (∀ (s : Block) (q : List Instr) (id : Nat), ∀ op ∈ [0x51, 0x52, 0x53], ∀ c b, Handed ⟨q, s⟩ id op [0, 1] c b →
     ∀ r, s.region c.object = some r → ∀ l, r.lease = some l → 0 < c.object → c.object < 4096 → c.payValid = false → c.resValid = false → b.running (pCxp 0) = true →
     (op = 0x51 → c.param 66 62 = 0 → r.current ≠ 2 ^ 32 - 1 →
       (l.holder ≠ c.who ∨ l.id ≠ c.param 0 32 ∨ c.param 32 32 ≠ r.current + 1 → Completes (.poolPublish id) ⟨q, s⟩ (fun z =>
         z.cmd id = none ∧ z.regions = b.regions)) ∧
       (l.holder = c.who → l.id = c.param 0 32 → c.param 32 32 = r.current + 1 →
         (l.lostWc = true → Completes (.poolPublish id) ⟨q, s⟩ (fun z => z.cmd id = none ∧
           z.region c.object = some { r with wc := [], lease := some { l with lostWc := false } })) ∧
         (l.lostWc = false → (∀ p ∈ r.wc, p.tier.lost = false) → c.param 64 1 = 0 ∨ r.wc = [] →
           Completes (.poolPublish id) ⟨q, s⟩ (fun z => z.cmd id = none ∧ ∃ y, z.region c.object = some y ∧
             y.current = r.current + 1 ∧ y.wc = [] ∧ y.pages = r.pages ∧ (∀ p ∈ r.wc, { p with version := r.current + 1 } ∈ y.map) ∧
             (∀ p ∈ r.map, (∀ k ∈ r.wc, k.page ≠ p.page) → p ∈ y.map) ∧ (∀ p ∈ y.map, (∃ k ∈ r.wc, p = { k with version := r.current + 1 }) ∨ p ∈ r.map) ∧
             y.lease = if c.param 65 1 = 1 then none else r.lease)) ∧
         (l.lostWc = false → (∀ p ∈ r.wc, p.tier.lost = false) → c.param 64 1 = 1 → r.wc ≠ [] → b.noWrites = false →
           Completes (.poolPublish id) ⟨q, s⟩ (fun z => z.cmd id = some c ∧ z.regions = b.regions ∧
             (∃ p ∈ z.publishes, p.cmd = id ∧ p.region = c.object ∧ p.left = r.wc.map (·.page)) ∧
             (∀ p ∈ r.wc, ∃ w ∈ z.ftl.writes, w.what = .poolPage c.object (r.current + 1) p.page ∧
               w.data = Memory.read p.data 0 16384) ∧ z.hostMem = s.hostMem)))) ∧
     (op = 0x52 → c.param 32 32 = 0 → c.param 66 62 = 0 → (c.param 65 1 = 1 → c.who = none) →
       (c.param 65 1 = 0 → l.holder ≠ c.who ∨ l.id ≠ c.param 0 32 → Completes (.poolRelease id) ⟨q, s⟩ (fun z =>
         z.cmd id = none ∧ z.regions = b.regions)) ∧
       (c.param 65 1 = 1 ∨ (l.holder = c.who ∧ l.id = c.param 0 32) → Completes (.poolRelease id) ⟨q, s⟩ (fun z =>
         z.cmd id = none ∧ (c.param 64 1 = 1 → z.region c.object = none) ∧
         (c.param 64 1 = 0 → z.region c.object = some { r with wc := [], lease := none }) ∧
         (∀ p ∈ z.publishes, p.region ≠ c.object) ∧ ∀ n, n ≠ c.object → z.region n = b.region n))) ∧
     (op = 0x53 → c.param 32 96 = 0 → l.holder = c.who → l.id = c.param 0 32 →
       Completes (.poolDiscard id) ⟨q, s⟩ (fun z => z.cmd id = none ∧
         z.region c.object = some { r with wc := [], lease := some { l with lostWc := false } } ∧
         (∀ p ∈ z.publishes, p.region ≠ c.object) ∧ ∀ n, n ≠ c.object → z.region n = b.region n)))

/-- CXL reads find the writer's working copy, CURRENT, or zeros, and poison where the page is lost; writes go into the
working copy of the writer LD alone. A port's link, mailbox and bindings. (Choices of the model in it: log 30, 32.) -/
def Obligations.CxlPorts : Prop :=
  ∀ (s : State) (p : Fin 2) (ld : Fin 16), s.awake → s.block.Canonical → Quiet s.block (pCxp p.val) → ∀ n, n = 16 * p.val + ld.val →
    (∀ (a : BitVec 46) (r : Region), s.block.halted = false → ∀ o, o = a.toNat / 64 * 64 % 2 ^ 34 →
      (s.block.pageState (pCxp p.val) = 2 → 0x40000 ≤ a.toNat →
        (s.block.region (a.toNat / 2 ^ 34) = none → Completes (.cxlRead p ld a) s (fun b =>
          b.out.cxl = some (List.replicate 64 0) ∧
          OnlyRegs [(pCxp p.val).at 0x40, (pCxp p.val).at 0x78] s.block b)) ∧
        (s.block.region (a.toNat / 2 ^ 34) = some r → lostPage (r.page (r.writtenBy n) (o / 16384)) = false →
          Completes (.cxlRead p ld a) s (fun b =>
            b.out.cxl = some ((List.range 64).map (fun i => r.byte (r.writtenBy n) (o + i))) ∧
            b.reg ((pCxp p.val).at 0x40) = s.block.reg ((pCxp p.val).at 0x40) + 1 ∧
            b.reg ((pCxp p.val).at 0x78) = s.block.reg ((pCxp p.val).at 0x78) + 64 ∧
            OnlyRegs [(pCxp p.val).at 0x40, (pCxp p.val).at 0x78] s.block b)) ∧
        (s.block.region (a.toNat / 2 ^ 34) = some r → lostPage (r.page (r.writtenBy n) (o / 16384)) = true →
          Completes (.cxlRead p ld a) s (fun b => b.out.cxl = none ∧ b.fld (pCxp p.val) 0x10 17 1 = 1))) ∧
      (s.block.pageState (pCxp p.val) = 2 → a.toNat < 0x40000 → Completes (.cxlRead p ld a) s (fun b =>
        b.out.cxl = some (s.block.directoryEntry (a.toNat / 64)))) ∧
      (s.block.pageState (pCxp p.val) = 3 → Completes (.cxlRead p ld a) s (fun b => b.out.cxl = none ∧
        b.fld (pCxp p.val) 0x10 17 1 = 1 ∧ OnlyRegs (errRegs (pCxp p.val)) s.block b)) ∧
      (s.block.pageState (pCxp p.val) < 2 → exec (.cxlRead p ld a) s = .next s)) ∧
    (∀ (a : BitVec 46) (data : Bytes), s.block.halted = false → s.block.pageState (pCxp p.val) = 2 →
      0x40000 ≤ a.toNat → ∀ r, s.block.region (a.toNat / 2 ^ 34) = some r →
      (r.writtenBy n = false ∨ r.pages * 16384 < a.toNat % 2 ^ 34 + data.length → Completes (.cxlWrite p ld a data) s (fun b =>
        b.get (pCxp p.val) 0x118 = a.toNat + n * 2 ^ 46 + 2 ^ 63 ∧ b.fld (pCxp p.val) 0x10 16 1 = 1 ∧
        b.reg ((pCxp p.val).at 0x68) = s.block.reg ((pCxp p.val).at 0x68) + 1 ∧
        OnlyRegs ((pCxp p.val).at 0x118 :: (pCxp p.val).at 0x68 :: (pCxp p.val).at 0x78 :: errRegs (pCxp p.val)) s.block b)) ∧
      (∀ o, r.writtenBy n = true → o = a.toNat % 2 ^ 34 → data ≠ [] → o % 16384 + data.length ≤ 16384 →
        o + data.length ≤ r.pages * 16384 → (∀ k ∈ r.map ++ r.wc, k.data.wf = true) →
        ((pageIn r.wc (o / 16384)).isSome ∨ s.block.poolUsed < s.block.poolSize → Completes (.cxlWrite p ld a data) s (fun b =>
          ∃ y, b.region (a.toNat / 2 ^ 34) = some y ∧ y.map = r.map ∧ y.lease = r.lease ∧ y.current = r.current ∧
            (∀ i, i < data.length → some (y.byte true (o + i)) = data[i]?) ∧
            (∀ x, x < o ∨ o + data.length ≤ x → y.byte true x = r.byte true x) ∧
            b.cmds = s.block.cmds ∧ b.hostMem = s.block.hostMem)) ∧
        (pageIn r.wc (o / 16384) = none → s.block.poolSize ≤ s.block.poolUsed → Completes (.cxlWrite p ld a data) s (fun b =>
          ∃ y, b.region (a.toNat / 2 ^ 34) = some y ∧ y.map = r.map ∧ y.wc = r.wc ∧
            (∀ l, y.lease = some l → l.lostWc = true) ∧
            b.reg ((pCxp p.val).at 0x68) = s.block.reg ((pCxp p.val).at 0x68) + 1)))) ∧
    (∀ up width rate,
      (up = true → s.block.pageState (pCxp p.val) ≠ 0 → Completes (.cxlLinkChange p up width rate) s (fun b =>
        b.get (pCxp p.val) 0x100 = width.toNat + rate.toNat * 32 + 256 ∧
        (s.block.fld (pCxp p.val) 0x100 8 1 = 0 → b.fld (pCxp p.val) 0x20 16 1 = 1) ∧
        OnlyRegs ((pCxp p.val).at 0x100 :: intRegs (pCxp p.val)) s.block b)) ∧
      (up = false ∨ s.block.pageState (pCxp p.val) = 0 → Completes (.cxlLinkChange p up width rate) s (fun b =>
        b.get (pCxp p.val) 0x100 = 0 ∧ (s.block.fld (pCxp p.val) 0x100 8 1 = 1 → b.fld (pCxp p.val) 0x20 16 1 = 1) ∧
        OnlyRegs ((pCxp p.val).at 0x100 :: intRegs (pCxp p.val)) s.block b))) ∧
    (∀ m, (s.block.running (pCxp p.val) = true → m ∈ [MailboxCmd.identify, .supportedLogs, .getLog, .healthInfo] →
        Completes (.mailboxCommand p ld m) s (fun b => b.out.cxl.isSome = true ∧ b.regs = s.block.regs ∧
          b.sans = { s.block.sans with free := b.free })) ∧
      (s.block.running (pCxp p.val) = true → (∃ o, m = .other o) → Completes (.mailboxCommand p ld m) s (fun b =>
        b.out.cxl = none ∧ b.regs = s.block.regs ∧ b.sans = s.block.sans)) ∧
      (s.block.running (pCxp p.val) = false → exec (.mailboxCommand p ld m) s = .next s)) ∧
    (∀ on, Completes (.ldBinding p ld on) s (fun b => b.fld (pCxp p.val) 0x104 ld.val 1 = (if on then 1 else 0) ∧
      (∀ k, k < 64 → k ≠ ld.val → b.fld (pCxp p.val) 0x104 k 1 = s.block.fld (pCxp p.val) 0x104 k 1) ∧
      OnlyRegs [(pCxp p.val).at 0x104] s.block b))

/-- STATE_PUSH replaces a layer, at once or when its tiles are durable; STATE_FETCH answers the bound layers; DISCARD and
SECURE_DISCARD free what they name, the second ending with its erases. A dirty item's bytes go to flash in class 3, and once they are
programmed it is clean and has no mirror; an active stack that fails is replaced by S8, which becomes ACTIVE when its rebuild ends; a further failure finds S8
taken. (Choices of the model in it: log 33, 53, 132, 134.) -/
def Obligations.StateAndStacks : Prop :=
  ((∀ (s : Block) (q : List Instr) (id : Nat), ∀ c b, Handed ⟨q, s⟩ id 0x54 [0, 1] c b → ∀ n, n = c.param 32 13 →
     c.resValid = false → c.payValid = true → c.param 10 6 = 0 → c.param 16 11 = 0 → c.param 27 5 = 0 → c.param 48 80 = 0 →
     n * 16384 ≤ c.pay.len → 0 < n → n ≤ 4096 → n ≤ b.flashRoom → b.running pFtl = true →
     (c.param 47 1 = 0 → b.dramShort (n * 32768) = false → Completes (.statePush id) ⟨q, s⟩ (fun z => z.cmd id = none ∧
       ∃ y, z.layer c.object (c.param 0 10) = some y ∧ y.prio = c.param 45 2 ∧
         y.gen = (match b.layer c.object (c.param 0 10) with | some o => (o.gen + 1) % 2 ^ 32 | none => 1) ∧
         y.tiles.map (·.data) = (List.range n).map (fun i => b.readInput c (i * 16384) 16384) ∧
         ∀ o k, o ≠ c.object ∨ k ≠ c.param 0 10 → z.layer o k = b.layer o k)) ∧
     (c.param 47 1 = 1 ∨ b.dramShort (n * 32768) = true → b.noWrites = false → Completes (.statePush id) ⟨q, s⟩ (fun z => z.cmd id = some c ∧ z.layers = b.layers ∧
       (∃ p ∈ z.pushes, p.cmd = id ∧ p.left = List.range n ∧ p.layer.object = c.object ∧ p.layer.layer = c.param 0 10) ∧
       (∀ i, i < n → ∃ w ∈ z.ftl.writes, w.what = .stateTile c.object (c.param 0 10) id i ∧
         w.data = b.readInput c (i * 16384) 16384) ∧ z.hostMem = s.hostMem)) ∧
     (c.param 47 1 = 1 ∨ b.dramShort (n * 32768) = true → b.noWrites = true → Completes (.statePush id) ⟨q, s⟩ (fun z => z.cmd id = none ∧ z.layers = b.layers))) ∧
   (∀ (s : Block) (q : List Instr) (id ses msg : Nat) (ls : List Layer), ∀ c b, Handed ⟨q, s⟩ id 0x55 [0, 1] c b →
     ∀ first, first = c.param 0 10 → ∀ n, n = c.param 16 11 → c.payValid = false → c.resValid = true → c.param 10 6 = 0 → c.param 27 5 = 0 →
     c.param 32 13 = 0 → c.param 48 80 = 0 → 0 < n → first + n ≤ 1024 → (span first n).map (b.layer c.object) = ls.map some →
     (ls.map (fun l => 64 + 16384 * l.tiles.length)).sum ≤ c.res.len → (∀ l ∈ ls, b.layerLost l = false) →
     b.running pFtl = true → c.src = .session ses msg → (b.session ses).state ≠ .closed → c.res.space = 2 → c.area = [] →
     c.areaLen = 0 → Completes (.stateFetch id) ⟨q, s⟩ (fun z => z.cmd id = none ∧ z.layers = b.layers ∧
       ∃ m, Posted m z ∧ m.toward = .session ses ∧ m.kind = .reply ∧ m.args = [msg, c.seq, 0] ∧
         m.data.drop 64 = ls.flatMap (fun l => layerHeader l ++ l.tiles.flatMap (·.data)))) ∧
   (∀ (s : Block) (q : List Instr) (id : Nat), ∀ c b, Handed ⟨q, s⟩ id 0x60 [0, 1] c b →
     (∀ st, discardCheck b c false = some st → Completes (.discard id) ⟨q, s⟩ (fun z => z.cmd id = none ∧
       z.layers = b.layers)) ∧
     (discardCheck b c false = none → Completes (.discard id) ⟨q, s⟩ (fun z => z.cmd id = none ∧
       z.layers = b.layers.filter (fun l => !decide (l ∈ b.namedLayers (c.param 0 2) c.object (c.param 32 32) (c.param 64 32))) ∧
       ∀ x ∈ b.namedZones (c.param 0 2) (c.param 32 32) (c.param 64 32), z.zone x.number = none))) ∧
   (∀ (s : Block) (q : List Instr) (id : Nat) (e : Bool), ∀ c b, Handed ⟨q, s⟩ id 0x61 [0, 1] c b →
     s.discards.find? (fun d => decide (d.cmd = id)) = none → discardCheck b c true = none →
     Completes (.secureDiscard id e) ⟨q, s⟩ (fun z => z.cmd id = some c ∧ (∃ d ∈ z.discards, d.cmd = id ∧
         ∀ x ∈ b.namedZones (c.param 0 2) (c.param 32 32) (c.param 64 32), ∀ r ∈ b.zoneBlocks x, r ∈ d.blocks) ∧
       z.layers = b.layers.filter (fun l => !decide (l ∈ b.namedLayers (c.param 0 2) c.object (c.param 32 32) (c.param 64 32))) ∧
       (∀ x ∈ b.namedZones (c.param 0 2) (c.param 32 32) (c.param 64 32), z.zone x.number = none) ∧
       (c.param 0 2 = 3 → z.layers = [] ∧ z.dramParts = [] ∧ z.ftl.zones = [] ∧ ∀ r ∈ z.regions, r.map = [] ∧ r.wc = []))) ∧
   (∀ (s : State) (id : Nat) (d : DiscardRun), s.awake → s.block.Canonical → (s.block.cmd id).isSome →
     s.block.discards.find? (fun d => decide (d.cmd = id)) = some d →
     (∀ e, (e = true → ∀ r ∈ d.blocks, s.block.erasing r = true → s.block.bayReads (r.lun.channel.val / 4) = false) →
       Completes (.secureDiscard id e) s (fun b => b.cmd id = none ∧ (∀ x ∈ b.discards, x.cmd ≠ id) ∧
         (e = false → b.ftl.entries = s.block.ftl.entries) ∧
         (e = true → b.ftl.entries = s.block.ftl.entries.filter (fun n => decide ((s.block.bay n).st = 5 ∨ (s.block.bay n).st = 6))))) ∧
     ((∃ r ∈ d.blocks, s.block.erasing r = true ∧ s.block.bayReads (r.lun.channel.val / 4) = true) →
       exec (.secureDiscard id true) s = .next s))) ∧
  (∀ s : State, s.awake → s.block.Canonical →
     (∀ n page r, s.block.noWrites = false → s.block.region n = some r →
       ((∃ p ∈ r.map, p.page = page ∧ p.tier.dirty = true ∧ p.tier.lost = false) →
         Completes (.dirtyWriteBack (.poolPage n page r.current)) s (fun b =>
           (∃ p ∈ r.map, p.page = page ∧ p.tier.dirty = true ∧ ∃ w ∈ b.ftl.writes ++ b.ftl.programs.map (·.write),
             w.what = .poolBack n p.version page ∧ ((∀ x ∈ s.block.ftl.writes ++ s.block.ftl.programs.map (·.write), x.what ≠ w.what) →
               b.ftl.writes = s.block.ftl.writes ++ [w] ∧ w.data = Memory.read p.data 0 16384)) ∧
           b.sans = { s.block.sans with ftl := { s.block.ftl with writes := b.ftl.writes } } ∧ b.regs = s.block.regs)) ∧
       (∀ v, v ≠ r.current → exec (.dirtyWriteBack (.poolPage n page v)) s = .next s)) ∧
     (s.block.noWrites = true → ∀ x, exec (.dirtyWriteBack x) s = .next s) ∧
     (∀ o k i l t, s.block.noWrites = false → s.block.layer o k = some l → l.tiles[i]? = some t → t.tier.lost = false →
       t.tier.dirty = true → Completes (.dirtyWriteBack (.stateTile o k i)) s (fun b =>
         (∃ w ∈ b.ftl.writes ++ b.ftl.programs.map (·.write), w.what = .stateBack o k l.gen i ∧
           ((∀ x ∈ s.block.ftl.writes ++ s.block.ftl.programs.map (·.write), x.what ≠ w.what) →
             b.ftl.writes = s.block.ftl.writes ++ [w] ∧ w.data = t.data)) ∧
         b.sans = { s.block.sans with ftl := { s.block.ftl with writes := b.ftl.writes } } ∧ b.regs = s.block.regs)) ∧
     (∀ k : Fin 9, k.val ∉ s.block.deadStacks →
       (k.val < 8 → s.block.roles.spare = 1 → Completes (.stackFailure k) s (fun b =>
         b.roles = { failed := k.val :: s.block.roles.failed, spare := 2, standFor := some k.val } ∧
         b.fld (pMem k.val) 0x104 0 3 = 3 ∧ b.fld (pMem 8) 0x104 0 3 = 2 ∧ b.fld (pMem 8) 0x104 4 4 = k.val ∧
         b.fld (pMem k.val) 0x10 18 1 = 1 ∧ (b.stack k.val).waiting = [] ∧
         ((∀ w ∈ (s.block.stack k.val).sweeps, w.state = .returning ∨ ∃ x r, s.block.ctx w.ctx = some x ∧ x.work = .shard r) →
           ∀ w ∈ (b.stack k.val).sweeps, w.state = .returning))) ∧
       (k.val < 8 → s.block.roles.spare ≠ 1 → Completes (.stackFailure k) s (fun b =>
         b.roles = { s.block.roles with failed := k.val :: s.block.roles.failed } ∧ b.fld (pMem k.val) 0x104 0 3 = 3 ∧
         b.fld (pMem k.val) 0x10 18 1 = 1)) ∧
       (k.val = 8 → Completes (.stackFailure k) s (fun b => b.roles = { s.block.roles with spare := 3 } ∧
         b.fld (pMem 8) 0x104 0 3 = 3 ∧ b.fld (pMem 8) 0x10 18 1 = 1))) ∧
     (∀ k : Fin 9, k.val ∈ s.block.deadStacks → exec (.stackFailure k) s = .next s) ∧
     (∀ n, s.block.roles.spare = 2 → s.block.roles.standFor = some n → n < 8 → Completes .spareRebuildEnd s (fun b =>
       b.roles = { s.block.roles with spare := 0 } ∧ b.fld (pMem 8) 0x104 0 3 = 0 ∧
       (b.stack 8).rows = (s.block.stack n).rows ∧ (∀ r ∈ s.block.indexRows n, r ∈ b.indexRows 8) ∧ b.indexRows n = [] ∧
       (b.stack n).rows = [] ∧ (∀ d ∈ b.dramParts, ∀ g ∈ d.segments, g.stack ≠ n) ∧ b.cmds = s.block.cmds ∧
       b.hostMem = s.block.hostMem)) ∧
     (s.block.roles.spare ≠ 2 → exec .spareRebuildEnd s = .next s))

/-! ## Flash and bays -/

/-- The oldest page waiting that fits is programmed; its completion adds a member to its stripe row, and with the last data
member P and Q; a failed one waits for its block to be retired. What a page makes durable goes on. A filled zone whose tiles
are durable is sealed and its record goes to the ring or is held; the driver's writes of the zone log's registers; blocks are
refreshed, rewritten and retired, and log zones compacted. (Choices of the model in it: log 43, 44, 46, 47, 48, 136.) -/
def Obligations.FlashWritten : Prop :=
  (∀ (s : State) (l : LunRef) (page : Nat), s.awake → s.block.Canonical →
     (∀ w rest z, s.block.writeStopped = false → s.block.takesWrites = true → s.block.engineUp l.channel.val = true →
       (∀ p ∈ s.block.ftl.programs, p.lun ≠ l) → ⟨l, page / 4096⟩ ∉ s.block.ftl.retired →
       s.block.slowItems l.channel.val < 64 → s.block.erasing ⟨l, page / 4096⟩ = false →
       takeFirst (s.block.fits ⟨l, page / 4096⟩ (page % 4096)) s.block.ftl.writes = some (w, rest) →
       s.block.zoneFor w.what ⟨l, page / 4096⟩ = some z → Completes (.pageProgram l page) s (fun b =>
         b.ftl.writes = rest ∧ b.ftl.programs = s.block.ftl.programs ++ [⟨l, page, z.number, w, false, false⟩] ∧
         (∃ x, b.zone z.number = some x ∧ x.place.isSome = true) ∧
         b.sans = { s.block.sans with ftl := b.ftl } ∧ RegsBut [(pFlc l.channel.val).at 0x120] s.block b)) ∧
     (s.block.writeStopped = true ∨ s.block.takesWrites = false ∨ s.block.engineUp l.channel.val = false ∨
       64 ≤ s.block.slowItems l.channel.val ∨ s.block.erasing ⟨l, page / 4096⟩ = true ∨ (∃ p ∈ s.block.ftl.programs, p.lun = l) →
       exec (.pageProgram l page) s = .next s) ∧
     (∀ p, s.block.ftl.programs.find? (fun p => decide (p.lun = l)) = some p → p.failed = false →
       (p.sent = false ∨ s.block.programSuspended p = true → ∀ ok, exec (.programComplete l ok) s = .next s) ∧
       (p.sent = true → s.block.programSuspended p = false →
       Completes (.programComplete l false) s (fun b => (∀ x ∈ b.ftl.programs, x.lun = l → x.failed = true) ∧
         b.ftl.rows = s.block.ftl.rows ∧ b.regs = s.block.regs ∧ b.sans = { s.block.sans with ftl := b.ftl }) ∧
       (∀ n row bay r m, bay = l.channel.val / 4 → row = p.page % 4096 → r = s.block.rowOf p.zone row →
         m = (⟨bay, bay, some p.write.what, pageImage s.block.sec.tenantKey (luaOf p.zone row bay) p.write.data, false,
           s.block.journalBay bay⟩ : Member) → r.parity = false → (∃ t v k, p.write.what = .fold t v k ∨ p.write.what = .home t v) →
         n = (dataBays row r.absent).length → r.zone = p.zone → r.row = row →
         (r.members.length + 1 < n → Completes (.programComplete l true) s (fun b =>
           b.rowOf p.zone row = { r with members := r.members ++ [m] } ∧ (∀ x ∈ b.ftl.programs, x.lun ≠ l) ∧
           (∀ z t, p.write.what = .home z t → ∀ x, s.block.zone z = some x → b.zone z = some { x with durable := x.durable + 1 }) ∧
           b.cmds = s.block.cmds ∧ b.hostMem = s.block.hostMem)) ∧
         (r.members.length + 1 = n → Completes (.programComplete l true) s (fun b => (b.rowOf p.zone row).parity = true ∧
           (∀ x ∈ r.members ++ [m], { x with journal := none } ∈ (b.rowOf p.zone row).members) ∧
           (∀ data, data = (sortBy (fun x y => decide (x.bay < y.bay)) (r.members ++ [m])).map (·.data) →
             ∀ e ∈ (parityBays row r.absent).zip [parityP data, parityQ data],
               ⟨e.1, e.1, none, e.2, false, none⟩ ∈ (b.rowOf p.zone row).members)))) ∧
       (∀ o k id t x, p.write.what = .stateTile o k id t → s.block.pushes.find? (fun x => decide (x.cmd = id) && decide (t ∈ x.left)) =
         some x → x.left = [t] → (∀ c, s.block.cmd id = some c → s.block.passed c.deadline = false) →
         Completes (.programComplete l true) s (fun b => b.cmd id = none ∧ ∃ y, b.layer x.layer.object x.layer.layer = some y ∧ y.tiles.map (·.data) = x.layer.tiles.map (·.data) ∧
             ∀ t ∈ y.tiles, t.tier.dirty = false)) ∧
       (∀ n v k x r, p.write.what = .poolPage n v k → s.block.publishes.find? (fun x => decide (x.region = n) && decide (k ∈ x.left)) =
         some x → x.left = [k] → s.block.region n = some r → v = r.current + 1 → Completes (.programComplete l true) s (fun b =>
           b.cmd x.cmd = none ∧ ∃ y, b.region n = some y ∧ y.current = v ∧ y.wc = [] ∧
             (∀ q ∈ r.wc, ∃ e ∈ y.map, e.page = q.page ∧ e.data = q.data ∧ e.tier.dirty = false))) ∧
       (∀ n v k r, p.write.what = .poolBack n v k → s.block.region n = some r →
         (∃ q ∈ r.map, q.page = k ∧ q.version = v ∧ q.tier.dirty = true ∧ q.tier.lost = false) →
         Completes (.programComplete l true) s (fun b => ∃ y, b.region n = some y ∧ y.wc = r.wc ∧ y.lease = r.lease ∧
           y.current = r.current ∧ y.map.map (·.data) = r.map.map (·.data) ∧
           (∀ q ∈ y.map, q.page = k → q.version = v → q.tier.lost = false → q.tier.dirty = false) ∧
           (∀ q ∈ r.map, q.page ≠ k → q ∈ y.map) ∧ ((∀ q ∈ y.map, q.tier.dirty = false) → y.durable = r.current) ∧
           b.reg ((pCxp 0).at 0x70) = s.block.reg ((pCxp 0).at 0x70) + 16384)) ∧
       (∀ o k g i y t, p.write.what = .stateBack o k g i → s.block.layer o k = some y → y.gen = g → y.tiles[i]? = some t →
         t.tier.dirty = true → t.tier.lost = false → Completes (.programComplete l true) s (fun b => ∃ z, b.layer o k = some z ∧
           z.gen = g ∧ z.tiles[i]? = some { t with tier := { t.tier with dirty := false, mirror := none } } ∧
           (∀ j, j ≠ i → z.tiles[j]? = y.tiles[j]?)))))) ∧
  ((∀ (s : State) (z : Nat), s.awake → s.block.Canonical → Quiet s.block pFtl → ∀ x, s.block.zone z = some x → x.log = false → x.st = .opened →
     (x.filled = false ∨ x.durable < x.tiles.length → exec (.zoneSeal z) s = .next s) ∧
     (x.filled = true → x.tiles.length ≤ x.durable →
       (s.block.zlogFull = true → Completes (.zoneSeal z) s (fun b => b.fld pFtl 0x10 18 1 = 1 ∧
         OnlyRegs (errRegs pFtl) s.block b)) ∧
       (s.block.zlogFull = false → x.owner ≠ .table → Completes (.zoneSeal z) s (fun b =>
         b.zone z = some { x with st := .sealed } ∧ (∀ r ∈ b.ftl.rows, r.zone = z → r.parity = true) ∧
         b.reg (pFtl.at 0x70) = s.block.reg (pFtl.at 0x70) + 1 ∧ b.cmds = s.block.cmds ∧
         (s.block.get pFtl 0x110 = 0 → b.ftl.held = s.block.ftl.held ++ [zoneRecord x false] ∧ b.hostMem = s.block.hostMem) ∧
         (s.block.get pFtl 0x110 ≠ 0 → s.block.ftl.held = [] →
           b.hostRead (s.block.get pFtl 0x110 + 32 * (s.block.get pFtl 0x11C % s.block.get pFtl 0x118)) 32 = zoneRecord x false ∧
           b.get pFtl 0x11C = (s.block.get pFtl 0x11C + 1) % 2 ^ 32 ∧ b.fld pFtl 0x20 16 1 = 1 ∧
           MemBut (s.block.get pFtl 0x110 + 32 * (s.block.get pFtl 0x11C % s.block.get pFtl 0x118)) 32 s.block b))))) ∧
   (∀ s : State, s.open_ → s.block.Canonical → Quiet s.block pFtl → s.block.ftl.held = [] →
     (∀ x ∈ s.block.ftl.zones, x.log = true ∨ x.st = .sealed ∨ x.filled = false ∨ x.durable < x.tiles.length) →
     (∀ v : BitVec 32, Completes (.zlogRdWrite v) s (fun b => b.get pFtl 0x120 = v.toNat ∧
       OnlyRegs (pFtl.at 0x120 :: writeRegs) s.block b)) ∧
     (∀ v : BitVec 64,
       (s.block.locked = false → s.block.pageState pFtl = 0 ∨ s.block.get pFtl 0x110 = 0 → Completes (.zlogBaseWrite v) s (fun b =>
         b.reg (pFtl.at 0x110) = v &&& ~~~ 0x3F#64 ∧ OnlyRegs (pFtl.at 0x110 :: writeRegs) s.block b)) ∧
       (s.block.locked = false → s.block.pageState pFtl ≠ 0 → s.block.get pFtl 0x110 ≠ 0 → Completes (.zlogBaseWrite v) s (fun b =>
         b.fld pFtl 0x10 20 1 = 1 ∧ OnlyRegs (errRegs pFtl ++ writeRegs) s.block b)) ∧
       (s.block.locked = true → Completes (.zlogBaseWrite v) s (fun b => b.reg (pFtl.at 0x110) = s.block.reg (pFtl.at 0x110) ∧
         b.fld pGlb 0x10 6 1 = 1 ∧ b.sans = s.block.sans)))) ∧
   (∀ (s : State) (r : BlockRef), s.awake → s.block.Canonical → ∀ n, n = s.block.blockPages r →
     (s.block.mediaGoes = true → s.block.rebuilding r = false → s.block.moveServed r = true →
       (1000 * s.block.fld pFtl 0x124 0 16 ≤ s.block.readCount r → (s.block.zoneAt r).isSome = true →
         Completes (.flashRefresh r) s (fun b => b.readCount r = 0 ∧ r ∉ b.ftl.rewrites ∧
           b.reg (pFtl.at 0x40) = s.block.reg (pFtl.at 0x40) + BitVec.ofNat 64 n ∧
           b.reg (pFtl.at 0x48) = s.block.reg (pFtl.at 0x48) + 1 ∧ b.reg (pFtl.at 0x50) = s.block.reg (pFtl.at 0x50) + 1 ∧
           (∃ e ∈ b.ftl.erases, e.1 = r ∧ 0 < e.2) ∧ b.ftl.rows = s.block.ftl.rows ∧ b.moveServed r = false ∧
           b.reg ((pFlc r.lun.channel.val).at 0x58) = s.block.reg ((pFlc r.lun.channel.val).at 0x58) + BitVec.ofNat 64 (16384 * n) ∧
           b.sans = { s.block.sans with ftl := b.ftl, engines := b.engines })) ∧
       (r ∈ s.block.ftl.rewrites → Completes (.rewrite r) s (fun b => r ∉ b.ftl.rewrites ∧
         b.reg (pFtl.at 0x58) = s.block.reg (pFtl.at 0x58) + 1 ∧ b.reg (pFtl.at 0x48) = s.block.reg (pFtl.at 0x48) + 1 ∧
         b.ftl.rows = s.block.ftl.rows ∧ b.moveServed r = false ∧
         b.sans = { s.block.sans with ftl := b.ftl, engines := b.engines }))) ∧
     (s.block.moveServed r = false → exec (.flashRefresh r) s = .next s ∧ exec (.rewrite r) s = .next s) ∧
     (s.block.mediaGoes = false ∨ s.block.readCount r < 1000 * s.block.fld pFtl 0x124 0 16 →
       exec (.flashRefresh r) s = .next s) ∧
     (s.block.mediaGoes = false ∨ r ∉ s.block.ftl.rewrites → exec (.rewrite r) s = .next s) ∧
     (r ∉ s.block.ftl.retired → Completes (.blockRetire r) s (fun b => b.ftl.retired = s.block.ftl.retired ++ [r] ∧
       r ∉ b.ftl.rewrites ∧ b.reg (pFtl.at 0x60) = s.block.reg (pFtl.at 0x60) + 1 ∧
       (∀ p ∈ b.ftl.programs, p.lun = r.lun → p.page / 4096 = r.block → p.failed = false) ∧
       b.ftl.rows = s.block.ftl.rows ∧ b.cmds = s.block.cmds ∧ b.hostMem = s.block.hostMem)) ∧
     (r ∈ s.block.ftl.retired → exec (.blockRetire r) s = .next s)) ∧
   (∀ (s : State) (z : Nat), s.awake → s.block.Canonical → ∀ x, s.block.zone z = some x → x.log = true →
     (∀ y ∈ s.block.ftl.zones, y.number < s.block.ftl.nextZone) →
     (s.block.mediaWork = true → (∀ p ∈ s.block.ftl.programs, p.zone ≠ z) → Completes (.compaction z) s (fun b =>
       b.zone z = none ∧ (∀ r ∈ b.ftl.rows, r.zone ≠ z) ∧
       (∀ r ∈ s.block.ftl.rows, r.zone ≠ z → r ∈ b.ftl.rows) ∧
       (∀ r ∈ s.block.ftl.rows, r.zone = z → ∀ m ∈ r.members, ∀ w, m.what = some w → s.block.live w = true →
         { r with zone := s.block.ftl.nextZone } ∈ b.ftl.rows) ∧
       b.ftl.held = s.block.ftl.held ∧ b.cmds = s.block.cmds ∧ b.hostMem = s.block.hostMem)) ∧
     (s.block.mediaWork = false → exec (.compaction z) s = .next s)))

/-- A cartridge arrives, trains, is identified, and is used again, refused, or found FOREIGN and formatted. A cartridge
leaves: drained, by attention press or BAY_CMD, or removed without a drain; a channel that does not answer and an overcurrent
fail the bay; lost members are rebuilt. (Choices of the model in it: log 50, 52, 55, 137.) -/
def Obligations.CartridgesComeAndGo : Prop :=
  (∀ (s : State) (n : Fin 16), s.awake → s.block.Canonical → Quiet s.block (pBay n.val) → ∀ x, x = s.block.bay n.val →
     (x.st = 0 → Completes (.presentAsserted n) s (fun b => b.bay n.val = { x with st := 1, present := true, rail := true } ∧
       b.reg ((pBay n.val).at 0x40) = s.block.reg ((pBay n.val).at 0x40) + 1 ∧ b.fld (pBay n.val) 0x20 16 1 = 1 ∧
       (∀ c : Fin 64, c.val / 4 = n.val → b.fld (pFlc c.val) 0x20 16 1 = 1))) ∧
     (x.st ≠ 0 → exec (.presentAsserted n) s = .next s) ∧
     (x.st = 1 → Completes (.bayTrainingEnd n true) s (fun b => b.bay n.val = { x with st := 2 } ∧
         b.fld (pBay n.val) 0x20 16 1 = 1) ∧
       Completes (.bayTrainingEnd n false) s (fun b => b.bay n.val = { x with st := 8, rail := false } ∧
         b.fld (pBay n.val) 0x10 16 1 = 1 ∧ b.pageState (pBay n.val) = 4)) ∧
     (x.st ≠ 1 → ∀ t, exec (.bayTrainingEnd n t) s = .next s) ∧
     (∀ (r : Bytes) (ok : Bool),
       (x.st = 2 → recordOk r = false ∨ ok = false → Completes (.identifyEnd n r ok) s (fun b =>
         b.bay n.val = { x with st := 4, rail := false } ∧ b.fld (pBay n.val) 0x10 17 1 = 1)) ∧
       (x.st = 2 → recordOk r = true → ok = true → s.block.recordMatches n.val r = true →
         Completes (.identifyEnd n r ok) s (fun b => (b.bay n.val).st = 5 ∧ (b.bay n.val).serial = le r 8 8 ∧
           (b.bay n.val).gen = le r 0x28 4 ∧ b.pageState (pBay n.val) = 2 ∧
           (∀ c : Fin 64, c.val / 4 = n.val →
             (s.block.pageState (pFlc c.val) = 0 → pFlc c.val ∉ s.block.resetting → b.pageState (pFlc c.val) = 1) ∧
             (s.block.pageState (pFlc c.val) = 3 → b.pageState (pFlc c.val) = 2) ∧
             (s.block.pageState (pFlc c.val) = 4 → b.pageState (pFlc c.val) = 4)) ∧
           ∀ w ∈ b.ftl.rows, ∀ m ∈ w.members, m.bay = n.val → m.lost = false → m.now = n.val)) ∧
       (x.st = 2 → recordOk r = true → ok = true → s.block.recordMatches n.val r = false →
         Completes (.identifyEnd n r ok) s (fun b => (b.bay n.val).st = 3 ∧ (b.bay n.val).serial = le r 8 8 ∧
           (b.bay n.val).format = decide (s.block.fld pFtl 0x12C 16 1 = 1))) ∧
       (x.st ≠ 2 → exec (.identifyEnd n r ok) s = .next s)) ∧
     (x.st = 3 → x.format = true ∨ s.block.fld pFtl 0x12C 16 1 = 1 → Completes (.formatEnd n) s (fun b => (b.bay n.val).st = 5 ∧
       (b.bay n.val).gen = s.block.ftl.gen + 1 ∧ (b.bay n.val).bound = s.block.sled.serial.toNat ∧ n.val ∈ b.ftl.entries ∧
       b.ftl.gen = s.block.ftl.gen + 1 ∧ (∀ w ∈ b.ftl.rows, ∀ m ∈ w.members, m.now = n.val → m.lost = true) ∧
       b.reg ((pBay n.val).at 0x78) = s.block.reg ((pBay n.val).at 0x78) + 1)) ∧
     (x.st ≠ 3 ∨ (x.format = false ∧ s.block.fld pFtl 0x12C 16 1 = 0) → exec (.formatEnd n) s = .next s)) ∧
  ((∀ (s : State) (n : Fin 16), s.awake → s.block.Canonical → Quiet s.block (pBay n.val) → ∀ x, x = s.block.bay n.val →
     ∀ e, e = n.val →
     (∀ i ∈ [Instr.attentionPress n, .bayCmdDrain n], x.st = 5 → s.block.reachable = true →
       (s.block.drainRefused e = true → Completes i s (fun b => b.bay e = { x with refused := some s.block.meter } ∧
         b.fld (pBay e) 0x10 19 1 = 1 ∧ b.reg ((pBay e).at 0x58) = s.block.reg ((pBay e).at 0x58) + 1)) ∧
       (s.block.drainRefused e = false → Completes i s (fun b => b.bay e = { x with st := 6 } ∧ b.pageState (pBay e) = 3 ∧
         ∀ c : Fin 64, c.val / 4 = e → s.block.pageState (pFlc c.val) = 2 → b.pageState (pFlc c.val) = 3))) ∧
     (∀ i ∈ [Instr.attentionPress n, .bayCmdCancel n], x.st = 6 → s.block.reachable = true → Completes i s (fun b =>
       b.bay e = { x with st := 5 } ∧ b.pageState (pBay e) = 2 ∧
       ∀ c : Fin 64, c.val / 4 = e → (s.block.pageState (pFlc c.val) = 3 → b.pageState (pFlc c.val) = 2) ∧
         (s.block.pageState (pFlc c.val) = 0 → pFlc c.val ∉ s.block.resetting → b.pageState (pFlc c.val) = 1))) ∧
     (x.st = 7 → Completes (.attentionPress n) s (fun b => b.bay e = { x with st := 1, rail := true } ∧
       b.fld (pBay e) 0x20 17 1 = 1)) ∧
     (x.st ∉ [5, 6, 7] → Completes (.attentionPress n) s (fun b => b.fld (pBay e) 0x20 17 1 = 1 ∧
       OnlyRegs (intRegs (pBay e)) s.block b)) ∧
     (s.block.reachable = true → (x.st = 3 → Completes (.bayCmdAdmit n) s (fun b => b.bay e = { x with format := true } ∧
         b.sans = { s.block.sans with bays := b.bays } ∧ RegsBut writeRegs s.block b)) ∧
       (x.st ≠ 3 → Completes (.bayCmdAdmit n) s (OnlyRegs writeRegs s.block)) ∧
       (x.st ≠ 5 → Completes (.bayCmdDrain n) s (OnlyRegs writeRegs s.block)) ∧
       (x.st ≠ 6 → Completes (.bayCmdCancel n) s (OnlyRegs writeRegs s.block))) ∧
     (x.st = 6 → (∀ c : Fin 64, c.val / 4 = e → s.block.pageState (pFlc c.val) = 0) →
       (∀ p ∈ s.block.ftl.programs, p.lun.channel.val / 4 ≠ e) → Completes (.bayDrainEnd n) s (fun b =>
         b.bay e = { x with st := 7, rail := false } ∧ b.reg ((pBay e).at 0x48) = s.block.reg ((pBay e).at 0x48) + 1)) ∧
     (x.st ≠ 6 → exec (.bayDrainEnd n) s = .next s) ∧
     (x.st = 0 → exec (.presentDeasserted n) s = .next s) ∧
     (x.st ≠ 0 → Completes (.presentDeasserted n) s (fun b => (b.bay e).st = 0 ∧ (b.bay e).present = false ∧
       (b.bay e).rail = false ∧ (b.bay e).serial = 0 ∧ b.pageState (pBay e) = 0 ∧
       (x.st ∈ [1, 2, 5, 6] → b.fld (pBay e) 0x10 18 1 = 1 ∧
         b.reg ((pBay e).at 0x50) = s.block.reg ((pBay e).at 0x50) + 1))) ∧
     (∀ c : Fin 64, c.val / 4 = e →
       (x.st = 5 ∨ x.st = 6 → Completes (.channelUnresponsive c) s (fun b => b.bay e = { x with st := 8, rail := false } ∧
         b.pageState (pBay e) = 4)) ∧
       (x.st ≠ 5 → x.st ≠ 6 → exec (.channelUnresponsive c) s = .next s)) ∧
     (x.rail = true → Completes (.railOvercurrent n) s (fun b => b.bay e = { x with st := 8, rail := false } ∧
       b.pageState (pBay e) = 4)) ∧
     (x.rail = false → exec (.railOvercurrent n) s = .next s)) ∧
   (∀ (s : State) (n : Fin 16), s.awake → s.block.Canonical → ∀ x, x = s.block.bay n.val →
     (s.block.ftl.rebuild = none → s.block.mediaWork = true → ∀ marks, marks = (List.range 64).map (fun c => (pFlc c).at 0x120) →
       (s.block.holdsMembers n.val = true → x.st = 8 ∨ (∃ t, x.emptyAt = some t ∧ x.st = 0 ∧
           t + 100000000 * s.block.fld pFtl 0x12C 0 16 ≤ s.block.meter) → Completes (.bayRebuildStart n) s (fun b =>
         b.ftl = { s.block.ftl with rebuild := some (n.val, false) } ∧ RegsBut marks s.block b ∧
         (∀ c : Fin 64, s.block.engineUp c.val = true → ∃ i ∈ (b.engine c.val).slow ++ (b.engine c.val).kept, i.work = .rebuild) ∧
         b.sans = { s.block.sans with ftl := b.ftl, engines := b.engines })) ∧
       (x.st = 5 → x.fresh = true → Completes (.bayRebuildStart n) s (fun b =>
         b.ftl = { s.block.ftl with rebuild := some (n.val, true) } ∧ RegsBut marks s.block b ∧
         (∀ c : Fin 64, s.block.engineUp c.val = true → ∃ i ∈ (b.engine c.val).slow ++ (b.engine c.val).kept, i.work = .rebuild)))) ∧
     (s.block.ftl.rebuild.isSome = true ∨ s.block.mediaWork = false → exec (.bayRebuildStart n) s = .next s) ∧
     ((∃ e ∈ s.block.engines, ∃ i ∈ e.2.slow ++ e.2.kept, i.work = .rebuild ∧ i.served = false) →
       exec (.bayRebuildEnd n) s = .next s) ∧
     ((∀ e ∈ s.block.engines, ∀ i ∈ e.2.slow ++ e.2.kept, i.work = .rebuild → i.served = true) →
      (s.block.ftl.rebuild = some (n.val, false) → Completes (.bayRebuildEnd n) s (fun b => b.ftl.rebuild = none ∧
       b.fld pFtl 0x20 17 1 = 1 ∧ (b.bay n.val).fresh = false ∧
       (∀ r ∈ s.block.ftl.rows, (s.block.lostMembers r).length ≤ 2 → ∃ y ∈ b.ftl.rows, y.zone = r.zone ∧ y.row = r.row ∧
         y.members.map (·.data) = r.members.map (·.data) ∧
         ∀ m ∈ r.members, m.now = n.val → m ∈ s.block.lostMembers r →
           { m with now := spareBay n.val r.row, lost := false } ∈ y.members) ∧
       (∀ e ∈ b.engines, ∀ i ∈ e.2.slow ++ e.2.kept, i.work ≠ .rebuild) ∧ b.cmds = s.block.cmds ∧
       b.hostMem = s.block.hostMem)) ∧
     (s.block.ftl.rebuild = some (n.val, true) → Completes (.bayRebuildEnd n) s (fun b => b.ftl.rebuild = none ∧
       b.fld pFtl 0x20 17 1 = 1 ∧ (b.bay n.val).fresh = false ∧ (b.bay n.val).emptyAt = none ∧
       (∀ y ∈ b.ftl.rows, ∀ m ∈ y.members, m.bay = n.val → m.now = n.val) ∧
       (∀ r ∈ s.block.ftl.rows, (s.block.lostMembers r).length ≤ 2 → ∃ y ∈ b.ftl.rows, y.zone = r.zone ∧ y.row = r.row ∧
         ∀ m ∈ y.members, m.bay = n.val → m.lost = false) ∧ b.cmds = s.block.cmds ∧ b.hostMem = s.block.hostMem)))))
end

