-- ==== Sys2Proof/Laws/Inject.lean ====
section
/-! SUPPORT. What an injected error can do to an operation: nothing where none that it carries is armed, and otherwise what
the carried error says, once (R39). -/

namespace Sys2Proof.Machine

/-- A page with no error armed carries none. -/
theorem Block.armed_eq_false {b : Block} {p : PageRef} (h : Quiet b p) (n : Nat) : b.armed p n = false := by
  unfold Block.armed Quiet at *
  rw [h]
  exact BitVec.getLsbD_zero

/-- An operation is itself where none of the errors that it can carry is armed. -/
theorem State.carrying_quiet {s : State} {l : List Carried} {run : State → Result}
    (h : ∀ c ∈ l, Quiet s.block c.page) : s.carrying l run = run s := by
  have hn : l.find? (fun c => s.block.armed c.page c.bit) = none := by
    rw [List.find?_eq_none]
    intro c hc
    simp [Block.armed_eq_false (h c hc)]
  simp [State.carrying, hn]

/-- All that an operation can do: its own effect, or what an armed error that it carries makes of it. -/
theorem State.carrying_cases (s : State) (l : List Carried) (run : State → Result) :
    s.carrying l run = run s ∨
      ∃ c ∈ l, s.block.armed c.page c.bit = true ∧ s.carrying l run = c.act (s.disarm c) := by
  unfold State.carrying
  cases hf : l.find? (fun c => s.block.armed c.page c.bit) with
  | none => exact .inl rfl
  | some c => exact .inr ⟨c, List.mem_of_find?_eq_some hf, by simpa using List.find?_some hf, rfl⟩

end Sys2Proof.Machine
end

