-- ==== Sys2Proof/Laws/Sparse.lean ====
section
/-! SUPPORT. Laws of sparse arrays and byte memories: every write keeps the canonical form, a read after a write of the
same key gives the value written, and a write leaves every other key alone. -/

namespace Sys2Proof.Machine

variable {α : Type}

theorem swf_cons [DecidableEq α] {d v : α} {k : Nat} {l : Sparse α} :
    swf d ((k, v) :: l) = true ↔ v ≠ d ∧ sabove k l = true ∧ swf d l = true := by
  simp [swf, and_assoc]

theorem sabove_cons {k n : Nat} {v : α} {l : Sparse α} :
    sabove n ((k, v) :: l) = true ↔ n < k ∧ sabove n l = true := by
  simp [sabove]

theorem sabove_iff {n : Nat} {l : Sparse α} : sabove n l = true ↔ ∀ e ∈ l, n < e.1 := by
  simp [sabove]

theorem sabove_weaken {m n : Nat} {l : Sparse α} (h : m ≤ n) (hl : sabove n l = true) : sabove m l = true := by
  rw [sabove_iff] at hl ⊢
  exact fun e he => Nat.lt_of_le_of_lt h (hl e he)

/-- A key below every listed key reads as the default. -/
theorem sget_below {d : α} {l : Sparse α} {i : Nat} (h : sabove i l = true) : sget d l i = d := by
  induction l with
  | nil => rfl
  | cons e l ih =>
    obtain ⟨k, v⟩ := e
    rw [sabove_iff] at h
    have hk : i < k := h (k, v) (by simp)
    have : ¬ i = k := by omega
    simp only [sget, this, if_false]
    exact ih (sabove_iff.2 fun e he => h e (List.mem_cons_of_mem _ he))

theorem sabove_sinsert {n i : Nat} {x : α} {l : Sparse α} (hn : n < i) (h : sabove n l = true) :
    sabove n (sinsert i x l) = true := by
  induction l with
  | nil => simp [sinsert, sabove, hn]
  | cons e l ih =>
    obtain ⟨k, v⟩ := e
    rw [sabove_cons] at h
    simp only [sinsert]
    split
    · exact sabove_cons.2 ⟨hn, sabove_cons.2 h⟩
    · split
      · exact sabove_cons.2 ⟨hn, h.2⟩
      · rw [sabove_cons]; exact ⟨h.1, ih h.2⟩

theorem sabove_serase {n i : Nat} {l : Sparse α} (h : sabove n l = true) : sabove n (serase i l) = true := by
  induction l with
  | nil => rfl
  | cons e l ih =>
    obtain ⟨k, v⟩ := e
    rw [sabove_cons] at h
    simp only [serase]
    split
    · exact h.2
    · rw [sabove_cons]; exact ⟨h.1, ih h.2⟩

theorem sinsert_swf [DecidableEq α] {d x : α} {i : Nat} {l : Sparse α} (hx : x ≠ d) (h : swf d l = true) :
    swf d (sinsert i x l) = true := by
  induction l with
  | nil => simp [sinsert, swf, sabove, hx]
  | cons e l ih =>
    obtain ⟨k, v⟩ := e
    rw [swf_cons] at h
    obtain ⟨hv, ha, hl⟩ := h
    simp only [sinsert]
    split
    · rename_i hik
      rw [swf_cons, swf_cons]
      exact ⟨hx, sabove_cons.2 ⟨hik, sabove_weaken (by omega) ha⟩, hv, ha, hl⟩
    · split
      · rename_i hik
        subst hik
        rw [swf_cons]; exact ⟨hx, ha, hl⟩
      · rw [swf_cons]
        exact ⟨hv, sabove_sinsert (by omega) ha, ih hl⟩

theorem serase_swf [DecidableEq α] {d : α} {i : Nat} {l : Sparse α} (h : swf d l = true) : swf d (serase i l) = true := by
  induction l with
  | nil => rfl
  | cons e l ih =>
    obtain ⟨k, v⟩ := e
    rw [swf_cons] at h
    simp only [serase]
    split
    · exact h.2.2
    · rw [swf_cons]; exact ⟨h.1, sabove_serase h.2.1, ih h.2.2⟩

/-- A write keeps the canonical form. -/
theorem sset_swf [DecidableEq α] {d x : α} {i : Nat} {l : Sparse α} (h : swf d l = true) : swf d (sset d l i x) = true := by
  unfold sset
  split
  · exact serase_swf h
  · exact sinsert_swf ‹_› h

theorem sget_sinsert_same {d x : α} {i : Nat} {l : Sparse α} : sget d (sinsert i x l) i = x := by
  induction l with
  | nil => simp [sinsert, sget]
  | cons e l ih =>
    obtain ⟨k, v⟩ := e
    simp only [sinsert]
    split
    · simp [sget]
    · split
      · simp [sget]
      · simp only [sget]; rw [if_neg ‹_›]; exact ih

theorem sget_sinsert_other {d x : α} {i j : Nat} {l : Sparse α} (h : j ≠ i) : sget d (sinsert i x l) j = sget d l j := by
  induction l with
  | nil => simp [sinsert, sget, h]
  | cons e l ih =>
    obtain ⟨k, v⟩ := e
    simp only [sinsert]
    split
    · simp [sget, h]
    · split
      · rename_i hik; subst hik; simp [sget, h]
      · simp only [sget]; rw [ih]

theorem sget_serase_same [DecidableEq α] {d : α} {i : Nat} {l : Sparse α} (h : swf d l = true) : sget d (serase i l) i = d := by
  induction l with
  | nil => rfl
  | cons e l ih =>
    obtain ⟨k, v⟩ := e
    rw [swf_cons] at h
    simp only [serase]
    split
    · rename_i hik; subst hik; exact sget_below h.2.1
    · simp only [sget]; rw [if_neg ‹_›]; exact ih h.2.2

theorem sget_serase_other {d : α} {i j : Nat} {l : Sparse α} (h : j ≠ i) : sget d (serase i l) j = sget d l j := by
  induction l with
  | nil => rfl
  | cons e l ih =>
    obtain ⟨k, v⟩ := e
    simp only [serase]
    split
    · rename_i hik; subst hik; simp [sget, h]
    · simp only [sget]; rw [ih]

/-- A read after a write of the same key. -/
theorem sget_sset_same [DecidableEq α] {d x : α} {i : Nat} {l : Sparse α} (h : swf d l = true) : sget d (sset d l i x) i = x := by
  unfold sset
  split
  · rename_i hx; subst hx; exact sget_serase_same h
  · exact sget_sinsert_same

/-- A write leaves every other key alone. -/
theorem sget_sset_other [DecidableEq α] {d x : α} {i j : Nat} {l : Sparse α} (h : j ≠ i) : sget d (sset d l i x) j = sget d l j := by
  unfold sset
  split
  · exact sget_serase_other h
  · exact sget_sinsert_other h

/-! ## Arrays whose default depends on the key -/

theorem swfBy_cons [DecidableEq α] {d : Nat → α} {v : α} {k : Nat} {l : Sparse α} :
    swfBy d ((k, v) :: l) = true ↔ v ≠ d k ∧ sabove k l = true ∧ swfBy d l = true := by
  simp [swfBy, and_assoc]

theorem sinsert_swfBy [DecidableEq α] {d : Nat → α} {x : α} {i : Nat} {l : Sparse α} (hx : x ≠ d i) (h : swfBy d l = true) :
    swfBy d (sinsert i x l) = true := by
  induction l with
  | nil => simp [sinsert, swfBy, sabove, hx]
  | cons e l ih =>
    obtain ⟨k, v⟩ := e
    rw [swfBy_cons] at h
    obtain ⟨hv, ha, hl⟩ := h
    simp only [sinsert]
    split
    · rename_i hik
      rw [swfBy_cons, swfBy_cons]
      exact ⟨hx, sabove_cons.2 ⟨hik, sabove_weaken (by omega) ha⟩, hv, ha, hl⟩
    · split
      · rename_i hik
        subst hik
        rw [swfBy_cons]; exact ⟨hx, ha, hl⟩
      · rw [swfBy_cons]
        exact ⟨hv, sabove_sinsert (by omega) ha, ih hl⟩

theorem serase_swfBy [DecidableEq α] {d : Nat → α} {i : Nat} {l : Sparse α} (h : swfBy d l = true) :
    swfBy d (serase i l) = true := by
  induction l with
  | nil => rfl
  | cons e l ih =>
    obtain ⟨k, v⟩ := e
    rw [swfBy_cons] at h
    simp only [serase]
    split
    · exact h.2.2
    · rw [swfBy_cons]; exact ⟨h.1, sabove_serase h.2.1, ih h.2.2⟩

/-- A write of the register file keeps its canonical form. -/
theorem sset_swfBy [DecidableEq α] {d : Nat → α} {x : α} {i : Nat} {l : Sparse α} (h : swfBy d l = true) :
    swfBy d (sset (d i) l i x) = true := by
  unfold sset
  split
  · exact serase_swfBy h
  · exact sinsert_swfBy ‹_› h

theorem sget_serase_by [DecidableEq α] {d : Nat → α} {i : Nat} {l : Sparse α} (h : swfBy d l = true) :
    sget (d i) (serase i l) i = d i := by
  induction l with
  | nil => rfl
  | cons e l ih =>
    obtain ⟨k, v⟩ := e
    rw [swfBy_cons] at h
    simp only [serase]
    split
    · rename_i hik; subst hik; exact sget_below h.2.1
    · simp only [sget]; rw [if_neg ‹_›]; exact ih h.2.2

theorem sget_sset_by [DecidableEq α] {d : Nat → α} {x : α} {i : Nat} {l : Sparse α} (h : swfBy d l = true) :
    sget (d i) (sset (d i) l i x) i = x := by
  unfold sset
  split
  · rename_i hx; subst hx; exact sget_serase_by h
  · exact sget_sinsert_same

/-- What lies at a key is not changed by a write at another, whatever defaults the two have. -/
theorem sget_sset_by_other [DecidableEq α] {d e x : α} {i j : Nat} {l : Sparse α} (h : j ≠ i) :
    sget e (sset d l i x) j = sget e l j := by
  unfold sset
  split
  · exact sget_serase_other h
  · exact sget_sinsert_other h

/-! ## Byte memories -/

theorem Memory.setByte_wf {m : Memory} {a : Nat} {x : BitVec 8} (h : m.wf = true) : (m.setByte a x).wf = true := sset_swf h

theorem Memory.write_wf {m : Memory} {a : Nat} {bs : Bytes} (h : m.wf = true) : (Memory.write m a bs).wf = true := by
  induction bs generalizing m a with
  | nil => exact h
  | cons x xs ih => exact ih (Memory.setByte_wf h)

/-- A write of bytes leaves every address outside them alone. -/
theorem Memory.byte_write_other {m : Memory} {a j : Nat} {bs : Bytes} (h : j < a ∨ a + bs.length ≤ j) :
    (Memory.write m a bs).byte j = m.byte j := by
  induction bs generalizing m a with
  | nil => rfl
  | cons x xs ih =>
    simp only [List.length_cons] at h
    simp only [Memory.write]
    rw [ih (by omega)]
    exact sget_sset_other (by omega)

/-- A byte of what a write of bytes leaves. -/
theorem Memory.byte_write_in {m : Memory} {a i : Nat} {bs : Bytes} (hw : m.wf = true) (h : i < bs.length) :
    (Memory.write m a bs).byte (a + i) = bs[i] := by
  induction bs generalizing m a i with
  | nil => simp at h
  | cons x xs ih =>
    simp only [Memory.write]
    cases i with
    | zero =>
      rw [Nat.add_zero, Memory.byte_write_other (by omega)]
      exact sget_sset_same hw
    | succ i =>
      have := ih (m := m.setByte a x) (a := a + 1) (i := i) (Memory.setByte_wf hw) (by simpa using h)
      simpa [Nat.add_assoc, Nat.add_comm 1 i] using this

end Sys2Proof.Machine
end

