-- ==== Sys2Proof/Laws/State.lean ====
section
/-! SUPPORT. What the shared operations leave unchanged, one lemma per field and operation, so that no later proof unfolds a
record update; and what State.on and its kin do to the queue. -/

namespace Sys2Proof.Machine

/-! ## Block.setReg changes the register file alone -/

@[simp] theorem Block.setReg_meter (b : Block) (a : Nat) (v : BitVec 64) : (b.setReg a v).meter = b.meter := rfl
@[simp] theorem Block.setReg_stage (b : Block) (a : Nat) (v : BitVec 64) : (b.setReg a v).stage = b.stage := rfl
@[simp] theorem Block.setReg_resetKind (b : Block) (a : Nat) (v : BitVec 64) : (b.setReg a v).resetKind = b.resetKind := rfl
@[simp] theorem Block.setReg_bivouac (b : Block) (a : Nat) (v : BitVec 64) : (b.setReg a v).bivouac = b.bivouac := rfl
@[simp] theorem Block.setReg_fatal (b : Block) (a : Nat) (v : BitVec 64) : (b.setReg a v).fatal = b.fatal := rfl
@[simp] theorem Block.setReg_stuck (b : Block) (a : Nat) (v : BitVec 64) : (b.setReg a v).stuck = b.stuck := rfl
@[simp] theorem Block.setReg_kept (b : Block) (a : Nat) (v : BitVec 64) : (b.setReg a v).kept = b.kept := rfl
@[simp] theorem Block.setReg_sled (b : Block) (a : Nat) (v : BitVec 64) : (b.setReg a v).sled = b.sled := rfl
@[simp] theorem Block.setReg_latches (b : Block) (a : Nat) (v : BitVec 64) : (b.setReg a v).latches = b.latches := rfl
@[simp] theorem Block.setReg_injected (b : Block) (a : Nat) (v : BitVec 64) : (b.setReg a v).injected = b.injected := rfl
@[simp] theorem Block.setReg_resetting (b : Block) (a : Nat) (v : BitVec 64) : (b.setReg a v).resetting = b.resetting := rfl
@[simp] theorem Block.setReg_hostMem (b : Block) (a : Nat) (v : BitVec 64) : (b.setReg a v).hostMem = b.hostMem := rfl
@[simp] theorem Block.setReg_ports (b : Block) (a : Nat) (v : BitVec 64) : (b.setReg a v).ports = b.ports := rfl
@[simp] theorem Block.setReg_proxies (b : Block) (a : Nat) (v : BitVec 64) : (b.setReg a v).proxies = b.proxies := rfl
@[simp] theorem Block.setReg_cmds (b : Block) (a : Nat) (v : BitVec 64) : (b.setReg a v).cmds = b.cmds := rfl
@[simp] theorem Block.setReg_nextCmd (b : Block) (a : Nat) (v : BitVec 64) : (b.setReg a v).nextCmd = b.nextCmd := rfl
@[simp] theorem Block.setReg_governor (b : Block) (a : Nat) (v : BitVec 64) : (b.setReg a v).governor = b.governor := rfl
@[simp] theorem Block.setReg_trf (b : Block) (a : Nat) (v : BitVec 64) : (b.setReg a v).trf = b.trf := rfl
@[simp] theorem Block.setReg_egress (b : Block) (a : Nat) (v : BitVec 64) : (b.setReg a v).egress = b.egress := rfl
@[simp] theorem Block.setReg_sessions (b : Block) (a : Nat) (v : BitVec 64) : (b.setReg a v).sessions = b.sessions := rfl
@[simp] theorem Block.setReg_indexes (b : Block) (a : Nat) (v : BitVec 64) : (b.setReg a v).indexes = b.indexes := rfl
@[simp] theorem Block.setReg_shardMap (b : Block) (a : Nat) (v : BitVec 64) : (b.setReg a v).shardMap = b.shardMap := rfl
@[simp] theorem Block.setReg_switching (b : Block) (a : Nat) (v : BitVec 64) : (b.setReg a v).switching = b.switching := rfl
@[simp] theorem Block.setReg_updates (b : Block) (a : Nat) (v : BitVec 64) : (b.setReg a v).updates = b.updates := rfl
@[simp] theorem Block.setReg_qpl (b : Block) (a : Nat) (v : BitVec 64) : (b.setReg a v).qpl = b.qpl := rfl
@[simp] theorem Block.setReg_dramParts (b : Block) (a : Nat) (v : BitVec 64) : (b.setReg a v).dramParts = b.dramParts := rfl
@[simp] theorem Block.setReg_dramTiles (b : Block) (a : Nat) (v : BitVec 64) : (b.setReg a v).dramTiles = b.dramTiles := rfl
@[simp] theorem Block.setReg_stackSet (b : Block) (a : Nat) (v : BitVec 64) : (b.setReg a v).stackSet = b.stackSet := rfl
@[simp] theorem Block.setReg_engines (b : Block) (a : Nat) (v : BitVec 64) : (b.setReg a v).engines = b.engines := rfl
@[simp] theorem Block.setReg_ops (b : Block) (a : Nat) (v : BitVec 64) : (b.setReg a v).ops = b.ops := rfl
@[simp] theorem Block.setReg_topks (b : Block) (a : Nat) (v : BitVec 64) : (b.setReg a v).topks = b.topks := rfl
@[simp] theorem Block.setReg_ftl (b : Block) (a : Nat) (v : BitVec 64) : (b.setReg a v).ftl = b.ftl := rfl
@[simp] theorem Block.setReg_bays (b : Block) (a : Nat) (v : BitVec 64) : (b.setReg a v).bays = b.bays := rfl
@[simp] theorem Block.setReg_regions (b : Block) (a : Nat) (v : BitVec 64) : (b.setReg a v).regions = b.regions := rfl
@[simp] theorem Block.setReg_nextLease (b : Block) (a : Nat) (v : BitVec 64) : (b.setReg a v).nextLease = b.nextLease := rfl
@[simp] theorem Block.setReg_publishes (b : Block) (a : Nat) (v : BitVec 64) : (b.setReg a v).publishes = b.publishes := rfl
@[simp] theorem Block.setReg_layers (b : Block) (a : Nat) (v : BitVec 64) : (b.setReg a v).layers = b.layers := rfl
@[simp] theorem Block.setReg_pushes (b : Block) (a : Nat) (v : BitVec 64) : (b.setReg a v).pushes = b.pushes := rfl
@[simp] theorem Block.setReg_discards (b : Block) (a : Nat) (v : BitVec 64) : (b.setReg a v).discards = b.discards := rfl
@[simp] theorem Block.setReg_cache (b : Block) (a : Nat) (v : BitVec 64) : (b.setReg a v).cache = b.cache := rfl
@[simp] theorem Block.setReg_roles (b : Block) (a : Nat) (v : BitVec 64) : (b.setReg a v).roles = b.roles := rfl
@[simp] theorem Block.setReg_tables (b : Block) (a : Nat) (v : BitVec 64) : (b.setReg a v).tables = b.tables := rfl
@[simp] theorem Block.setReg_gathers (b : Block) (a : Nat) (v : BitVec 64) : (b.setReg a v).gathers = b.gathers := rfl
@[simp] theorem Block.setReg_scatters (b : Block) (a : Nat) (v : BitVec 64) : (b.setReg a v).scatters = b.scatters := rfl
@[simp] theorem Block.setReg_tblSwitches (b : Block) (a : Nat) (v : BitVec 64) : (b.setReg a v).tblSwitches = b.tblSwitches := rfl
@[simp] theorem Block.setReg_seqs (b : Block) (a : Nat) (v : BitVec 64) : (b.setReg a v).seqs = b.seqs := rfl
@[simp] theorem Block.setReg_plc (b : Block) (a : Nat) (v : BitVec 64) : (b.setReg a v).plc = b.plc := rfl
@[simp] theorem Block.setReg_rope (b : Block) (a : Nat) (v : BitVec 64) : (b.setReg a v).rope = b.rope := rfl
@[simp] theorem Block.setReg_links (b : Block) (a : Nat) (v : BitVec 64) : (b.setReg a v).links = b.links := rfl
@[simp] theorem Block.setReg_transport (b : Block) (a : Nat) (v : BitVec 64) : (b.setReg a v).transport = b.transport := rfl
@[simp] theorem Block.setReg_health (b : Block) (a : Nat) (v : BitVec 64) : (b.setReg a v).health = b.health := rfl
@[simp] theorem Block.setReg_cores (b : Block) (a : Nat) (v : BitVec 64) : (b.setReg a v).cores = b.cores := rfl
@[simp] theorem Block.setReg_sec (b : Block) (a : Nat) (v : BitVec 64) : (b.setReg a v).sec = b.sec := rfl
@[simp] theorem Block.setReg_tap (b : Block) (a : Nat) (v : BitVec 64) : (b.setReg a v).tap = b.tap := rfl
@[simp] theorem Block.setReg_nextId (b : Block) (a : Nat) (v : BitVec 64) : (b.setReg a v).nextId = b.nextId := rfl
@[simp] theorem Block.setReg_free (b : Block) (a : Nat) (v : BitVec 64) : (b.setReg a v).free = b.free := rfl
@[simp] theorem Block.setReg_out (b : Block) (a : Nat) (v : BitVec 64) : (b.setReg a v).out = b.out := rfl

/-! ## Block.setFld changes the register file alone -/

@[simp] theorem Block.setFld_meter (b : Block) (p : PageRef) (off lo w n : Nat) : (b.setFld p off lo w n).meter = b.meter := b.setReg_meter (p.at off) (setBits (b.reg (p.at off)) lo w n)
@[simp] theorem Block.setFld_stage (b : Block) (p : PageRef) (off lo w n : Nat) : (b.setFld p off lo w n).stage = b.stage := b.setReg_stage (p.at off) (setBits (b.reg (p.at off)) lo w n)
@[simp] theorem Block.setFld_resetKind (b : Block) (p : PageRef) (off lo w n : Nat) : (b.setFld p off lo w n).resetKind = b.resetKind := b.setReg_resetKind (p.at off) (setBits (b.reg (p.at off)) lo w n)
@[simp] theorem Block.setFld_bivouac (b : Block) (p : PageRef) (off lo w n : Nat) : (b.setFld p off lo w n).bivouac = b.bivouac := b.setReg_bivouac (p.at off) (setBits (b.reg (p.at off)) lo w n)
@[simp] theorem Block.setFld_fatal (b : Block) (p : PageRef) (off lo w n : Nat) : (b.setFld p off lo w n).fatal = b.fatal := b.setReg_fatal (p.at off) (setBits (b.reg (p.at off)) lo w n)
@[simp] theorem Block.setFld_stuck (b : Block) (p : PageRef) (off lo w n : Nat) : (b.setFld p off lo w n).stuck = b.stuck := b.setReg_stuck (p.at off) (setBits (b.reg (p.at off)) lo w n)
@[simp] theorem Block.setFld_kept (b : Block) (p : PageRef) (off lo w n : Nat) : (b.setFld p off lo w n).kept = b.kept := b.setReg_kept (p.at off) (setBits (b.reg (p.at off)) lo w n)
@[simp] theorem Block.setFld_sled (b : Block) (p : PageRef) (off lo w n : Nat) : (b.setFld p off lo w n).sled = b.sled := b.setReg_sled (p.at off) (setBits (b.reg (p.at off)) lo w n)
@[simp] theorem Block.setFld_latches (b : Block) (p : PageRef) (off lo w n : Nat) : (b.setFld p off lo w n).latches = b.latches := b.setReg_latches (p.at off) (setBits (b.reg (p.at off)) lo w n)
@[simp] theorem Block.setFld_injected (b : Block) (p : PageRef) (off lo w n : Nat) : (b.setFld p off lo w n).injected = b.injected := b.setReg_injected (p.at off) (setBits (b.reg (p.at off)) lo w n)
@[simp] theorem Block.setFld_resetting (b : Block) (p : PageRef) (off lo w n : Nat) : (b.setFld p off lo w n).resetting = b.resetting := b.setReg_resetting (p.at off) (setBits (b.reg (p.at off)) lo w n)
@[simp] theorem Block.setFld_hostMem (b : Block) (p : PageRef) (off lo w n : Nat) : (b.setFld p off lo w n).hostMem = b.hostMem := b.setReg_hostMem (p.at off) (setBits (b.reg (p.at off)) lo w n)
@[simp] theorem Block.setFld_ports (b : Block) (p : PageRef) (off lo w n : Nat) : (b.setFld p off lo w n).ports = b.ports := b.setReg_ports (p.at off) (setBits (b.reg (p.at off)) lo w n)
@[simp] theorem Block.setFld_proxies (b : Block) (p : PageRef) (off lo w n : Nat) : (b.setFld p off lo w n).proxies = b.proxies := b.setReg_proxies (p.at off) (setBits (b.reg (p.at off)) lo w n)
@[simp] theorem Block.setFld_cmds (b : Block) (p : PageRef) (off lo w n : Nat) : (b.setFld p off lo w n).cmds = b.cmds := b.setReg_cmds (p.at off) (setBits (b.reg (p.at off)) lo w n)
@[simp] theorem Block.setFld_nextCmd (b : Block) (p : PageRef) (off lo w n : Nat) : (b.setFld p off lo w n).nextCmd = b.nextCmd := b.setReg_nextCmd (p.at off) (setBits (b.reg (p.at off)) lo w n)
@[simp] theorem Block.setFld_governor (b : Block) (p : PageRef) (off lo w n : Nat) : (b.setFld p off lo w n).governor = b.governor := b.setReg_governor (p.at off) (setBits (b.reg (p.at off)) lo w n)
@[simp] theorem Block.setFld_trf (b : Block) (p : PageRef) (off lo w n : Nat) : (b.setFld p off lo w n).trf = b.trf := b.setReg_trf (p.at off) (setBits (b.reg (p.at off)) lo w n)
@[simp] theorem Block.setFld_egress (b : Block) (p : PageRef) (off lo w n : Nat) : (b.setFld p off lo w n).egress = b.egress := b.setReg_egress (p.at off) (setBits (b.reg (p.at off)) lo w n)
@[simp] theorem Block.setFld_sessions (b : Block) (p : PageRef) (off lo w n : Nat) : (b.setFld p off lo w n).sessions = b.sessions := b.setReg_sessions (p.at off) (setBits (b.reg (p.at off)) lo w n)
@[simp] theorem Block.setFld_indexes (b : Block) (p : PageRef) (off lo w n : Nat) : (b.setFld p off lo w n).indexes = b.indexes := b.setReg_indexes (p.at off) (setBits (b.reg (p.at off)) lo w n)
@[simp] theorem Block.setFld_shardMap (b : Block) (p : PageRef) (off lo w n : Nat) : (b.setFld p off lo w n).shardMap = b.shardMap := b.setReg_shardMap (p.at off) (setBits (b.reg (p.at off)) lo w n)
@[simp] theorem Block.setFld_switching (b : Block) (p : PageRef) (off lo w n : Nat) : (b.setFld p off lo w n).switching = b.switching := b.setReg_switching (p.at off) (setBits (b.reg (p.at off)) lo w n)
@[simp] theorem Block.setFld_updates (b : Block) (p : PageRef) (off lo w n : Nat) : (b.setFld p off lo w n).updates = b.updates := b.setReg_updates (p.at off) (setBits (b.reg (p.at off)) lo w n)
@[simp] theorem Block.setFld_qpl (b : Block) (p : PageRef) (off lo w n : Nat) : (b.setFld p off lo w n).qpl = b.qpl := b.setReg_qpl (p.at off) (setBits (b.reg (p.at off)) lo w n)
@[simp] theorem Block.setFld_dramParts (b : Block) (p : PageRef) (off lo w n : Nat) : (b.setFld p off lo w n).dramParts = b.dramParts := b.setReg_dramParts (p.at off) (setBits (b.reg (p.at off)) lo w n)
@[simp] theorem Block.setFld_dramTiles (b : Block) (p : PageRef) (off lo w n : Nat) : (b.setFld p off lo w n).dramTiles = b.dramTiles := b.setReg_dramTiles (p.at off) (setBits (b.reg (p.at off)) lo w n)
@[simp] theorem Block.setFld_stackSet (b : Block) (p : PageRef) (off lo w n : Nat) : (b.setFld p off lo w n).stackSet = b.stackSet := b.setReg_stackSet (p.at off) (setBits (b.reg (p.at off)) lo w n)
@[simp] theorem Block.setFld_engines (b : Block) (p : PageRef) (off lo w n : Nat) : (b.setFld p off lo w n).engines = b.engines := b.setReg_engines (p.at off) (setBits (b.reg (p.at off)) lo w n)
@[simp] theorem Block.setFld_ops (b : Block) (p : PageRef) (off lo w n : Nat) : (b.setFld p off lo w n).ops = b.ops := b.setReg_ops (p.at off) (setBits (b.reg (p.at off)) lo w n)
@[simp] theorem Block.setFld_topks (b : Block) (p : PageRef) (off lo w n : Nat) : (b.setFld p off lo w n).topks = b.topks := b.setReg_topks (p.at off) (setBits (b.reg (p.at off)) lo w n)
@[simp] theorem Block.setFld_ftl (b : Block) (p : PageRef) (off lo w n : Nat) : (b.setFld p off lo w n).ftl = b.ftl := b.setReg_ftl (p.at off) (setBits (b.reg (p.at off)) lo w n)
@[simp] theorem Block.setFld_bays (b : Block) (p : PageRef) (off lo w n : Nat) : (b.setFld p off lo w n).bays = b.bays := b.setReg_bays (p.at off) (setBits (b.reg (p.at off)) lo w n)
@[simp] theorem Block.setFld_regions (b : Block) (p : PageRef) (off lo w n : Nat) : (b.setFld p off lo w n).regions = b.regions := b.setReg_regions (p.at off) (setBits (b.reg (p.at off)) lo w n)
@[simp] theorem Block.setFld_nextLease (b : Block) (p : PageRef) (off lo w n : Nat) : (b.setFld p off lo w n).nextLease = b.nextLease := b.setReg_nextLease (p.at off) (setBits (b.reg (p.at off)) lo w n)
@[simp] theorem Block.setFld_publishes (b : Block) (p : PageRef) (off lo w n : Nat) : (b.setFld p off lo w n).publishes = b.publishes := b.setReg_publishes (p.at off) (setBits (b.reg (p.at off)) lo w n)
@[simp] theorem Block.setFld_layers (b : Block) (p : PageRef) (off lo w n : Nat) : (b.setFld p off lo w n).layers = b.layers := b.setReg_layers (p.at off) (setBits (b.reg (p.at off)) lo w n)
@[simp] theorem Block.setFld_pushes (b : Block) (p : PageRef) (off lo w n : Nat) : (b.setFld p off lo w n).pushes = b.pushes := b.setReg_pushes (p.at off) (setBits (b.reg (p.at off)) lo w n)
@[simp] theorem Block.setFld_discards (b : Block) (p : PageRef) (off lo w n : Nat) : (b.setFld p off lo w n).discards = b.discards := b.setReg_discards (p.at off) (setBits (b.reg (p.at off)) lo w n)
@[simp] theorem Block.setFld_cache (b : Block) (p : PageRef) (off lo w n : Nat) : (b.setFld p off lo w n).cache = b.cache := b.setReg_cache (p.at off) (setBits (b.reg (p.at off)) lo w n)
@[simp] theorem Block.setFld_roles (b : Block) (p : PageRef) (off lo w n : Nat) : (b.setFld p off lo w n).roles = b.roles := b.setReg_roles (p.at off) (setBits (b.reg (p.at off)) lo w n)
@[simp] theorem Block.setFld_tables (b : Block) (p : PageRef) (off lo w n : Nat) : (b.setFld p off lo w n).tables = b.tables := b.setReg_tables (p.at off) (setBits (b.reg (p.at off)) lo w n)
@[simp] theorem Block.setFld_gathers (b : Block) (p : PageRef) (off lo w n : Nat) : (b.setFld p off lo w n).gathers = b.gathers := b.setReg_gathers (p.at off) (setBits (b.reg (p.at off)) lo w n)
@[simp] theorem Block.setFld_scatters (b : Block) (p : PageRef) (off lo w n : Nat) : (b.setFld p off lo w n).scatters = b.scatters := b.setReg_scatters (p.at off) (setBits (b.reg (p.at off)) lo w n)
@[simp] theorem Block.setFld_tblSwitches (b : Block) (p : PageRef) (off lo w n : Nat) : (b.setFld p off lo w n).tblSwitches = b.tblSwitches := b.setReg_tblSwitches (p.at off) (setBits (b.reg (p.at off)) lo w n)
@[simp] theorem Block.setFld_seqs (b : Block) (p : PageRef) (off lo w n : Nat) : (b.setFld p off lo w n).seqs = b.seqs := b.setReg_seqs (p.at off) (setBits (b.reg (p.at off)) lo w n)
@[simp] theorem Block.setFld_plc (b : Block) (p : PageRef) (off lo w n : Nat) : (b.setFld p off lo w n).plc = b.plc := b.setReg_plc (p.at off) (setBits (b.reg (p.at off)) lo w n)
@[simp] theorem Block.setFld_rope (b : Block) (p : PageRef) (off lo w n : Nat) : (b.setFld p off lo w n).rope = b.rope := b.setReg_rope (p.at off) (setBits (b.reg (p.at off)) lo w n)
@[simp] theorem Block.setFld_links (b : Block) (p : PageRef) (off lo w n : Nat) : (b.setFld p off lo w n).links = b.links := b.setReg_links (p.at off) (setBits (b.reg (p.at off)) lo w n)
@[simp] theorem Block.setFld_transport (b : Block) (p : PageRef) (off lo w n : Nat) : (b.setFld p off lo w n).transport = b.transport := b.setReg_transport (p.at off) (setBits (b.reg (p.at off)) lo w n)
@[simp] theorem Block.setFld_health (b : Block) (p : PageRef) (off lo w n : Nat) : (b.setFld p off lo w n).health = b.health := b.setReg_health (p.at off) (setBits (b.reg (p.at off)) lo w n)
@[simp] theorem Block.setFld_cores (b : Block) (p : PageRef) (off lo w n : Nat) : (b.setFld p off lo w n).cores = b.cores := b.setReg_cores (p.at off) (setBits (b.reg (p.at off)) lo w n)
@[simp] theorem Block.setFld_sec (b : Block) (p : PageRef) (off lo w n : Nat) : (b.setFld p off lo w n).sec = b.sec := b.setReg_sec (p.at off) (setBits (b.reg (p.at off)) lo w n)
@[simp] theorem Block.setFld_tap (b : Block) (p : PageRef) (off lo w n : Nat) : (b.setFld p off lo w n).tap = b.tap := b.setReg_tap (p.at off) (setBits (b.reg (p.at off)) lo w n)
@[simp] theorem Block.setFld_nextId (b : Block) (p : PageRef) (off lo w n : Nat) : (b.setFld p off lo w n).nextId = b.nextId := b.setReg_nextId (p.at off) (setBits (b.reg (p.at off)) lo w n)
@[simp] theorem Block.setFld_free (b : Block) (p : PageRef) (off lo w n : Nat) : (b.setFld p off lo w n).free = b.free := b.setReg_free (p.at off) (setBits (b.reg (p.at off)) lo w n)
@[simp] theorem Block.setFld_out (b : Block) (p : PageRef) (off lo w n : Nat) : (b.setFld p off lo w n).out = b.out := b.setReg_out (p.at off) (setBits (b.reg (p.at off)) lo w n)

/-! ## Block.put changes the register file alone -/

@[simp] theorem Block.put_meter (b : Block) (p : PageRef) (off n : Nat) : (b.put p off n).meter = b.meter := b.setReg_meter (p.at off) (BitVec.ofNat 64 n)
@[simp] theorem Block.put_stage (b : Block) (p : PageRef) (off n : Nat) : (b.put p off n).stage = b.stage := b.setReg_stage (p.at off) (BitVec.ofNat 64 n)
@[simp] theorem Block.put_resetKind (b : Block) (p : PageRef) (off n : Nat) : (b.put p off n).resetKind = b.resetKind := b.setReg_resetKind (p.at off) (BitVec.ofNat 64 n)
@[simp] theorem Block.put_bivouac (b : Block) (p : PageRef) (off n : Nat) : (b.put p off n).bivouac = b.bivouac := b.setReg_bivouac (p.at off) (BitVec.ofNat 64 n)
@[simp] theorem Block.put_fatal (b : Block) (p : PageRef) (off n : Nat) : (b.put p off n).fatal = b.fatal := b.setReg_fatal (p.at off) (BitVec.ofNat 64 n)
@[simp] theorem Block.put_stuck (b : Block) (p : PageRef) (off n : Nat) : (b.put p off n).stuck = b.stuck := b.setReg_stuck (p.at off) (BitVec.ofNat 64 n)
@[simp] theorem Block.put_kept (b : Block) (p : PageRef) (off n : Nat) : (b.put p off n).kept = b.kept := b.setReg_kept (p.at off) (BitVec.ofNat 64 n)
@[simp] theorem Block.put_sled (b : Block) (p : PageRef) (off n : Nat) : (b.put p off n).sled = b.sled := b.setReg_sled (p.at off) (BitVec.ofNat 64 n)
@[simp] theorem Block.put_latches (b : Block) (p : PageRef) (off n : Nat) : (b.put p off n).latches = b.latches := b.setReg_latches (p.at off) (BitVec.ofNat 64 n)
@[simp] theorem Block.put_injected (b : Block) (p : PageRef) (off n : Nat) : (b.put p off n).injected = b.injected := b.setReg_injected (p.at off) (BitVec.ofNat 64 n)
@[simp] theorem Block.put_resetting (b : Block) (p : PageRef) (off n : Nat) : (b.put p off n).resetting = b.resetting := b.setReg_resetting (p.at off) (BitVec.ofNat 64 n)
@[simp] theorem Block.put_hostMem (b : Block) (p : PageRef) (off n : Nat) : (b.put p off n).hostMem = b.hostMem := b.setReg_hostMem (p.at off) (BitVec.ofNat 64 n)
@[simp] theorem Block.put_ports (b : Block) (p : PageRef) (off n : Nat) : (b.put p off n).ports = b.ports := b.setReg_ports (p.at off) (BitVec.ofNat 64 n)
@[simp] theorem Block.put_proxies (b : Block) (p : PageRef) (off n : Nat) : (b.put p off n).proxies = b.proxies := b.setReg_proxies (p.at off) (BitVec.ofNat 64 n)
@[simp] theorem Block.put_cmds (b : Block) (p : PageRef) (off n : Nat) : (b.put p off n).cmds = b.cmds := b.setReg_cmds (p.at off) (BitVec.ofNat 64 n)
@[simp] theorem Block.put_nextCmd (b : Block) (p : PageRef) (off n : Nat) : (b.put p off n).nextCmd = b.nextCmd := b.setReg_nextCmd (p.at off) (BitVec.ofNat 64 n)
@[simp] theorem Block.put_governor (b : Block) (p : PageRef) (off n : Nat) : (b.put p off n).governor = b.governor := b.setReg_governor (p.at off) (BitVec.ofNat 64 n)
@[simp] theorem Block.put_trf (b : Block) (p : PageRef) (off n : Nat) : (b.put p off n).trf = b.trf := b.setReg_trf (p.at off) (BitVec.ofNat 64 n)
@[simp] theorem Block.put_egress (b : Block) (p : PageRef) (off n : Nat) : (b.put p off n).egress = b.egress := b.setReg_egress (p.at off) (BitVec.ofNat 64 n)
@[simp] theorem Block.put_sessions (b : Block) (p : PageRef) (off n : Nat) : (b.put p off n).sessions = b.sessions := b.setReg_sessions (p.at off) (BitVec.ofNat 64 n)
@[simp] theorem Block.put_indexes (b : Block) (p : PageRef) (off n : Nat) : (b.put p off n).indexes = b.indexes := b.setReg_indexes (p.at off) (BitVec.ofNat 64 n)
@[simp] theorem Block.put_shardMap (b : Block) (p : PageRef) (off n : Nat) : (b.put p off n).shardMap = b.shardMap := b.setReg_shardMap (p.at off) (BitVec.ofNat 64 n)
@[simp] theorem Block.put_switching (b : Block) (p : PageRef) (off n : Nat) : (b.put p off n).switching = b.switching := b.setReg_switching (p.at off) (BitVec.ofNat 64 n)
@[simp] theorem Block.put_updates (b : Block) (p : PageRef) (off n : Nat) : (b.put p off n).updates = b.updates := b.setReg_updates (p.at off) (BitVec.ofNat 64 n)
@[simp] theorem Block.put_qpl (b : Block) (p : PageRef) (off n : Nat) : (b.put p off n).qpl = b.qpl := b.setReg_qpl (p.at off) (BitVec.ofNat 64 n)
@[simp] theorem Block.put_dramParts (b : Block) (p : PageRef) (off n : Nat) : (b.put p off n).dramParts = b.dramParts := b.setReg_dramParts (p.at off) (BitVec.ofNat 64 n)
@[simp] theorem Block.put_dramTiles (b : Block) (p : PageRef) (off n : Nat) : (b.put p off n).dramTiles = b.dramTiles := b.setReg_dramTiles (p.at off) (BitVec.ofNat 64 n)
@[simp] theorem Block.put_stackSet (b : Block) (p : PageRef) (off n : Nat) : (b.put p off n).stackSet = b.stackSet := b.setReg_stackSet (p.at off) (BitVec.ofNat 64 n)
@[simp] theorem Block.put_engines (b : Block) (p : PageRef) (off n : Nat) : (b.put p off n).engines = b.engines := b.setReg_engines (p.at off) (BitVec.ofNat 64 n)
@[simp] theorem Block.put_ops (b : Block) (p : PageRef) (off n : Nat) : (b.put p off n).ops = b.ops := b.setReg_ops (p.at off) (BitVec.ofNat 64 n)
@[simp] theorem Block.put_topks (b : Block) (p : PageRef) (off n : Nat) : (b.put p off n).topks = b.topks := b.setReg_topks (p.at off) (BitVec.ofNat 64 n)
@[simp] theorem Block.put_ftl (b : Block) (p : PageRef) (off n : Nat) : (b.put p off n).ftl = b.ftl := b.setReg_ftl (p.at off) (BitVec.ofNat 64 n)
@[simp] theorem Block.put_bays (b : Block) (p : PageRef) (off n : Nat) : (b.put p off n).bays = b.bays := b.setReg_bays (p.at off) (BitVec.ofNat 64 n)
@[simp] theorem Block.put_regions (b : Block) (p : PageRef) (off n : Nat) : (b.put p off n).regions = b.regions := b.setReg_regions (p.at off) (BitVec.ofNat 64 n)
@[simp] theorem Block.put_nextLease (b : Block) (p : PageRef) (off n : Nat) : (b.put p off n).nextLease = b.nextLease := b.setReg_nextLease (p.at off) (BitVec.ofNat 64 n)
@[simp] theorem Block.put_publishes (b : Block) (p : PageRef) (off n : Nat) : (b.put p off n).publishes = b.publishes := b.setReg_publishes (p.at off) (BitVec.ofNat 64 n)
@[simp] theorem Block.put_layers (b : Block) (p : PageRef) (off n : Nat) : (b.put p off n).layers = b.layers := b.setReg_layers (p.at off) (BitVec.ofNat 64 n)
@[simp] theorem Block.put_pushes (b : Block) (p : PageRef) (off n : Nat) : (b.put p off n).pushes = b.pushes := b.setReg_pushes (p.at off) (BitVec.ofNat 64 n)
@[simp] theorem Block.put_discards (b : Block) (p : PageRef) (off n : Nat) : (b.put p off n).discards = b.discards := b.setReg_discards (p.at off) (BitVec.ofNat 64 n)
@[simp] theorem Block.put_cache (b : Block) (p : PageRef) (off n : Nat) : (b.put p off n).cache = b.cache := b.setReg_cache (p.at off) (BitVec.ofNat 64 n)
@[simp] theorem Block.put_roles (b : Block) (p : PageRef) (off n : Nat) : (b.put p off n).roles = b.roles := b.setReg_roles (p.at off) (BitVec.ofNat 64 n)
@[simp] theorem Block.put_tables (b : Block) (p : PageRef) (off n : Nat) : (b.put p off n).tables = b.tables := b.setReg_tables (p.at off) (BitVec.ofNat 64 n)
@[simp] theorem Block.put_gathers (b : Block) (p : PageRef) (off n : Nat) : (b.put p off n).gathers = b.gathers := b.setReg_gathers (p.at off) (BitVec.ofNat 64 n)
@[simp] theorem Block.put_scatters (b : Block) (p : PageRef) (off n : Nat) : (b.put p off n).scatters = b.scatters := b.setReg_scatters (p.at off) (BitVec.ofNat 64 n)
@[simp] theorem Block.put_tblSwitches (b : Block) (p : PageRef) (off n : Nat) : (b.put p off n).tblSwitches = b.tblSwitches := b.setReg_tblSwitches (p.at off) (BitVec.ofNat 64 n)
@[simp] theorem Block.put_seqs (b : Block) (p : PageRef) (off n : Nat) : (b.put p off n).seqs = b.seqs := b.setReg_seqs (p.at off) (BitVec.ofNat 64 n)
@[simp] theorem Block.put_plc (b : Block) (p : PageRef) (off n : Nat) : (b.put p off n).plc = b.plc := b.setReg_plc (p.at off) (BitVec.ofNat 64 n)
@[simp] theorem Block.put_rope (b : Block) (p : PageRef) (off n : Nat) : (b.put p off n).rope = b.rope := b.setReg_rope (p.at off) (BitVec.ofNat 64 n)
@[simp] theorem Block.put_links (b : Block) (p : PageRef) (off n : Nat) : (b.put p off n).links = b.links := b.setReg_links (p.at off) (BitVec.ofNat 64 n)
@[simp] theorem Block.put_transport (b : Block) (p : PageRef) (off n : Nat) : (b.put p off n).transport = b.transport := b.setReg_transport (p.at off) (BitVec.ofNat 64 n)
@[simp] theorem Block.put_health (b : Block) (p : PageRef) (off n : Nat) : (b.put p off n).health = b.health := b.setReg_health (p.at off) (BitVec.ofNat 64 n)
@[simp] theorem Block.put_cores (b : Block) (p : PageRef) (off n : Nat) : (b.put p off n).cores = b.cores := b.setReg_cores (p.at off) (BitVec.ofNat 64 n)
@[simp] theorem Block.put_sec (b : Block) (p : PageRef) (off n : Nat) : (b.put p off n).sec = b.sec := b.setReg_sec (p.at off) (BitVec.ofNat 64 n)
@[simp] theorem Block.put_tap (b : Block) (p : PageRef) (off n : Nat) : (b.put p off n).tap = b.tap := b.setReg_tap (p.at off) (BitVec.ofNat 64 n)
@[simp] theorem Block.put_nextId (b : Block) (p : PageRef) (off n : Nat) : (b.put p off n).nextId = b.nextId := b.setReg_nextId (p.at off) (BitVec.ofNat 64 n)
@[simp] theorem Block.put_free (b : Block) (p : PageRef) (off n : Nat) : (b.put p off n).free = b.free := b.setReg_free (p.at off) (BitVec.ofNat 64 n)
@[simp] theorem Block.put_out (b : Block) (p : PageRef) (off n : Nat) : (b.put p off n).out = b.out := b.setReg_out (p.at off) (BitVec.ofNat 64 n)

/-! ## Block.bump changes the register file alone -/

@[simp] theorem Block.bump_meter (b : Block) (p : PageRef) (n k : Nat) : (b.bump p n k).meter = b.meter := b.setReg_meter (p.at (0x40 + 8 * n)) (b.reg (p.at (0x40 + 8 * n)) + BitVec.ofNat 64 k)
@[simp] theorem Block.bump_stage (b : Block) (p : PageRef) (n k : Nat) : (b.bump p n k).stage = b.stage := b.setReg_stage (p.at (0x40 + 8 * n)) (b.reg (p.at (0x40 + 8 * n)) + BitVec.ofNat 64 k)
@[simp] theorem Block.bump_resetKind (b : Block) (p : PageRef) (n k : Nat) : (b.bump p n k).resetKind = b.resetKind := b.setReg_resetKind (p.at (0x40 + 8 * n)) (b.reg (p.at (0x40 + 8 * n)) + BitVec.ofNat 64 k)
@[simp] theorem Block.bump_bivouac (b : Block) (p : PageRef) (n k : Nat) : (b.bump p n k).bivouac = b.bivouac := b.setReg_bivouac (p.at (0x40 + 8 * n)) (b.reg (p.at (0x40 + 8 * n)) + BitVec.ofNat 64 k)
@[simp] theorem Block.bump_fatal (b : Block) (p : PageRef) (n k : Nat) : (b.bump p n k).fatal = b.fatal := b.setReg_fatal (p.at (0x40 + 8 * n)) (b.reg (p.at (0x40 + 8 * n)) + BitVec.ofNat 64 k)
@[simp] theorem Block.bump_stuck (b : Block) (p : PageRef) (n k : Nat) : (b.bump p n k).stuck = b.stuck := b.setReg_stuck (p.at (0x40 + 8 * n)) (b.reg (p.at (0x40 + 8 * n)) + BitVec.ofNat 64 k)
@[simp] theorem Block.bump_kept (b : Block) (p : PageRef) (n k : Nat) : (b.bump p n k).kept = b.kept := b.setReg_kept (p.at (0x40 + 8 * n)) (b.reg (p.at (0x40 + 8 * n)) + BitVec.ofNat 64 k)
@[simp] theorem Block.bump_sled (b : Block) (p : PageRef) (n k : Nat) : (b.bump p n k).sled = b.sled := b.setReg_sled (p.at (0x40 + 8 * n)) (b.reg (p.at (0x40 + 8 * n)) + BitVec.ofNat 64 k)
@[simp] theorem Block.bump_latches (b : Block) (p : PageRef) (n k : Nat) : (b.bump p n k).latches = b.latches := b.setReg_latches (p.at (0x40 + 8 * n)) (b.reg (p.at (0x40 + 8 * n)) + BitVec.ofNat 64 k)
@[simp] theorem Block.bump_injected (b : Block) (p : PageRef) (n k : Nat) : (b.bump p n k).injected = b.injected := b.setReg_injected (p.at (0x40 + 8 * n)) (b.reg (p.at (0x40 + 8 * n)) + BitVec.ofNat 64 k)
@[simp] theorem Block.bump_resetting (b : Block) (p : PageRef) (n k : Nat) : (b.bump p n k).resetting = b.resetting := b.setReg_resetting (p.at (0x40 + 8 * n)) (b.reg (p.at (0x40 + 8 * n)) + BitVec.ofNat 64 k)
@[simp] theorem Block.bump_hostMem (b : Block) (p : PageRef) (n k : Nat) : (b.bump p n k).hostMem = b.hostMem := b.setReg_hostMem (p.at (0x40 + 8 * n)) (b.reg (p.at (0x40 + 8 * n)) + BitVec.ofNat 64 k)
@[simp] theorem Block.bump_ports (b : Block) (p : PageRef) (n k : Nat) : (b.bump p n k).ports = b.ports := b.setReg_ports (p.at (0x40 + 8 * n)) (b.reg (p.at (0x40 + 8 * n)) + BitVec.ofNat 64 k)
@[simp] theorem Block.bump_proxies (b : Block) (p : PageRef) (n k : Nat) : (b.bump p n k).proxies = b.proxies := b.setReg_proxies (p.at (0x40 + 8 * n)) (b.reg (p.at (0x40 + 8 * n)) + BitVec.ofNat 64 k)
@[simp] theorem Block.bump_cmds (b : Block) (p : PageRef) (n k : Nat) : (b.bump p n k).cmds = b.cmds := b.setReg_cmds (p.at (0x40 + 8 * n)) (b.reg (p.at (0x40 + 8 * n)) + BitVec.ofNat 64 k)
@[simp] theorem Block.bump_nextCmd (b : Block) (p : PageRef) (n k : Nat) : (b.bump p n k).nextCmd = b.nextCmd := b.setReg_nextCmd (p.at (0x40 + 8 * n)) (b.reg (p.at (0x40 + 8 * n)) + BitVec.ofNat 64 k)
@[simp] theorem Block.bump_governor (b : Block) (p : PageRef) (n k : Nat) : (b.bump p n k).governor = b.governor := b.setReg_governor (p.at (0x40 + 8 * n)) (b.reg (p.at (0x40 + 8 * n)) + BitVec.ofNat 64 k)
@[simp] theorem Block.bump_trf (b : Block) (p : PageRef) (n k : Nat) : (b.bump p n k).trf = b.trf := b.setReg_trf (p.at (0x40 + 8 * n)) (b.reg (p.at (0x40 + 8 * n)) + BitVec.ofNat 64 k)
@[simp] theorem Block.bump_egress (b : Block) (p : PageRef) (n k : Nat) : (b.bump p n k).egress = b.egress := b.setReg_egress (p.at (0x40 + 8 * n)) (b.reg (p.at (0x40 + 8 * n)) + BitVec.ofNat 64 k)
@[simp] theorem Block.bump_sessions (b : Block) (p : PageRef) (n k : Nat) : (b.bump p n k).sessions = b.sessions := b.setReg_sessions (p.at (0x40 + 8 * n)) (b.reg (p.at (0x40 + 8 * n)) + BitVec.ofNat 64 k)
@[simp] theorem Block.bump_indexes (b : Block) (p : PageRef) (n k : Nat) : (b.bump p n k).indexes = b.indexes := b.setReg_indexes (p.at (0x40 + 8 * n)) (b.reg (p.at (0x40 + 8 * n)) + BitVec.ofNat 64 k)
@[simp] theorem Block.bump_shardMap (b : Block) (p : PageRef) (n k : Nat) : (b.bump p n k).shardMap = b.shardMap := b.setReg_shardMap (p.at (0x40 + 8 * n)) (b.reg (p.at (0x40 + 8 * n)) + BitVec.ofNat 64 k)
@[simp] theorem Block.bump_switching (b : Block) (p : PageRef) (n k : Nat) : (b.bump p n k).switching = b.switching := b.setReg_switching (p.at (0x40 + 8 * n)) (b.reg (p.at (0x40 + 8 * n)) + BitVec.ofNat 64 k)
@[simp] theorem Block.bump_updates (b : Block) (p : PageRef) (n k : Nat) : (b.bump p n k).updates = b.updates := b.setReg_updates (p.at (0x40 + 8 * n)) (b.reg (p.at (0x40 + 8 * n)) + BitVec.ofNat 64 k)
@[simp] theorem Block.bump_qpl (b : Block) (p : PageRef) (n k : Nat) : (b.bump p n k).qpl = b.qpl := b.setReg_qpl (p.at (0x40 + 8 * n)) (b.reg (p.at (0x40 + 8 * n)) + BitVec.ofNat 64 k)
@[simp] theorem Block.bump_dramParts (b : Block) (p : PageRef) (n k : Nat) : (b.bump p n k).dramParts = b.dramParts := b.setReg_dramParts (p.at (0x40 + 8 * n)) (b.reg (p.at (0x40 + 8 * n)) + BitVec.ofNat 64 k)
@[simp] theorem Block.bump_dramTiles (b : Block) (p : PageRef) (n k : Nat) : (b.bump p n k).dramTiles = b.dramTiles := b.setReg_dramTiles (p.at (0x40 + 8 * n)) (b.reg (p.at (0x40 + 8 * n)) + BitVec.ofNat 64 k)
@[simp] theorem Block.bump_stackSet (b : Block) (p : PageRef) (n k : Nat) : (b.bump p n k).stackSet = b.stackSet := b.setReg_stackSet (p.at (0x40 + 8 * n)) (b.reg (p.at (0x40 + 8 * n)) + BitVec.ofNat 64 k)
@[simp] theorem Block.bump_engines (b : Block) (p : PageRef) (n k : Nat) : (b.bump p n k).engines = b.engines := b.setReg_engines (p.at (0x40 + 8 * n)) (b.reg (p.at (0x40 + 8 * n)) + BitVec.ofNat 64 k)
@[simp] theorem Block.bump_ops (b : Block) (p : PageRef) (n k : Nat) : (b.bump p n k).ops = b.ops := b.setReg_ops (p.at (0x40 + 8 * n)) (b.reg (p.at (0x40 + 8 * n)) + BitVec.ofNat 64 k)
@[simp] theorem Block.bump_topks (b : Block) (p : PageRef) (n k : Nat) : (b.bump p n k).topks = b.topks := b.setReg_topks (p.at (0x40 + 8 * n)) (b.reg (p.at (0x40 + 8 * n)) + BitVec.ofNat 64 k)
@[simp] theorem Block.bump_ftl (b : Block) (p : PageRef) (n k : Nat) : (b.bump p n k).ftl = b.ftl := b.setReg_ftl (p.at (0x40 + 8 * n)) (b.reg (p.at (0x40 + 8 * n)) + BitVec.ofNat 64 k)
@[simp] theorem Block.bump_bays (b : Block) (p : PageRef) (n k : Nat) : (b.bump p n k).bays = b.bays := b.setReg_bays (p.at (0x40 + 8 * n)) (b.reg (p.at (0x40 + 8 * n)) + BitVec.ofNat 64 k)
@[simp] theorem Block.bump_regions (b : Block) (p : PageRef) (n k : Nat) : (b.bump p n k).regions = b.regions := b.setReg_regions (p.at (0x40 + 8 * n)) (b.reg (p.at (0x40 + 8 * n)) + BitVec.ofNat 64 k)
@[simp] theorem Block.bump_nextLease (b : Block) (p : PageRef) (n k : Nat) : (b.bump p n k).nextLease = b.nextLease := b.setReg_nextLease (p.at (0x40 + 8 * n)) (b.reg (p.at (0x40 + 8 * n)) + BitVec.ofNat 64 k)
@[simp] theorem Block.bump_publishes (b : Block) (p : PageRef) (n k : Nat) : (b.bump p n k).publishes = b.publishes := b.setReg_publishes (p.at (0x40 + 8 * n)) (b.reg (p.at (0x40 + 8 * n)) + BitVec.ofNat 64 k)
@[simp] theorem Block.bump_layers (b : Block) (p : PageRef) (n k : Nat) : (b.bump p n k).layers = b.layers := b.setReg_layers (p.at (0x40 + 8 * n)) (b.reg (p.at (0x40 + 8 * n)) + BitVec.ofNat 64 k)
@[simp] theorem Block.bump_pushes (b : Block) (p : PageRef) (n k : Nat) : (b.bump p n k).pushes = b.pushes := b.setReg_pushes (p.at (0x40 + 8 * n)) (b.reg (p.at (0x40 + 8 * n)) + BitVec.ofNat 64 k)
@[simp] theorem Block.bump_discards (b : Block) (p : PageRef) (n k : Nat) : (b.bump p n k).discards = b.discards := b.setReg_discards (p.at (0x40 + 8 * n)) (b.reg (p.at (0x40 + 8 * n)) + BitVec.ofNat 64 k)
@[simp] theorem Block.bump_cache (b : Block) (p : PageRef) (n k : Nat) : (b.bump p n k).cache = b.cache := b.setReg_cache (p.at (0x40 + 8 * n)) (b.reg (p.at (0x40 + 8 * n)) + BitVec.ofNat 64 k)
@[simp] theorem Block.bump_roles (b : Block) (p : PageRef) (n k : Nat) : (b.bump p n k).roles = b.roles := b.setReg_roles (p.at (0x40 + 8 * n)) (b.reg (p.at (0x40 + 8 * n)) + BitVec.ofNat 64 k)
@[simp] theorem Block.bump_tables (b : Block) (p : PageRef) (n k : Nat) : (b.bump p n k).tables = b.tables := b.setReg_tables (p.at (0x40 + 8 * n)) (b.reg (p.at (0x40 + 8 * n)) + BitVec.ofNat 64 k)
@[simp] theorem Block.bump_gathers (b : Block) (p : PageRef) (n k : Nat) : (b.bump p n k).gathers = b.gathers := b.setReg_gathers (p.at (0x40 + 8 * n)) (b.reg (p.at (0x40 + 8 * n)) + BitVec.ofNat 64 k)
@[simp] theorem Block.bump_scatters (b : Block) (p : PageRef) (n k : Nat) : (b.bump p n k).scatters = b.scatters := b.setReg_scatters (p.at (0x40 + 8 * n)) (b.reg (p.at (0x40 + 8 * n)) + BitVec.ofNat 64 k)
@[simp] theorem Block.bump_tblSwitches (b : Block) (p : PageRef) (n k : Nat) : (b.bump p n k).tblSwitches = b.tblSwitches := b.setReg_tblSwitches (p.at (0x40 + 8 * n)) (b.reg (p.at (0x40 + 8 * n)) + BitVec.ofNat 64 k)
@[simp] theorem Block.bump_seqs (b : Block) (p : PageRef) (n k : Nat) : (b.bump p n k).seqs = b.seqs := b.setReg_seqs (p.at (0x40 + 8 * n)) (b.reg (p.at (0x40 + 8 * n)) + BitVec.ofNat 64 k)
@[simp] theorem Block.bump_plc (b : Block) (p : PageRef) (n k : Nat) : (b.bump p n k).plc = b.plc := b.setReg_plc (p.at (0x40 + 8 * n)) (b.reg (p.at (0x40 + 8 * n)) + BitVec.ofNat 64 k)
@[simp] theorem Block.bump_rope (b : Block) (p : PageRef) (n k : Nat) : (b.bump p n k).rope = b.rope := b.setReg_rope (p.at (0x40 + 8 * n)) (b.reg (p.at (0x40 + 8 * n)) + BitVec.ofNat 64 k)
@[simp] theorem Block.bump_links (b : Block) (p : PageRef) (n k : Nat) : (b.bump p n k).links = b.links := b.setReg_links (p.at (0x40 + 8 * n)) (b.reg (p.at (0x40 + 8 * n)) + BitVec.ofNat 64 k)
@[simp] theorem Block.bump_transport (b : Block) (p : PageRef) (n k : Nat) : (b.bump p n k).transport = b.transport := b.setReg_transport (p.at (0x40 + 8 * n)) (b.reg (p.at (0x40 + 8 * n)) + BitVec.ofNat 64 k)
@[simp] theorem Block.bump_health (b : Block) (p : PageRef) (n k : Nat) : (b.bump p n k).health = b.health := b.setReg_health (p.at (0x40 + 8 * n)) (b.reg (p.at (0x40 + 8 * n)) + BitVec.ofNat 64 k)
@[simp] theorem Block.bump_cores (b : Block) (p : PageRef) (n k : Nat) : (b.bump p n k).cores = b.cores := b.setReg_cores (p.at (0x40 + 8 * n)) (b.reg (p.at (0x40 + 8 * n)) + BitVec.ofNat 64 k)
@[simp] theorem Block.bump_sec (b : Block) (p : PageRef) (n k : Nat) : (b.bump p n k).sec = b.sec := b.setReg_sec (p.at (0x40 + 8 * n)) (b.reg (p.at (0x40 + 8 * n)) + BitVec.ofNat 64 k)
@[simp] theorem Block.bump_tap (b : Block) (p : PageRef) (n k : Nat) : (b.bump p n k).tap = b.tap := b.setReg_tap (p.at (0x40 + 8 * n)) (b.reg (p.at (0x40 + 8 * n)) + BitVec.ofNat 64 k)
@[simp] theorem Block.bump_nextId (b : Block) (p : PageRef) (n k : Nat) : (b.bump p n k).nextId = b.nextId := b.setReg_nextId (p.at (0x40 + 8 * n)) (b.reg (p.at (0x40 + 8 * n)) + BitVec.ofNat 64 k)
@[simp] theorem Block.bump_free (b : Block) (p : PageRef) (n k : Nat) : (b.bump p n k).free = b.free := b.setReg_free (p.at (0x40 + 8 * n)) (b.reg (p.at (0x40 + 8 * n)) + BitVec.ofNat 64 k)
@[simp] theorem Block.bump_out (b : Block) (p : PageRef) (n k : Nat) : (b.bump p n k).out = b.out := b.setReg_out (p.at (0x40 + 8 * n)) (b.reg (p.at (0x40 + 8 * n)) + BitVec.ofNat 64 k)

/-! ## Block.notify, raiseInt and raiseErr change the register file and the interrupt count alone -/

@[simp] theorem Block.notify_meter (b : Block) : (b.notify).meter = b.meter := by
  unfold Block.notify; simp only [apply_ite Block.meter, Block.setFld_meter, ite_self]
@[simp] theorem Block.notify_stage (b : Block) : (b.notify).stage = b.stage := by
  unfold Block.notify; simp only [apply_ite Block.stage, Block.setFld_stage, ite_self]
@[simp] theorem Block.notify_resetKind (b : Block) : (b.notify).resetKind = b.resetKind := by
  unfold Block.notify; simp only [apply_ite Block.resetKind, Block.setFld_resetKind, ite_self]
@[simp] theorem Block.notify_bivouac (b : Block) : (b.notify).bivouac = b.bivouac := by
  unfold Block.notify; simp only [apply_ite Block.bivouac, Block.setFld_bivouac, ite_self]
@[simp] theorem Block.notify_fatal (b : Block) : (b.notify).fatal = b.fatal := by
  unfold Block.notify; simp only [apply_ite Block.fatal, Block.setFld_fatal, ite_self]
@[simp] theorem Block.notify_stuck (b : Block) : (b.notify).stuck = b.stuck := by
  unfold Block.notify; simp only [apply_ite Block.stuck, Block.setFld_stuck, ite_self]
@[simp] theorem Block.notify_kept (b : Block) : (b.notify).kept = b.kept := by
  unfold Block.notify; simp only [apply_ite Block.kept, Block.setFld_kept, ite_self]
@[simp] theorem Block.notify_sled (b : Block) : (b.notify).sled = b.sled := by
  unfold Block.notify; simp only [apply_ite Block.sled, Block.setFld_sled, ite_self]
@[simp] theorem Block.notify_latches (b : Block) : (b.notify).latches = b.latches := by
  unfold Block.notify; simp only [apply_ite Block.latches, Block.setFld_latches, ite_self]
@[simp] theorem Block.notify_injected (b : Block) : (b.notify).injected = b.injected := by
  unfold Block.notify; simp only [apply_ite Block.injected, Block.setFld_injected, ite_self]
@[simp] theorem Block.notify_resetting (b : Block) : (b.notify).resetting = b.resetting := by
  unfold Block.notify; simp only [apply_ite Block.resetting, Block.setFld_resetting, ite_self]
@[simp] theorem Block.notify_hostMem (b : Block) : (b.notify).hostMem = b.hostMem := by
  unfold Block.notify; simp only [apply_ite Block.hostMem, Block.setFld_hostMem, ite_self]
@[simp] theorem Block.notify_ports (b : Block) : (b.notify).ports = b.ports := by
  unfold Block.notify; simp only [apply_ite Block.ports, Block.setFld_ports, ite_self]
@[simp] theorem Block.notify_proxies (b : Block) : (b.notify).proxies = b.proxies := by
  unfold Block.notify; simp only [apply_ite Block.proxies, Block.setFld_proxies, ite_self]
@[simp] theorem Block.notify_cmds (b : Block) : (b.notify).cmds = b.cmds := by
  unfold Block.notify; simp only [apply_ite Block.cmds, Block.setFld_cmds, ite_self]
@[simp] theorem Block.notify_nextCmd (b : Block) : (b.notify).nextCmd = b.nextCmd := by
  unfold Block.notify; simp only [apply_ite Block.nextCmd, Block.setFld_nextCmd, ite_self]
@[simp] theorem Block.notify_governor (b : Block) : (b.notify).governor = b.governor := by
  unfold Block.notify; simp only [apply_ite Block.governor, Block.setFld_governor, ite_self]
@[simp] theorem Block.notify_trf (b : Block) : (b.notify).trf = b.trf := by
  unfold Block.notify; simp only [apply_ite Block.trf, Block.setFld_trf, ite_self]
@[simp] theorem Block.notify_egress (b : Block) : (b.notify).egress = b.egress := by
  unfold Block.notify; simp only [apply_ite Block.egress, Block.setFld_egress, ite_self]
@[simp] theorem Block.notify_sessions (b : Block) : (b.notify).sessions = b.sessions := by
  unfold Block.notify; simp only [apply_ite Block.sessions, Block.setFld_sessions, ite_self]
@[simp] theorem Block.notify_indexes (b : Block) : (b.notify).indexes = b.indexes := by
  unfold Block.notify; simp only [apply_ite Block.indexes, Block.setFld_indexes, ite_self]
@[simp] theorem Block.notify_shardMap (b : Block) : (b.notify).shardMap = b.shardMap := by
  unfold Block.notify; simp only [apply_ite Block.shardMap, Block.setFld_shardMap, ite_self]
@[simp] theorem Block.notify_switching (b : Block) : (b.notify).switching = b.switching := by
  unfold Block.notify; simp only [apply_ite Block.switching, Block.setFld_switching, ite_self]
@[simp] theorem Block.notify_updates (b : Block) : (b.notify).updates = b.updates := by
  unfold Block.notify; simp only [apply_ite Block.updates, Block.setFld_updates, ite_self]
@[simp] theorem Block.notify_qpl (b : Block) : (b.notify).qpl = b.qpl := by
  unfold Block.notify; simp only [apply_ite Block.qpl, Block.setFld_qpl, ite_self]
@[simp] theorem Block.notify_dramParts (b : Block) : (b.notify).dramParts = b.dramParts := by
  unfold Block.notify; simp only [apply_ite Block.dramParts, Block.setFld_dramParts, ite_self]
@[simp] theorem Block.notify_dramTiles (b : Block) : (b.notify).dramTiles = b.dramTiles := by
  unfold Block.notify; simp only [apply_ite Block.dramTiles, Block.setFld_dramTiles, ite_self]
@[simp] theorem Block.notify_stackSet (b : Block) : (b.notify).stackSet = b.stackSet := by
  unfold Block.notify; simp only [apply_ite Block.stackSet, Block.setFld_stackSet, ite_self]
@[simp] theorem Block.notify_engines (b : Block) : (b.notify).engines = b.engines := by
  unfold Block.notify; simp only [apply_ite Block.engines, Block.setFld_engines, ite_self]
@[simp] theorem Block.notify_ops (b : Block) : (b.notify).ops = b.ops := by
  unfold Block.notify; simp only [apply_ite Block.ops, Block.setFld_ops, ite_self]
@[simp] theorem Block.notify_topks (b : Block) : (b.notify).topks = b.topks := by
  unfold Block.notify; simp only [apply_ite Block.topks, Block.setFld_topks, ite_self]
@[simp] theorem Block.notify_ftl (b : Block) : (b.notify).ftl = b.ftl := by
  unfold Block.notify; simp only [apply_ite Block.ftl, Block.setFld_ftl, ite_self]
@[simp] theorem Block.notify_bays (b : Block) : (b.notify).bays = b.bays := by
  unfold Block.notify; simp only [apply_ite Block.bays, Block.setFld_bays, ite_self]
@[simp] theorem Block.notify_regions (b : Block) : (b.notify).regions = b.regions := by
  unfold Block.notify; simp only [apply_ite Block.regions, Block.setFld_regions, ite_self]
@[simp] theorem Block.notify_nextLease (b : Block) : (b.notify).nextLease = b.nextLease := by
  unfold Block.notify; simp only [apply_ite Block.nextLease, Block.setFld_nextLease, ite_self]
@[simp] theorem Block.notify_publishes (b : Block) : (b.notify).publishes = b.publishes := by
  unfold Block.notify; simp only [apply_ite Block.publishes, Block.setFld_publishes, ite_self]
@[simp] theorem Block.notify_layers (b : Block) : (b.notify).layers = b.layers := by
  unfold Block.notify; simp only [apply_ite Block.layers, Block.setFld_layers, ite_self]
@[simp] theorem Block.notify_pushes (b : Block) : (b.notify).pushes = b.pushes := by
  unfold Block.notify; simp only [apply_ite Block.pushes, Block.setFld_pushes, ite_self]
@[simp] theorem Block.notify_discards (b : Block) : (b.notify).discards = b.discards := by
  unfold Block.notify; simp only [apply_ite Block.discards, Block.setFld_discards, ite_self]
@[simp] theorem Block.notify_cache (b : Block) : (b.notify).cache = b.cache := by
  unfold Block.notify; simp only [apply_ite Block.cache, Block.setFld_cache, ite_self]
@[simp] theorem Block.notify_roles (b : Block) : (b.notify).roles = b.roles := by
  unfold Block.notify; simp only [apply_ite Block.roles, Block.setFld_roles, ite_self]
@[simp] theorem Block.notify_tables (b : Block) : (b.notify).tables = b.tables := by
  unfold Block.notify; simp only [apply_ite Block.tables, Block.setFld_tables, ite_self]
@[simp] theorem Block.notify_gathers (b : Block) : (b.notify).gathers = b.gathers := by
  unfold Block.notify; simp only [apply_ite Block.gathers, Block.setFld_gathers, ite_self]
@[simp] theorem Block.notify_scatters (b : Block) : (b.notify).scatters = b.scatters := by
  unfold Block.notify; simp only [apply_ite Block.scatters, Block.setFld_scatters, ite_self]
@[simp] theorem Block.notify_tblSwitches (b : Block) : (b.notify).tblSwitches = b.tblSwitches := by
  unfold Block.notify; simp only [apply_ite Block.tblSwitches, Block.setFld_tblSwitches, ite_self]
@[simp] theorem Block.notify_seqs (b : Block) : (b.notify).seqs = b.seqs := by
  unfold Block.notify; simp only [apply_ite Block.seqs, Block.setFld_seqs, ite_self]
@[simp] theorem Block.notify_plc (b : Block) : (b.notify).plc = b.plc := by
  unfold Block.notify; simp only [apply_ite Block.plc, Block.setFld_plc, ite_self]
@[simp] theorem Block.notify_rope (b : Block) : (b.notify).rope = b.rope := by
  unfold Block.notify; simp only [apply_ite Block.rope, Block.setFld_rope, ite_self]
@[simp] theorem Block.notify_links (b : Block) : (b.notify).links = b.links := by
  unfold Block.notify; simp only [apply_ite Block.links, Block.setFld_links, ite_self]
@[simp] theorem Block.notify_transport (b : Block) : (b.notify).transport = b.transport := by
  unfold Block.notify; simp only [apply_ite Block.transport, Block.setFld_transport, ite_self]
@[simp] theorem Block.notify_health (b : Block) : (b.notify).health = b.health := by
  unfold Block.notify; simp only [apply_ite Block.health, Block.setFld_health, ite_self]
@[simp] theorem Block.notify_cores (b : Block) : (b.notify).cores = b.cores := by
  unfold Block.notify; simp only [apply_ite Block.cores, Block.setFld_cores, ite_self]
@[simp] theorem Block.notify_sec (b : Block) : (b.notify).sec = b.sec := by
  unfold Block.notify; simp only [apply_ite Block.sec, Block.setFld_sec, ite_self]
@[simp] theorem Block.notify_tap (b : Block) : (b.notify).tap = b.tap := by
  unfold Block.notify; simp only [apply_ite Block.tap, Block.setFld_tap, ite_self]
@[simp] theorem Block.notify_nextId (b : Block) : (b.notify).nextId = b.nextId := by
  unfold Block.notify; simp only [apply_ite Block.nextId, Block.setFld_nextId, ite_self]
@[simp] theorem Block.notify_free (b : Block) : (b.notify).free = b.free := by
  unfold Block.notify; simp only [apply_ite Block.free, Block.setFld_free, ite_self]
@[simp] theorem Block.raiseInt_meter (b : Block) (p : PageRef) (n : Nat) : (b.raiseInt p n).meter = b.meter := by
  unfold Block.raiseInt; rw [Block.notify_meter, Block.setFld_meter]
@[simp] theorem Block.raiseInt_stage (b : Block) (p : PageRef) (n : Nat) : (b.raiseInt p n).stage = b.stage := by
  unfold Block.raiseInt; rw [Block.notify_stage, Block.setFld_stage]
@[simp] theorem Block.raiseInt_resetKind (b : Block) (p : PageRef) (n : Nat) : (b.raiseInt p n).resetKind = b.resetKind := by
  unfold Block.raiseInt; rw [Block.notify_resetKind, Block.setFld_resetKind]
@[simp] theorem Block.raiseInt_bivouac (b : Block) (p : PageRef) (n : Nat) : (b.raiseInt p n).bivouac = b.bivouac := by
  unfold Block.raiseInt; rw [Block.notify_bivouac, Block.setFld_bivouac]
@[simp] theorem Block.raiseInt_fatal (b : Block) (p : PageRef) (n : Nat) : (b.raiseInt p n).fatal = b.fatal := by
  unfold Block.raiseInt; rw [Block.notify_fatal, Block.setFld_fatal]
@[simp] theorem Block.raiseInt_stuck (b : Block) (p : PageRef) (n : Nat) : (b.raiseInt p n).stuck = b.stuck := by
  unfold Block.raiseInt; rw [Block.notify_stuck, Block.setFld_stuck]
@[simp] theorem Block.raiseInt_kept (b : Block) (p : PageRef) (n : Nat) : (b.raiseInt p n).kept = b.kept := by
  unfold Block.raiseInt; rw [Block.notify_kept, Block.setFld_kept]
@[simp] theorem Block.raiseInt_sled (b : Block) (p : PageRef) (n : Nat) : (b.raiseInt p n).sled = b.sled := by
  unfold Block.raiseInt; rw [Block.notify_sled, Block.setFld_sled]
@[simp] theorem Block.raiseInt_latches (b : Block) (p : PageRef) (n : Nat) : (b.raiseInt p n).latches = b.latches := by
  unfold Block.raiseInt; rw [Block.notify_latches, Block.setFld_latches]
@[simp] theorem Block.raiseInt_injected (b : Block) (p : PageRef) (n : Nat) : (b.raiseInt p n).injected = b.injected := by
  unfold Block.raiseInt; rw [Block.notify_injected, Block.setFld_injected]
@[simp] theorem Block.raiseInt_resetting (b : Block) (p : PageRef) (n : Nat) : (b.raiseInt p n).resetting = b.resetting := by
  unfold Block.raiseInt; rw [Block.notify_resetting, Block.setFld_resetting]
@[simp] theorem Block.raiseInt_hostMem (b : Block) (p : PageRef) (n : Nat) : (b.raiseInt p n).hostMem = b.hostMem := by
  unfold Block.raiseInt; rw [Block.notify_hostMem, Block.setFld_hostMem]
@[simp] theorem Block.raiseInt_ports (b : Block) (p : PageRef) (n : Nat) : (b.raiseInt p n).ports = b.ports := by
  unfold Block.raiseInt; rw [Block.notify_ports, Block.setFld_ports]
@[simp] theorem Block.raiseInt_proxies (b : Block) (p : PageRef) (n : Nat) : (b.raiseInt p n).proxies = b.proxies := by
  unfold Block.raiseInt; rw [Block.notify_proxies, Block.setFld_proxies]
@[simp] theorem Block.raiseInt_cmds (b : Block) (p : PageRef) (n : Nat) : (b.raiseInt p n).cmds = b.cmds := by
  unfold Block.raiseInt; rw [Block.notify_cmds, Block.setFld_cmds]
@[simp] theorem Block.raiseInt_nextCmd (b : Block) (p : PageRef) (n : Nat) : (b.raiseInt p n).nextCmd = b.nextCmd := by
  unfold Block.raiseInt; rw [Block.notify_nextCmd, Block.setFld_nextCmd]
@[simp] theorem Block.raiseInt_governor (b : Block) (p : PageRef) (n : Nat) : (b.raiseInt p n).governor = b.governor := by
  unfold Block.raiseInt; rw [Block.notify_governor, Block.setFld_governor]
@[simp] theorem Block.raiseInt_trf (b : Block) (p : PageRef) (n : Nat) : (b.raiseInt p n).trf = b.trf := by
  unfold Block.raiseInt; rw [Block.notify_trf, Block.setFld_trf]
@[simp] theorem Block.raiseInt_egress (b : Block) (p : PageRef) (n : Nat) : (b.raiseInt p n).egress = b.egress := by
  unfold Block.raiseInt; rw [Block.notify_egress, Block.setFld_egress]
@[simp] theorem Block.raiseInt_sessions (b : Block) (p : PageRef) (n : Nat) : (b.raiseInt p n).sessions = b.sessions := by
  unfold Block.raiseInt; rw [Block.notify_sessions, Block.setFld_sessions]
@[simp] theorem Block.raiseInt_indexes (b : Block) (p : PageRef) (n : Nat) : (b.raiseInt p n).indexes = b.indexes := by
  unfold Block.raiseInt; rw [Block.notify_indexes, Block.setFld_indexes]
@[simp] theorem Block.raiseInt_shardMap (b : Block) (p : PageRef) (n : Nat) : (b.raiseInt p n).shardMap = b.shardMap := by
  unfold Block.raiseInt; rw [Block.notify_shardMap, Block.setFld_shardMap]
@[simp] theorem Block.raiseInt_switching (b : Block) (p : PageRef) (n : Nat) : (b.raiseInt p n).switching = b.switching := by
  unfold Block.raiseInt; rw [Block.notify_switching, Block.setFld_switching]
@[simp] theorem Block.raiseInt_updates (b : Block) (p : PageRef) (n : Nat) : (b.raiseInt p n).updates = b.updates := by
  unfold Block.raiseInt; rw [Block.notify_updates, Block.setFld_updates]
@[simp] theorem Block.raiseInt_qpl (b : Block) (p : PageRef) (n : Nat) : (b.raiseInt p n).qpl = b.qpl := by
  unfold Block.raiseInt; rw [Block.notify_qpl, Block.setFld_qpl]
@[simp] theorem Block.raiseInt_dramParts (b : Block) (p : PageRef) (n : Nat) : (b.raiseInt p n).dramParts = b.dramParts := by
  unfold Block.raiseInt; rw [Block.notify_dramParts, Block.setFld_dramParts]
@[simp] theorem Block.raiseInt_dramTiles (b : Block) (p : PageRef) (n : Nat) : (b.raiseInt p n).dramTiles = b.dramTiles := by
  unfold Block.raiseInt; rw [Block.notify_dramTiles, Block.setFld_dramTiles]
@[simp] theorem Block.raiseInt_stackSet (b : Block) (p : PageRef) (n : Nat) : (b.raiseInt p n).stackSet = b.stackSet := by
  unfold Block.raiseInt; rw [Block.notify_stackSet, Block.setFld_stackSet]
@[simp] theorem Block.raiseInt_engines (b : Block) (p : PageRef) (n : Nat) : (b.raiseInt p n).engines = b.engines := by
  unfold Block.raiseInt; rw [Block.notify_engines, Block.setFld_engines]
@[simp] theorem Block.raiseInt_ops (b : Block) (p : PageRef) (n : Nat) : (b.raiseInt p n).ops = b.ops := by
  unfold Block.raiseInt; rw [Block.notify_ops, Block.setFld_ops]
@[simp] theorem Block.raiseInt_topks (b : Block) (p : PageRef) (n : Nat) : (b.raiseInt p n).topks = b.topks := by
  unfold Block.raiseInt; rw [Block.notify_topks, Block.setFld_topks]
@[simp] theorem Block.raiseInt_ftl (b : Block) (p : PageRef) (n : Nat) : (b.raiseInt p n).ftl = b.ftl := by
  unfold Block.raiseInt; rw [Block.notify_ftl, Block.setFld_ftl]
@[simp] theorem Block.raiseInt_bays (b : Block) (p : PageRef) (n : Nat) : (b.raiseInt p n).bays = b.bays := by
  unfold Block.raiseInt; rw [Block.notify_bays, Block.setFld_bays]
@[simp] theorem Block.raiseInt_regions (b : Block) (p : PageRef) (n : Nat) : (b.raiseInt p n).regions = b.regions := by
  unfold Block.raiseInt; rw [Block.notify_regions, Block.setFld_regions]
@[simp] theorem Block.raiseInt_nextLease (b : Block) (p : PageRef) (n : Nat) : (b.raiseInt p n).nextLease = b.nextLease := by
  unfold Block.raiseInt; rw [Block.notify_nextLease, Block.setFld_nextLease]
@[simp] theorem Block.raiseInt_publishes (b : Block) (p : PageRef) (n : Nat) : (b.raiseInt p n).publishes = b.publishes := by
  unfold Block.raiseInt; rw [Block.notify_publishes, Block.setFld_publishes]
@[simp] theorem Block.raiseInt_layers (b : Block) (p : PageRef) (n : Nat) : (b.raiseInt p n).layers = b.layers := by
  unfold Block.raiseInt; rw [Block.notify_layers, Block.setFld_layers]
@[simp] theorem Block.raiseInt_pushes (b : Block) (p : PageRef) (n : Nat) : (b.raiseInt p n).pushes = b.pushes := by
  unfold Block.raiseInt; rw [Block.notify_pushes, Block.setFld_pushes]
@[simp] theorem Block.raiseInt_discards (b : Block) (p : PageRef) (n : Nat) : (b.raiseInt p n).discards = b.discards := by
  unfold Block.raiseInt; rw [Block.notify_discards, Block.setFld_discards]
@[simp] theorem Block.raiseInt_cache (b : Block) (p : PageRef) (n : Nat) : (b.raiseInt p n).cache = b.cache := by
  unfold Block.raiseInt; rw [Block.notify_cache, Block.setFld_cache]
@[simp] theorem Block.raiseInt_roles (b : Block) (p : PageRef) (n : Nat) : (b.raiseInt p n).roles = b.roles := by
  unfold Block.raiseInt; rw [Block.notify_roles, Block.setFld_roles]
@[simp] theorem Block.raiseInt_tables (b : Block) (p : PageRef) (n : Nat) : (b.raiseInt p n).tables = b.tables := by
  unfold Block.raiseInt; rw [Block.notify_tables, Block.setFld_tables]
@[simp] theorem Block.raiseInt_gathers (b : Block) (p : PageRef) (n : Nat) : (b.raiseInt p n).gathers = b.gathers := by
  unfold Block.raiseInt; rw [Block.notify_gathers, Block.setFld_gathers]
@[simp] theorem Block.raiseInt_scatters (b : Block) (p : PageRef) (n : Nat) : (b.raiseInt p n).scatters = b.scatters := by
  unfold Block.raiseInt; rw [Block.notify_scatters, Block.setFld_scatters]
@[simp] theorem Block.raiseInt_tblSwitches (b : Block) (p : PageRef) (n : Nat) : (b.raiseInt p n).tblSwitches = b.tblSwitches := by
  unfold Block.raiseInt; rw [Block.notify_tblSwitches, Block.setFld_tblSwitches]
@[simp] theorem Block.raiseInt_seqs (b : Block) (p : PageRef) (n : Nat) : (b.raiseInt p n).seqs = b.seqs := by
  unfold Block.raiseInt; rw [Block.notify_seqs, Block.setFld_seqs]
@[simp] theorem Block.raiseInt_plc (b : Block) (p : PageRef) (n : Nat) : (b.raiseInt p n).plc = b.plc := by
  unfold Block.raiseInt; rw [Block.notify_plc, Block.setFld_plc]
@[simp] theorem Block.raiseInt_rope (b : Block) (p : PageRef) (n : Nat) : (b.raiseInt p n).rope = b.rope := by
  unfold Block.raiseInt; rw [Block.notify_rope, Block.setFld_rope]
@[simp] theorem Block.raiseInt_links (b : Block) (p : PageRef) (n : Nat) : (b.raiseInt p n).links = b.links := by
  unfold Block.raiseInt; rw [Block.notify_links, Block.setFld_links]
@[simp] theorem Block.raiseInt_transport (b : Block) (p : PageRef) (n : Nat) : (b.raiseInt p n).transport = b.transport := by
  unfold Block.raiseInt; rw [Block.notify_transport, Block.setFld_transport]
@[simp] theorem Block.raiseInt_health (b : Block) (p : PageRef) (n : Nat) : (b.raiseInt p n).health = b.health := by
  unfold Block.raiseInt; rw [Block.notify_health, Block.setFld_health]
@[simp] theorem Block.raiseInt_cores (b : Block) (p : PageRef) (n : Nat) : (b.raiseInt p n).cores = b.cores := by
  unfold Block.raiseInt; rw [Block.notify_cores, Block.setFld_cores]
@[simp] theorem Block.raiseInt_sec (b : Block) (p : PageRef) (n : Nat) : (b.raiseInt p n).sec = b.sec := by
  unfold Block.raiseInt; rw [Block.notify_sec, Block.setFld_sec]
@[simp] theorem Block.raiseInt_tap (b : Block) (p : PageRef) (n : Nat) : (b.raiseInt p n).tap = b.tap := by
  unfold Block.raiseInt; rw [Block.notify_tap, Block.setFld_tap]
@[simp] theorem Block.raiseInt_nextId (b : Block) (p : PageRef) (n : Nat) : (b.raiseInt p n).nextId = b.nextId := by
  unfold Block.raiseInt; rw [Block.notify_nextId, Block.setFld_nextId]
@[simp] theorem Block.raiseInt_free (b : Block) (p : PageRef) (n : Nat) : (b.raiseInt p n).free = b.free := by
  unfold Block.raiseInt; rw [Block.notify_free, Block.setFld_free]
@[simp] theorem Block.raiseErr_meter (b : Block) (p : PageRef) (n k : Nat) : (b.raiseErr p n k).meter = b.meter := by
  simp only [Block.raiseErr]; rw [Block.notify_meter, apply_ite Block.meter, Block.put_meter, ite_self, Block.setFld_meter]
@[simp] theorem Block.raiseErr_stage (b : Block) (p : PageRef) (n k : Nat) : (b.raiseErr p n k).stage = b.stage := by
  simp only [Block.raiseErr]; rw [Block.notify_stage, apply_ite Block.stage, Block.put_stage, ite_self, Block.setFld_stage]
@[simp] theorem Block.raiseErr_resetKind (b : Block) (p : PageRef) (n k : Nat) : (b.raiseErr p n k).resetKind = b.resetKind := by
  simp only [Block.raiseErr]; rw [Block.notify_resetKind, apply_ite Block.resetKind, Block.put_resetKind, ite_self, Block.setFld_resetKind]
@[simp] theorem Block.raiseErr_bivouac (b : Block) (p : PageRef) (n k : Nat) : (b.raiseErr p n k).bivouac = b.bivouac := by
  simp only [Block.raiseErr]; rw [Block.notify_bivouac, apply_ite Block.bivouac, Block.put_bivouac, ite_self, Block.setFld_bivouac]
@[simp] theorem Block.raiseErr_fatal (b : Block) (p : PageRef) (n k : Nat) : (b.raiseErr p n k).fatal = b.fatal := by
  simp only [Block.raiseErr]; rw [Block.notify_fatal, apply_ite Block.fatal, Block.put_fatal, ite_self, Block.setFld_fatal]
@[simp] theorem Block.raiseErr_stuck (b : Block) (p : PageRef) (n k : Nat) : (b.raiseErr p n k).stuck = b.stuck := by
  simp only [Block.raiseErr]; rw [Block.notify_stuck, apply_ite Block.stuck, Block.put_stuck, ite_self, Block.setFld_stuck]
@[simp] theorem Block.raiseErr_kept (b : Block) (p : PageRef) (n k : Nat) : (b.raiseErr p n k).kept = b.kept := by
  simp only [Block.raiseErr]; rw [Block.notify_kept, apply_ite Block.kept, Block.put_kept, ite_self, Block.setFld_kept]
@[simp] theorem Block.raiseErr_sled (b : Block) (p : PageRef) (n k : Nat) : (b.raiseErr p n k).sled = b.sled := by
  simp only [Block.raiseErr]; rw [Block.notify_sled, apply_ite Block.sled, Block.put_sled, ite_self, Block.setFld_sled]
@[simp] theorem Block.raiseErr_latches (b : Block) (p : PageRef) (n k : Nat) : (b.raiseErr p n k).latches = b.latches := by
  simp only [Block.raiseErr]; rw [Block.notify_latches, apply_ite Block.latches, Block.put_latches, ite_self, Block.setFld_latches]
@[simp] theorem Block.raiseErr_injected (b : Block) (p : PageRef) (n k : Nat) : (b.raiseErr p n k).injected = b.injected := by
  simp only [Block.raiseErr]; rw [Block.notify_injected, apply_ite Block.injected, Block.put_injected, ite_self, Block.setFld_injected]
@[simp] theorem Block.raiseErr_resetting (b : Block) (p : PageRef) (n k : Nat) : (b.raiseErr p n k).resetting = b.resetting := by
  simp only [Block.raiseErr]; rw [Block.notify_resetting, apply_ite Block.resetting, Block.put_resetting, ite_self, Block.setFld_resetting]
@[simp] theorem Block.raiseErr_hostMem (b : Block) (p : PageRef) (n k : Nat) : (b.raiseErr p n k).hostMem = b.hostMem := by
  simp only [Block.raiseErr]; rw [Block.notify_hostMem, apply_ite Block.hostMem, Block.put_hostMem, ite_self, Block.setFld_hostMem]
@[simp] theorem Block.raiseErr_ports (b : Block) (p : PageRef) (n k : Nat) : (b.raiseErr p n k).ports = b.ports := by
  simp only [Block.raiseErr]; rw [Block.notify_ports, apply_ite Block.ports, Block.put_ports, ite_self, Block.setFld_ports]
@[simp] theorem Block.raiseErr_proxies (b : Block) (p : PageRef) (n k : Nat) : (b.raiseErr p n k).proxies = b.proxies := by
  simp only [Block.raiseErr]; rw [Block.notify_proxies, apply_ite Block.proxies, Block.put_proxies, ite_self, Block.setFld_proxies]
@[simp] theorem Block.raiseErr_cmds (b : Block) (p : PageRef) (n k : Nat) : (b.raiseErr p n k).cmds = b.cmds := by
  simp only [Block.raiseErr]; rw [Block.notify_cmds, apply_ite Block.cmds, Block.put_cmds, ite_self, Block.setFld_cmds]
@[simp] theorem Block.raiseErr_nextCmd (b : Block) (p : PageRef) (n k : Nat) : (b.raiseErr p n k).nextCmd = b.nextCmd := by
  simp only [Block.raiseErr]; rw [Block.notify_nextCmd, apply_ite Block.nextCmd, Block.put_nextCmd, ite_self, Block.setFld_nextCmd]
@[simp] theorem Block.raiseErr_governor (b : Block) (p : PageRef) (n k : Nat) : (b.raiseErr p n k).governor = b.governor := by
  simp only [Block.raiseErr]; rw [Block.notify_governor, apply_ite Block.governor, Block.put_governor, ite_self, Block.setFld_governor]
@[simp] theorem Block.raiseErr_trf (b : Block) (p : PageRef) (n k : Nat) : (b.raiseErr p n k).trf = b.trf := by
  simp only [Block.raiseErr]; rw [Block.notify_trf, apply_ite Block.trf, Block.put_trf, ite_self, Block.setFld_trf]
@[simp] theorem Block.raiseErr_egress (b : Block) (p : PageRef) (n k : Nat) : (b.raiseErr p n k).egress = b.egress := by
  simp only [Block.raiseErr]; rw [Block.notify_egress, apply_ite Block.egress, Block.put_egress, ite_self, Block.setFld_egress]
@[simp] theorem Block.raiseErr_sessions (b : Block) (p : PageRef) (n k : Nat) : (b.raiseErr p n k).sessions = b.sessions := by
  simp only [Block.raiseErr]; rw [Block.notify_sessions, apply_ite Block.sessions, Block.put_sessions, ite_self, Block.setFld_sessions]
@[simp] theorem Block.raiseErr_indexes (b : Block) (p : PageRef) (n k : Nat) : (b.raiseErr p n k).indexes = b.indexes := by
  simp only [Block.raiseErr]; rw [Block.notify_indexes, apply_ite Block.indexes, Block.put_indexes, ite_self, Block.setFld_indexes]
@[simp] theorem Block.raiseErr_shardMap (b : Block) (p : PageRef) (n k : Nat) : (b.raiseErr p n k).shardMap = b.shardMap := by
  simp only [Block.raiseErr]; rw [Block.notify_shardMap, apply_ite Block.shardMap, Block.put_shardMap, ite_self, Block.setFld_shardMap]
@[simp] theorem Block.raiseErr_switching (b : Block) (p : PageRef) (n k : Nat) : (b.raiseErr p n k).switching = b.switching := by
  simp only [Block.raiseErr]; rw [Block.notify_switching, apply_ite Block.switching, Block.put_switching, ite_self, Block.setFld_switching]
@[simp] theorem Block.raiseErr_updates (b : Block) (p : PageRef) (n k : Nat) : (b.raiseErr p n k).updates = b.updates := by
  simp only [Block.raiseErr]; rw [Block.notify_updates, apply_ite Block.updates, Block.put_updates, ite_self, Block.setFld_updates]
@[simp] theorem Block.raiseErr_qpl (b : Block) (p : PageRef) (n k : Nat) : (b.raiseErr p n k).qpl = b.qpl := by
  simp only [Block.raiseErr]; rw [Block.notify_qpl, apply_ite Block.qpl, Block.put_qpl, ite_self, Block.setFld_qpl]
@[simp] theorem Block.raiseErr_dramParts (b : Block) (p : PageRef) (n k : Nat) : (b.raiseErr p n k).dramParts = b.dramParts := by
  simp only [Block.raiseErr]; rw [Block.notify_dramParts, apply_ite Block.dramParts, Block.put_dramParts, ite_self, Block.setFld_dramParts]
@[simp] theorem Block.raiseErr_dramTiles (b : Block) (p : PageRef) (n k : Nat) : (b.raiseErr p n k).dramTiles = b.dramTiles := by
  simp only [Block.raiseErr]; rw [Block.notify_dramTiles, apply_ite Block.dramTiles, Block.put_dramTiles, ite_self, Block.setFld_dramTiles]
@[simp] theorem Block.raiseErr_stackSet (b : Block) (p : PageRef) (n k : Nat) : (b.raiseErr p n k).stackSet = b.stackSet := by
  simp only [Block.raiseErr]; rw [Block.notify_stackSet, apply_ite Block.stackSet, Block.put_stackSet, ite_self, Block.setFld_stackSet]
@[simp] theorem Block.raiseErr_engines (b : Block) (p : PageRef) (n k : Nat) : (b.raiseErr p n k).engines = b.engines := by
  simp only [Block.raiseErr]; rw [Block.notify_engines, apply_ite Block.engines, Block.put_engines, ite_self, Block.setFld_engines]
@[simp] theorem Block.raiseErr_ops (b : Block) (p : PageRef) (n k : Nat) : (b.raiseErr p n k).ops = b.ops := by
  simp only [Block.raiseErr]; rw [Block.notify_ops, apply_ite Block.ops, Block.put_ops, ite_self, Block.setFld_ops]
@[simp] theorem Block.raiseErr_topks (b : Block) (p : PageRef) (n k : Nat) : (b.raiseErr p n k).topks = b.topks := by
  simp only [Block.raiseErr]; rw [Block.notify_topks, apply_ite Block.topks, Block.put_topks, ite_self, Block.setFld_topks]
@[simp] theorem Block.raiseErr_ftl (b : Block) (p : PageRef) (n k : Nat) : (b.raiseErr p n k).ftl = b.ftl := by
  simp only [Block.raiseErr]; rw [Block.notify_ftl, apply_ite Block.ftl, Block.put_ftl, ite_self, Block.setFld_ftl]
@[simp] theorem Block.raiseErr_bays (b : Block) (p : PageRef) (n k : Nat) : (b.raiseErr p n k).bays = b.bays := by
  simp only [Block.raiseErr]; rw [Block.notify_bays, apply_ite Block.bays, Block.put_bays, ite_self, Block.setFld_bays]
@[simp] theorem Block.raiseErr_regions (b : Block) (p : PageRef) (n k : Nat) : (b.raiseErr p n k).regions = b.regions := by
  simp only [Block.raiseErr]; rw [Block.notify_regions, apply_ite Block.regions, Block.put_regions, ite_self, Block.setFld_regions]
@[simp] theorem Block.raiseErr_nextLease (b : Block) (p : PageRef) (n k : Nat) : (b.raiseErr p n k).nextLease = b.nextLease := by
  simp only [Block.raiseErr]; rw [Block.notify_nextLease, apply_ite Block.nextLease, Block.put_nextLease, ite_self, Block.setFld_nextLease]
@[simp] theorem Block.raiseErr_publishes (b : Block) (p : PageRef) (n k : Nat) : (b.raiseErr p n k).publishes = b.publishes := by
  simp only [Block.raiseErr]; rw [Block.notify_publishes, apply_ite Block.publishes, Block.put_publishes, ite_self, Block.setFld_publishes]
@[simp] theorem Block.raiseErr_layers (b : Block) (p : PageRef) (n k : Nat) : (b.raiseErr p n k).layers = b.layers := by
  simp only [Block.raiseErr]; rw [Block.notify_layers, apply_ite Block.layers, Block.put_layers, ite_self, Block.setFld_layers]
@[simp] theorem Block.raiseErr_pushes (b : Block) (p : PageRef) (n k : Nat) : (b.raiseErr p n k).pushes = b.pushes := by
  simp only [Block.raiseErr]; rw [Block.notify_pushes, apply_ite Block.pushes, Block.put_pushes, ite_self, Block.setFld_pushes]
@[simp] theorem Block.raiseErr_discards (b : Block) (p : PageRef) (n k : Nat) : (b.raiseErr p n k).discards = b.discards := by
  simp only [Block.raiseErr]; rw [Block.notify_discards, apply_ite Block.discards, Block.put_discards, ite_self, Block.setFld_discards]
@[simp] theorem Block.raiseErr_cache (b : Block) (p : PageRef) (n k : Nat) : (b.raiseErr p n k).cache = b.cache := by
  simp only [Block.raiseErr]; rw [Block.notify_cache, apply_ite Block.cache, Block.put_cache, ite_self, Block.setFld_cache]
@[simp] theorem Block.raiseErr_roles (b : Block) (p : PageRef) (n k : Nat) : (b.raiseErr p n k).roles = b.roles := by
  simp only [Block.raiseErr]; rw [Block.notify_roles, apply_ite Block.roles, Block.put_roles, ite_self, Block.setFld_roles]
@[simp] theorem Block.raiseErr_tables (b : Block) (p : PageRef) (n k : Nat) : (b.raiseErr p n k).tables = b.tables := by
  simp only [Block.raiseErr]; rw [Block.notify_tables, apply_ite Block.tables, Block.put_tables, ite_self, Block.setFld_tables]
@[simp] theorem Block.raiseErr_gathers (b : Block) (p : PageRef) (n k : Nat) : (b.raiseErr p n k).gathers = b.gathers := by
  simp only [Block.raiseErr]; rw [Block.notify_gathers, apply_ite Block.gathers, Block.put_gathers, ite_self, Block.setFld_gathers]
@[simp] theorem Block.raiseErr_scatters (b : Block) (p : PageRef) (n k : Nat) : (b.raiseErr p n k).scatters = b.scatters := by
  simp only [Block.raiseErr]; rw [Block.notify_scatters, apply_ite Block.scatters, Block.put_scatters, ite_self, Block.setFld_scatters]
@[simp] theorem Block.raiseErr_tblSwitches (b : Block) (p : PageRef) (n k : Nat) : (b.raiseErr p n k).tblSwitches = b.tblSwitches := by
  simp only [Block.raiseErr]; rw [Block.notify_tblSwitches, apply_ite Block.tblSwitches, Block.put_tblSwitches, ite_self, Block.setFld_tblSwitches]
@[simp] theorem Block.raiseErr_seqs (b : Block) (p : PageRef) (n k : Nat) : (b.raiseErr p n k).seqs = b.seqs := by
  simp only [Block.raiseErr]; rw [Block.notify_seqs, apply_ite Block.seqs, Block.put_seqs, ite_self, Block.setFld_seqs]
@[simp] theorem Block.raiseErr_plc (b : Block) (p : PageRef) (n k : Nat) : (b.raiseErr p n k).plc = b.plc := by
  simp only [Block.raiseErr]; rw [Block.notify_plc, apply_ite Block.plc, Block.put_plc, ite_self, Block.setFld_plc]
@[simp] theorem Block.raiseErr_rope (b : Block) (p : PageRef) (n k : Nat) : (b.raiseErr p n k).rope = b.rope := by
  simp only [Block.raiseErr]; rw [Block.notify_rope, apply_ite Block.rope, Block.put_rope, ite_self, Block.setFld_rope]
@[simp] theorem Block.raiseErr_links (b : Block) (p : PageRef) (n k : Nat) : (b.raiseErr p n k).links = b.links := by
  simp only [Block.raiseErr]; rw [Block.notify_links, apply_ite Block.links, Block.put_links, ite_self, Block.setFld_links]
@[simp] theorem Block.raiseErr_transport (b : Block) (p : PageRef) (n k : Nat) : (b.raiseErr p n k).transport = b.transport := by
  simp only [Block.raiseErr]; rw [Block.notify_transport, apply_ite Block.transport, Block.put_transport, ite_self, Block.setFld_transport]
@[simp] theorem Block.raiseErr_health (b : Block) (p : PageRef) (n k : Nat) : (b.raiseErr p n k).health = b.health := by
  simp only [Block.raiseErr]; rw [Block.notify_health, apply_ite Block.health, Block.put_health, ite_self, Block.setFld_health]
@[simp] theorem Block.raiseErr_cores (b : Block) (p : PageRef) (n k : Nat) : (b.raiseErr p n k).cores = b.cores := by
  simp only [Block.raiseErr]; rw [Block.notify_cores, apply_ite Block.cores, Block.put_cores, ite_self, Block.setFld_cores]
@[simp] theorem Block.raiseErr_sec (b : Block) (p : PageRef) (n k : Nat) : (b.raiseErr p n k).sec = b.sec := by
  simp only [Block.raiseErr]; rw [Block.notify_sec, apply_ite Block.sec, Block.put_sec, ite_self, Block.setFld_sec]
@[simp] theorem Block.raiseErr_tap (b : Block) (p : PageRef) (n k : Nat) : (b.raiseErr p n k).tap = b.tap := by
  simp only [Block.raiseErr]; rw [Block.notify_tap, apply_ite Block.tap, Block.put_tap, ite_self, Block.setFld_tap]
@[simp] theorem Block.raiseErr_nextId (b : Block) (p : PageRef) (n k : Nat) : (b.raiseErr p n k).nextId = b.nextId := by
  simp only [Block.raiseErr]; rw [Block.notify_nextId, apply_ite Block.nextId, Block.put_nextId, ite_self, Block.setFld_nextId]
@[simp] theorem Block.raiseErr_free (b : Block) (p : PageRef) (n k : Nat) : (b.raiseErr p n k).free = b.free := by
  simp only [Block.raiseErr]; rw [Block.notify_free, apply_ite Block.free, Block.put_free, ite_self, Block.setFld_free]

/-! ## Host memory -/

@[simp] theorem Block.hostWrite_meter (b : Block) (a : Nat) (bs : Bytes) : (b.hostWrite a bs).meter = b.meter := rfl
@[simp] theorem Block.hostWrite_stage (b : Block) (a : Nat) (bs : Bytes) : (b.hostWrite a bs).stage = b.stage := rfl
@[simp] theorem Block.hostWrite_resetKind (b : Block) (a : Nat) (bs : Bytes) : (b.hostWrite a bs).resetKind = b.resetKind := rfl
@[simp] theorem Block.hostWrite_bivouac (b : Block) (a : Nat) (bs : Bytes) : (b.hostWrite a bs).bivouac = b.bivouac := rfl
@[simp] theorem Block.hostWrite_fatal (b : Block) (a : Nat) (bs : Bytes) : (b.hostWrite a bs).fatal = b.fatal := rfl
@[simp] theorem Block.hostWrite_stuck (b : Block) (a : Nat) (bs : Bytes) : (b.hostWrite a bs).stuck = b.stuck := rfl
@[simp] theorem Block.hostWrite_kept (b : Block) (a : Nat) (bs : Bytes) : (b.hostWrite a bs).kept = b.kept := rfl
@[simp] theorem Block.hostWrite_sled (b : Block) (a : Nat) (bs : Bytes) : (b.hostWrite a bs).sled = b.sled := rfl
@[simp] theorem Block.hostWrite_regs (b : Block) (a : Nat) (bs : Bytes) : (b.hostWrite a bs).regs = b.regs := rfl
@[simp] theorem Block.hostWrite_latches (b : Block) (a : Nat) (bs : Bytes) : (b.hostWrite a bs).latches = b.latches := rfl
@[simp] theorem Block.hostWrite_injected (b : Block) (a : Nat) (bs : Bytes) : (b.hostWrite a bs).injected = b.injected := rfl
@[simp] theorem Block.hostWrite_resetting (b : Block) (a : Nat) (bs : Bytes) : (b.hostWrite a bs).resetting = b.resetting := rfl
@[simp] theorem Block.hostWrite_ports (b : Block) (a : Nat) (bs : Bytes) : (b.hostWrite a bs).ports = b.ports := rfl
@[simp] theorem Block.hostWrite_proxies (b : Block) (a : Nat) (bs : Bytes) : (b.hostWrite a bs).proxies = b.proxies := rfl
@[simp] theorem Block.hostWrite_cmds (b : Block) (a : Nat) (bs : Bytes) : (b.hostWrite a bs).cmds = b.cmds := rfl
@[simp] theorem Block.hostWrite_nextCmd (b : Block) (a : Nat) (bs : Bytes) : (b.hostWrite a bs).nextCmd = b.nextCmd := rfl
@[simp] theorem Block.hostWrite_governor (b : Block) (a : Nat) (bs : Bytes) : (b.hostWrite a bs).governor = b.governor := rfl
@[simp] theorem Block.hostWrite_trf (b : Block) (a : Nat) (bs : Bytes) : (b.hostWrite a bs).trf = b.trf := rfl
@[simp] theorem Block.hostWrite_egress (b : Block) (a : Nat) (bs : Bytes) : (b.hostWrite a bs).egress = b.egress := rfl
@[simp] theorem Block.hostWrite_sessions (b : Block) (a : Nat) (bs : Bytes) : (b.hostWrite a bs).sessions = b.sessions := rfl
@[simp] theorem Block.hostWrite_indexes (b : Block) (a : Nat) (bs : Bytes) : (b.hostWrite a bs).indexes = b.indexes := rfl
@[simp] theorem Block.hostWrite_shardMap (b : Block) (a : Nat) (bs : Bytes) : (b.hostWrite a bs).shardMap = b.shardMap := rfl
@[simp] theorem Block.hostWrite_switching (b : Block) (a : Nat) (bs : Bytes) : (b.hostWrite a bs).switching = b.switching := rfl
@[simp] theorem Block.hostWrite_updates (b : Block) (a : Nat) (bs : Bytes) : (b.hostWrite a bs).updates = b.updates := rfl
@[simp] theorem Block.hostWrite_qpl (b : Block) (a : Nat) (bs : Bytes) : (b.hostWrite a bs).qpl = b.qpl := rfl
@[simp] theorem Block.hostWrite_dramParts (b : Block) (a : Nat) (bs : Bytes) : (b.hostWrite a bs).dramParts = b.dramParts := rfl
@[simp] theorem Block.hostWrite_dramTiles (b : Block) (a : Nat) (bs : Bytes) : (b.hostWrite a bs).dramTiles = b.dramTiles := rfl
@[simp] theorem Block.hostWrite_stackSet (b : Block) (a : Nat) (bs : Bytes) : (b.hostWrite a bs).stackSet = b.stackSet := rfl
@[simp] theorem Block.hostWrite_engines (b : Block) (a : Nat) (bs : Bytes) : (b.hostWrite a bs).engines = b.engines := rfl
@[simp] theorem Block.hostWrite_ops (b : Block) (a : Nat) (bs : Bytes) : (b.hostWrite a bs).ops = b.ops := rfl
@[simp] theorem Block.hostWrite_topks (b : Block) (a : Nat) (bs : Bytes) : (b.hostWrite a bs).topks = b.topks := rfl
@[simp] theorem Block.hostWrite_ftl (b : Block) (a : Nat) (bs : Bytes) : (b.hostWrite a bs).ftl = b.ftl := rfl
@[simp] theorem Block.hostWrite_bays (b : Block) (a : Nat) (bs : Bytes) : (b.hostWrite a bs).bays = b.bays := rfl
@[simp] theorem Block.hostWrite_regions (b : Block) (a : Nat) (bs : Bytes) : (b.hostWrite a bs).regions = b.regions := rfl
@[simp] theorem Block.hostWrite_nextLease (b : Block) (a : Nat) (bs : Bytes) : (b.hostWrite a bs).nextLease = b.nextLease := rfl
@[simp] theorem Block.hostWrite_publishes (b : Block) (a : Nat) (bs : Bytes) : (b.hostWrite a bs).publishes = b.publishes := rfl
@[simp] theorem Block.hostWrite_layers (b : Block) (a : Nat) (bs : Bytes) : (b.hostWrite a bs).layers = b.layers := rfl
@[simp] theorem Block.hostWrite_pushes (b : Block) (a : Nat) (bs : Bytes) : (b.hostWrite a bs).pushes = b.pushes := rfl
@[simp] theorem Block.hostWrite_discards (b : Block) (a : Nat) (bs : Bytes) : (b.hostWrite a bs).discards = b.discards := rfl
@[simp] theorem Block.hostWrite_cache (b : Block) (a : Nat) (bs : Bytes) : (b.hostWrite a bs).cache = b.cache := rfl
@[simp] theorem Block.hostWrite_roles (b : Block) (a : Nat) (bs : Bytes) : (b.hostWrite a bs).roles = b.roles := rfl
@[simp] theorem Block.hostWrite_tables (b : Block) (a : Nat) (bs : Bytes) : (b.hostWrite a bs).tables = b.tables := rfl
@[simp] theorem Block.hostWrite_gathers (b : Block) (a : Nat) (bs : Bytes) : (b.hostWrite a bs).gathers = b.gathers := rfl
@[simp] theorem Block.hostWrite_scatters (b : Block) (a : Nat) (bs : Bytes) : (b.hostWrite a bs).scatters = b.scatters := rfl
@[simp] theorem Block.hostWrite_tblSwitches (b : Block) (a : Nat) (bs : Bytes) : (b.hostWrite a bs).tblSwitches = b.tblSwitches := rfl
@[simp] theorem Block.hostWrite_seqs (b : Block) (a : Nat) (bs : Bytes) : (b.hostWrite a bs).seqs = b.seqs := rfl
@[simp] theorem Block.hostWrite_plc (b : Block) (a : Nat) (bs : Bytes) : (b.hostWrite a bs).plc = b.plc := rfl
@[simp] theorem Block.hostWrite_rope (b : Block) (a : Nat) (bs : Bytes) : (b.hostWrite a bs).rope = b.rope := rfl
@[simp] theorem Block.hostWrite_links (b : Block) (a : Nat) (bs : Bytes) : (b.hostWrite a bs).links = b.links := rfl
@[simp] theorem Block.hostWrite_transport (b : Block) (a : Nat) (bs : Bytes) : (b.hostWrite a bs).transport = b.transport := rfl
@[simp] theorem Block.hostWrite_health (b : Block) (a : Nat) (bs : Bytes) : (b.hostWrite a bs).health = b.health := rfl
@[simp] theorem Block.hostWrite_cores (b : Block) (a : Nat) (bs : Bytes) : (b.hostWrite a bs).cores = b.cores := rfl
@[simp] theorem Block.hostWrite_sec (b : Block) (a : Nat) (bs : Bytes) : (b.hostWrite a bs).sec = b.sec := rfl
@[simp] theorem Block.hostWrite_tap (b : Block) (a : Nat) (bs : Bytes) : (b.hostWrite a bs).tap = b.tap := rfl
@[simp] theorem Block.hostWrite_nextId (b : Block) (a : Nat) (bs : Bytes) : (b.hostWrite a bs).nextId = b.nextId := rfl
@[simp] theorem Block.hostWrite_free (b : Block) (a : Nat) (bs : Bytes) : (b.hostWrite a bs).free = b.free := rfl
@[simp] theorem Block.hostWrite_out (b : Block) (a : Nat) (bs : Bytes) : (b.hostWrite a bs).out = b.out := rfl
@[simp] theorem Block.hostWrite_hostMem (b : Block) (a : Nat) (bs : Bytes) :
    (b.hostWrite a bs).hostMem = Memory.write b.hostMem a bs := rfl

/-! ## Meanings and the queue -/

@[simp] theorem State.onSled_pending (s : State) (f : Block → Block) : (s.onSled f).pending = s.pending := rfl
@[simp] theorem State.onSled_block (s : State) (f : Block → Block) : (s.onSled f).block = f s.block := rfl
@[simp] theorem State.onPowered_pending (s : State) (f : Block → Block) : (s.onPowered f).pending = s.pending := by
  unfold State.onPowered; split <;> rfl
@[simp] theorem State.on_pending (s : State) (f : Block → Block) : (s.on f).pending = s.pending := by
  unfold State.on; split <;> simp
@[simp] theorem State.onWrite_pending (s : State) (f : Block → Block) : (s.onWrite f).pending = s.pending := by
  simp [State.onWrite]
@[simp] theorem State.onRead_pending (s : State) (f : Block → Block) : (s.onRead f).pending = s.pending := by
  simp [State.onRead]

/-- In bivouac, and without package power, a meaning of the package changes nothing. -/
theorem State.on_frozen {s : State} (h : s.block.bivouac = true) (f : Block → Block) : s.on f = s := by
  simp [State.on, h]

theorem State.on_unpowered {s : State} (h : s.block.sled.power ≠ .on) (f : Block → Block) : s.on f = s := by
  unfold State.on State.onPowered; simp [h]

/-- Otherwise it is the change it names. -/
theorem State.on_awake {s : State} (hp : s.block.sled.power = .on) (hb : s.block.bivouac = false) (f : Block → Block) :
    s.on f = { s with block := f s.block } := by
  simp [State.on, State.onPowered, State.onSled, hp, hb]

theorem State.onPowered_on {s : State} (hp : s.block.sled.power = .on) (f : Block → Block) :
    s.onPowered f = { s with block := f s.block } := by
  simp [State.onPowered, State.onSled, hp]

theorem State.onWrite_open {s : State} (hp : s.block.sled.power = .on) (hb : s.block.bivouac = false)
    (hr : s.block.reachable = true) (f : Block → Block) : s.onWrite f = { s with block := f (s.block.bump pHlk 3) } := by
  simp [State.onWrite, State.on_awake hp hb, hr]

theorem State.onRead_open {s : State} (hp : s.block.sled.power = .on) (hb : s.block.bivouac = false)
    (hr : s.block.reachable = true) (f : Block → Block) : s.onRead f = { s with block := f (s.block.bump pHlk 2) } := by
  simp [State.onRead, State.on_awake hp hb, hr]

end Sys2Proof.Machine
end

