-- ==== Sys2Proof/Laws/Regs.lean ====
section
/-! SUPPORT. Laws of register fields and of the register file: a field written reads back, and no other field changes. -/

namespace Sys2Proof

theorem bits_lt (v : BitVec 64) (lo w : Nat) : bits v lo w < 2 ^ w := Nat.mod_lt _ (Nat.two_pow_pos w)

theorem toNat_setBits (v : BitVec 64) {lo w : Nat} (n : Nat) (h : lo + w ≤ 64) :
    (setBits v lo w n).toNat = v.toNat % 2 ^ lo + n % 2 ^ w * 2 ^ lo + v.toNat / 2 ^ (lo + w) * 2 ^ (lo + w) := by
  have h1 : v.toNat % 2 ^ lo < 2 ^ lo := Nat.mod_lt _ (Nat.two_pow_pos lo)
  have h2 : n % 2 ^ w + 1 ≤ 2 ^ w := Nat.mod_lt _ (Nat.two_pow_pos w)
  have h3 : (n % 2 ^ w + 1) * 2 ^ lo ≤ 2 ^ w * 2 ^ lo := Nat.mul_le_mul_right _ h2
  have h4 : 2 ^ (lo + w) = 2 ^ w * 2 ^ lo := by rw [Nat.pow_add, Nat.mul_comm]
  have h5 : 2 ^ 64 = 2 ^ (64 - (lo + w)) * 2 ^ (lo + w) := by rw [← Nat.pow_add]; congr 1; omega
  have h6 : v.toNat / 2 ^ (lo + w) + 1 ≤ 2 ^ (64 - (lo + w)) := by
    apply Nat.div_lt_of_lt_mul
    rw [Nat.mul_comm, ← h5]; exact v.isLt
  have h7 : (v.toNat / 2 ^ (lo + w) + 1) * 2 ^ (lo + w) ≤ 2 ^ 64 := by
    rw [h5]; exact Nat.mul_le_mul_right _ h6
  unfold setBits
  rw [BitVec.toNat_ofNat, Nat.mod_eq_of_lt]
  rw [Nat.add_mul] at h3 h7
  omega

/-- The field written reads back. -/
theorem bits_setBits_same (v : BitVec 64) {lo w n : Nat} (h : lo + w ≤ 64) : bits (setBits v lo w n) lo w = n % 2 ^ w := by
  have h1 : v.toNat % 2 ^ lo < 2 ^ lo := Nat.mod_lt _ (Nat.two_pow_pos lo)
  unfold bits
  rw [toNat_setBits v n h]
  have e : v.toNat % 2 ^ lo + n % 2 ^ w * 2 ^ lo + v.toNat / 2 ^ (lo + w) * 2 ^ (lo + w) =
      v.toNat % 2 ^ lo + (n % 2 ^ w + v.toNat / 2 ^ (lo + w) * 2 ^ w) * 2 ^ lo := by
    rw [Nat.pow_add, Nat.add_mul, Nat.mul_assoc (v.toNat / (2 ^ lo * 2 ^ w)), Nat.mul_comm (2 ^ w) (2 ^ lo)]; omega
  rw [e, Nat.add_mul_div_right _ _ (Nat.two_pow_pos lo), Nat.div_eq_of_lt h1, Nat.zero_add, Nat.add_mul_mod_self_right,
    Nat.mod_mod]

/-- No field below or above the one written changes. -/
theorem bits_setBits_other (v : BitVec 64) {lo w lo' w' : Nat} (n : Nat) (h : lo + w ≤ 64)
    (hd : lo' + w' ≤ lo ∨ lo + w ≤ lo') : bits (setBits v lo w n) lo' w' = bits v lo' w' := by
  have h1 : v.toNat % 2 ^ lo < 2 ^ lo := Nat.mod_lt _ (Nat.two_pow_pos lo)
  unfold bits
  rw [toNat_setBits v n h]
  rcases hd with hd | hd
  · have e1 : 2 ^ lo = 2 ^ (lo - (lo' + w')) * 2 ^ (lo' + w') := by rw [← Nat.pow_add]; congr 1; omega
    have e2 : v.toNat % 2 ^ lo + n % 2 ^ w * 2 ^ lo + v.toNat / 2 ^ (lo + w) * 2 ^ (lo + w) =
        v.toNat % 2 ^ lo + (n % 2 ^ w + v.toNat / 2 ^ (lo + w) * 2 ^ w) * 2 ^ (lo - (lo' + w')) * 2 ^ (lo' + w') := by
      rw [Nat.mul_assoc, ← e1, Nat.add_mul, Nat.pow_add, Nat.mul_assoc (v.toNat / (2 ^ lo * 2 ^ w)),
        Nat.mul_comm (2 ^ w) (2 ^ lo)]; omega
    have e3 : v.toNat % 2 ^ lo % 2 ^ (lo' + w') = v.toNat % 2 ^ (lo' + w') :=
      Nat.mod_mod_of_dvd _ (Nat.pow_dvd_pow 2 hd)
    rw [e2, ← Nat.mod_mul_right_div_self, ← Nat.mod_mul_right_div_self, ← Nat.pow_add, Nat.add_mul_mod_self_right, e3]
  · have e1 : 2 ^ lo' = 2 ^ (lo + w) * 2 ^ (lo' - (lo + w)) := by rw [← Nat.pow_add]; congr 1; omega
    have h2 : n % 2 ^ w + 1 ≤ 2 ^ w := Nat.mod_lt _ (Nat.two_pow_pos w)
    have h3 : (n % 2 ^ w + 1) * 2 ^ lo ≤ 2 ^ w * 2 ^ lo := Nat.mul_le_mul_right _ h2
    have h4 : v.toNat % 2 ^ lo + n % 2 ^ w * 2 ^ lo < 2 ^ (lo + w) := by
      rw [Nat.pow_add, Nat.mul_comm (2 ^ lo)]; rw [Nat.add_mul] at h3; omega
    rw [e1, ← Nat.div_div_eq_div_mul, ← Nat.div_div_eq_div_mul, Nat.add_mul_div_right _ _ (Nat.two_pow_pos _),
      Nat.div_eq_of_lt h4, Nat.zero_add]

namespace Machine

/-- The register written reads back. -/
theorem Block.reg_setReg_same {b : Block} (h : swfBy resetValue b.regs = true) (a : Nat) (v : BitVec 64) :
    (b.setReg a v).reg a = v := sget_sset_by h

/-- No other register changes. -/
theorem Block.reg_setReg_other (b : Block) {a c : Nat} (v : BitVec 64) (h : c ≠ a) : (b.setReg a v).reg c = b.reg c :=
  sget_sset_by_other h

theorem Block.setReg_canonical {b : Block} (h : swfBy resetValue b.regs = true) (a : Nat) (v : BitVec 64) :
    swfBy resetValue (b.setReg a v).regs = true := sset_swfBy h

/-- The field written reads back. -/
theorem Block.fld_setFld_same {b : Block} (h : swfBy resetValue b.regs = true) (p : PageRef) (off : Nat) {lo w n : Nat}
    (hw : lo + w ≤ 64) : (b.setFld p off lo w n).fld p off lo w = n % 2 ^ w := by
  unfold Block.fld Block.setFld
  rw [Block.reg_setReg_same h]
  exact bits_setBits_same _ hw

/-- A field of another register does not change. -/
theorem Block.fld_setFld_other (b : Block) {p q : PageRef} {off off' : Nat} (lo w n lo' w' : Nat)
    (h : q.at off' ≠ p.at off) : (b.setFld p off lo w n).fld q off' lo' w' = b.fld q off' lo' w' := by
  unfold Block.fld Block.setFld
  rw [Block.reg_setReg_other _ _ h]

/-- Another field of the register written does not change. -/
theorem Block.fld_setFld_disjoint {b : Block} (h : swfBy resetValue b.regs = true) (p : PageRef) (off : Nat)
    {lo w lo' w' : Nat} (n : Nat) (hw : lo + w ≤ 64) (hd : lo' + w' ≤ lo ∨ lo + w ≤ lo') :
    (b.setFld p off lo w n).fld p off lo' w' = b.fld p off lo' w' := by
  unfold Block.fld Block.setFld
  rw [Block.reg_setReg_same h]
  exact bits_setBits_other _ _ hw hd

theorem Block.setFld_canonical {b : Block} (h : swfBy resetValue b.regs = true) (p : PageRef) (off lo w n : Nat) :
    swfBy resetValue (b.setFld p off lo w n).regs = true := sset_swfBy h

end Machine

end Sys2Proof
end

