-- ==== Sys2Proof/Tests/Decide.lean ====
section
/-! SUPPORT. How the tests decide the premises of a statement: what a premise names is looked up, and a test stands for each
premise that Lean cannot decide by itself. -/

namespace Sys2Proof.Tests

open Sys2Proof.Machine

set_option maxRecDepth 100000
set_option synthInstance.maxHeartbeats 400000
set_option synthInstance.maxSize 4000

/-! ## How the premises of a statement are decided -/

/-- The canonical form, as one test. -/
def canonicalTest (b : Block) : Bool :=
  b.hostMem.wf && swfBy resetValue b.regs && swf none b.latches && swf 0 b.injected && swf {} b.ports && swf none b.proxies &&
  swf {} b.sessions && swf {} b.indexes && swf {} b.stackSet && swf {} b.engines && swf {} b.bays && swf {} b.links &&
  (match b.kept with | some k => swf {} k.indexes | none => true)

theorem canonical_iff {b : Block} : canonicalTest b = true ↔ b.Canonical := by
  constructor
  · intro h
    simp only [canonicalTest, Bool.and_eq_true] at h
    obtain ⟨⟨⟨⟨⟨⟨⟨⟨⟨⟨⟨⟨h1, h2⟩, h3⟩, h4⟩, h5⟩, h6⟩, h7⟩, h8⟩, h9⟩, h10⟩, h11⟩, h12⟩, h13⟩ := h
    refine ⟨h1, h2, h3, h4, h5, h6, h7, h8, h9, h10, h11, h12, fun k e => ?_⟩
    rw [e] at h13; exact h13
  · rintro ⟨h1, h2, h3, h4, h5, h6, h7, h8, h9, h10, h11, h12, h13⟩
    simp only [canonicalTest, h1, h2, h3, h4, h5, h6, h7, h8, h9, h10, h11, h12, Bool.and_self, Bool.true_and]
    cases e : b.kept with
    | none => rfl
    | some k => exact h13 k e

/-- The canonical form of the parts, as one test. -/
def partsTest (b : Block) : Bool :=
  swf {} b.governor.domains && swf {} b.trf.flows && swf {} b.trf.shapers && swf 0 b.trf.hwm && swf {} b.sec.slots &&
  swf {} b.sec.firmware && swf {} b.transport.rx && swf 0 b.transport.macs && swf none b.cores.jobs && swf {} b.cores.mxcs &&
  swf [] b.cores.staging && swf [] b.cores.fenced && swf .empty b.cores.stores && swf {} b.health.bands && b.cmds.all (fun c => c.area.wf) &&
  b.cores.threads.all (fun t => t.frame.wf)

theorem parts_iff {b : Block} : partsTest b = true ↔ b.CanonicalParts := by
  constructor
  · intro h
    simp only [partsTest, Bool.and_eq_true, List.all_eq_true] at h
    obtain ⟨⟨⟨⟨⟨⟨⟨⟨⟨⟨⟨⟨⟨⟨⟨h1, h2⟩, h3⟩, h4⟩, h5⟩, h6⟩, h7⟩, h8⟩, h9⟩, h10⟩, h11⟩, h12⟩, h13⟩, h14⟩, h15⟩, h16⟩ := h
    exact ⟨h1, h2, h3, h4, h5, h6, h7, h8, h9, h10, h11, h12, h13, h14, h15, h16⟩
  · rintro ⟨h1, h2, h3, h4, h5, h6, h7, h8, h9, h10, h11, h12, h13, h14, h15, h16⟩
    simp only [partsTest, Bool.and_eq_true, List.all_eq_true]
    exact ⟨⟨⟨⟨⟨⟨⟨⟨⟨⟨⟨⟨⟨⟨⟨h1, h2⟩, h3⟩, h4⟩, h5⟩, h6⟩, h7⟩, h8⟩, h9⟩, h10⟩, h11⟩, h12⟩, h13⟩, h14⟩, h15⟩, h16⟩

/-- The command at work and its block, as `Handed` gives them. -/
def handedAt (s : Block) (id op : Nat) (f : Cmd → List Nat) : Option (Cmd × Block) :=
  match s.cmd id with
  | none => none
  | some d =>
    match (if throttled op then (f d).filter (fun n => !s.admitClosed n) else f d).head? with
    | none => none
    | some die =>
      if d.phase = .handed ∧ d.opcode = op ∧ s.passed d.deadline = false ∧ (d.payValid = false ∨ d.pay.space ≠ 1) ∧ s.recheck d = .pass ∧
         s.sled.power = .on ∧ s.bivouac = false ∧ canonicalTest s = true ∧ partsTest s = true ∧
         f { d with phase := .working, die := die, admitted := true } = f d then
        some ({ d with phase := .working, die := die, admitted := true },
          (s.deliver d).setCmd id (fun c => { c with phase := .working, die := die, admitted := true }))
      else none

theorem handed_of {s : Block} {q : List Instr} {id op : Nat} {f : Cmd → List Nat} {c : Cmd} {b : Block}
    (h : handedAt s id op f = some (c, b)) : Handed ⟨q, s⟩ id op (f c) c b := by
  simp only [handedAt] at h
  split at h
  · cases h
  · rename_i d hd
    split at h
    · cases h
    · rename_i die hdie
      split at h
      · rename_i hp
        obtain ⟨p1, p2, p3, p4, p4', p5, p6, p7, p8, p9⟩ := hp
        cases h
        refine ⟨⟨p5, p6⟩, canonical_iff.mp p7, parts_iff.mp p8, d, die, hd, p1, p2, p3, p4', ?_, p4, rfl, rfl⟩
        rw [p9]; exact hdie
      · cases h

/-- A decision that tells the truth when a test says yes. -/
noncomputable def yes {p : Prop} (t : Bool) (h : t = true → p) : Decidable p :=
  match t, h with
  | true, h => isTrue (h rfl)
  | false, _ => Classical.propDecidable p

/-- The premise that a command has been handed over, decided by looking at the block. -/
noncomputable def decHanded (s : Block) (q : List Instr) (id op : Nat) (f : Cmd → List Nat) (P : Cmd → Block → Prop)
    [∀ c b, Decidable (P c b)] : Decidable (∃ c b, Handed ⟨q, s⟩ id op (f c) c b ∧ P c b) :=
  match e : handedAt s id op f with
  | none => Classical.propDecidable _
  | some (c, b) => yes (decide (P c b)) (fun h => ⟨c, b, handed_of e, of_decide_eq_true h⟩)

/-- A premise that names what an option holds. -/
noncomputable def decSome {α : Type} (e : Option α) (P : α → Prop) [∀ x, Decidable (P x)] :
    Decidable (∃ x, e = some x ∧ P x) :=
  match e with
  | none => Classical.propDecidable _
  | some y => yes (decide (P y)) (fun h => ⟨y, rfl, of_decide_eq_true h⟩)

/-- The same of a pair. -/
noncomputable def decSome2 {α β : Type} (e : Option (α × β)) (P : α → β → Prop) [∀ x y, Decidable (P x y)] :
    Decidable (∃ x y, e = some (x, y) ∧ P x y) :=
  match e with
  | none => Classical.propDecidable _
  | some (x, y) => yes (decide (P x y)) (fun h => ⟨x, y, rfl, of_decide_eq_true h⟩)

/-- A premise of all that an option holds. -/
noncomputable def decIfSome {α : Type} (e : Option α) (P : α → Prop) [∀ x, Decidable (P x)] :
    Decidable (∀ x, e = some x → P x) :=
  match e with
  | none => isTrue (by rintro x h; cases h)
  | some y => yes (decide (P y)) (fun h => by rintro x e; cases e; exact of_decide_eq_true h)

/-- A premise that names a value. -/
noncomputable def decEq1 {α : Type} (e : α) (P : α → Prop) [Decidable (P e)] : Decidable (∃ x, x = e ∧ P x) :=
  yes (decide (P e)) (fun h => ⟨e, rfl, of_decide_eq_true h⟩)

noncomputable def decEq2 {α : Type} (e : α) (P : α → Prop) [Decidable (P e)] : Decidable (∃ x, e = x ∧ P x) :=
  yes (decide (P e)) (fun h => ⟨e, rfl, of_decide_eq_true h⟩)

/-- Of a thread: its job's number, its job and itself. -/
noncomputable def decSome3 {α β γ : Type} (e : Option (α × β × γ)) (P : α → β → γ → Prop) [∀ x y z, Decidable (P x y z)] :
    Decidable (∃ x y z, e = some (x, y, z) ∧ P x y z) :=
  match e with
  | none => Classical.propDecidable _
  | some (x, y, z) => yes (decide (P x y z)) (fun h => ⟨x, y, z, rfl, of_decide_eq_true h⟩)

/-- The premise that a thread can issue. -/
noncomputable def decReady (b : Block) (t : ThreadRef) (P : Nat → Job → Thread → Prop) [∀ j x y, Decidable (P j x y)] :
    Decidable (∃ j x y, Ready b t j x y ∧ P j x y) :=
  match e : b.thread t with
  | none => Classical.propDecidable _
  | some (j, x, y) =>
    yes (decide (((y.waiting = none ∧ y.parked = false) ∧ b.coreRuns t.cluster.val = true ∧ y.pc + 4 ≤ x.codeLen ∧ b.turn t = true ∧
        sget 0 b.injected (pScl t.cluster.val).base = 0) ∧ P j x y))
      (fun h => match of_decide_eq_true h with
        | ⟨⟨h1, h2, h3, h4, h5⟩, p⟩ => ⟨j, x, y, ⟨e, h1, h2, h4, h5, h3⟩, p⟩)

/-- What a computation answers that may refuse. -/
noncomputable def decOk {ε α : Type} (e : Except ε α) (P : α → Prop) [∀ x, Decidable (P x)] :
    Decidable (∃ x, e = .ok x ∧ P x) :=
  match e with
  | .error _ => Classical.propDecidable _
  | .ok y => yes (decide (P y)) (fun h => ⟨y, rfl, of_decide_eq_true h⟩)
noncomputable def decOk2 {ε α β : Type} (e : Except ε (α × β)) (P : α → β → Prop) [∀ x y, Decidable (P x y)] :
    Decidable (∃ x y, e = .ok (x, y) ∧ P x y) :=
  match e with
  | .error _ => Classical.propDecidable _
  | .ok (x, y) => yes (decide (P x y)) (fun h => ⟨x, y, rfl, of_decide_eq_true h⟩)

noncomputable def decTakes (b : Block) (r : CounterRef) : Decidable (Takes b r) :=
  decIfSome (b.ctrInfo r) (fun i => (b.ctr r i.init).value + 1 ≤ i.bound)
noncomputable def decCanonical (b : Block) : Decidable b.Canonical := yes (canonicalTest b) canonical_iff.mp
noncomputable def decParts (b : Block) : Decidable b.CanonicalParts := yes (partsTest b) parts_iff.mp
noncomputable def decAwake (s : State) : Decidable s.awake := yes (decide (s.block.sled.power = .on) && !s.block.bivouac)
  (fun h => by simpa [State.awake] using h)
noncomputable def decOpen (s : State) : Decidable s.open_ :=
  yes (decide (s.block.sled.power = .on) && !s.block.bivouac && s.block.reachable) (fun h => by simpa [State.open_, State.awake] using h)

/-- A premise of every entry of a list, and of some entry. -/
def decAll {α : Type} (l : List α) (P : α → Prop) [∀ x, Decidable (P x)] : Decidable (∀ x, x ∈ l → P x) :=
  List.decidableBAll P l
def decSomeIn {α : Type} (l : List α) (P : α → Prop) [∀ x, Decidable (P x)] : Decidable (∃ x, x ∈ l ∧ P x) :=
  List.decidableBEx P l

/-- A premise that an option holds something. -/
noncomputable def decHas {α : Type} (e : Option α) : Decidable (∃ x, e = some x) :=
  match e with
  | none => Classical.propDecidable _
  | some y => isTrue ⟨y, rfl⟩

/-- A search of an opcode other than SEARCH_HYBRID can be bound. -/
noncomputable def decBindable (b : Block) (c : Cmd) (die : Nat) (x : Search) (ver cairn : Nat) (v : Version) :
    Decidable (Bindable b c die x ver cairn v) :=
  yes (decide (b.passed c.deadline = false ∧ b.running pIdx = true ∧ x.encode = false ∧ c.opcode ≠ 0x12 ∧
      (b.index x.index).bind x.version x.cairn = .bound ver cairn ∧ (b.index x.index).version ver = some v ∧
      boundCheck v.root x.dim x.terms = false ∧ (b.searchPlaces x.index v).all b.placeReady = true ∧
      b.ctxUsed die + x.queries.length ≤ 131072 ∧ b.lanePurging c.pitch = false))
    (fun h => match of_decide_eq_true h with
      | ⟨h1, h2, h3, h4, h5, h6, h7, h8, h9, h10⟩ =>
        ⟨h1, h2, h3, fun e => absurd e h4, h5, h6, h7, List.all_eq_true.mp h8, h9, h10⟩)

/-- A WAIT that is not asked for holds; one that is, where its counter has the value. -/
noncomputable def decWaitHolds (b : Block) (m : Fin 64) (en : Bool) (ctr n : Nat) : Decidable (WaitHolds b m en ctr n) :=
  match en with
  | false => isTrue (by intro h; cases h)
  | true => match e : b.ctrInfo (.matrix m (Fin.ofNat 64 ctr)) with
    | none => Classical.propDecidable _
    | some i => yes (decide (n ≤ i.bound ∧ n ≤ (b.ctr (.matrix m (Fin.ofNat 64 ctr)) i.init).value))
        (fun h _ => ⟨i, e, (of_decide_eq_true h).1, (of_decide_eq_true h).2⟩)

noncomputable def decFoldHome (w : WriteWhat) : Decidable (∃ t v k, w = .fold t v k ∨ w = .home t v) :=
  match w with
  | .fold t v k => isTrue ⟨t, v, k, .inl rfl⟩
  | .home t v => isTrue ⟨t, v, [], .inr rfl⟩
  | _ => Classical.propDecidable _

/-- Work that erases no block. -/
def decNoErase (w : SlowWork) : Decidable (∀ (r : BlockRef) (x : Bool), w ≠ .erase r x) :=
  match w with
  | .erase r x => isFalse (fun h => h r x rfl)
  | .tile _ _ | .move _ | .rebuild => isTrue (by intro r x h; cases h)

noncomputable def decRowBlock (i : ItemRef) : Decidable (∃ t k, i = .rowBlock t k) :=
  match i with
  | .rowBlock t k => isTrue ⟨t, k, rfl⟩
  | .shard _ _ => Classical.propDecidable _

/-- The place that a move copies to or from, in staging SRAM or in the result reference. -/
noncomputable def decStaging (p : MovePlace) (P : Nat → Prop) [∀ a, Decidable (P a)] : Decidable (∀ a, p = .staging a → P a) :=
  match p with
  | .staging a => yes (decide (P a)) (fun h => by intro b e; cases e; exact of_decide_eq_true h)
  | .result _ => isTrue (by intro a h; cases h)
noncomputable def decResult (p : MovePlace) (P : Nat → Prop) : Decidable (∀ o, p = .result o → P o) :=
  match p with
  | .staging _ => isTrue (by intro o h; cases h)
  | .result _ => Classical.propDecidable _

noncomputable def decCore (r : CounterRef) : Decidable (∃ c u k, r = .core c u k) :=
  match r with
  | .core c u k => isTrue ⟨c, u, k, rfl⟩
  | .matrix _ _ => Classical.propDecidable _

noncomputable def decRowTable (b : Block) (i : ItemRef) (P : Table → Prop) [∀ x, Decidable (P x)] :
    Decidable (∀ (t k : Nat) (x : Table), i = .rowBlock t k → b.tableOf t = some x → P x) :=
  match i with
  | .shard _ _ => isTrue (by intro t k x h; cases h)
  | .rowBlock t k => match e : b.tableOf t with
    | none => isTrue (by intro t' k' x h h'; cases h; rw [e] at h'; cases h')
    | some x => yes (decide (P x)) (fun h => by
        intro t' k' x' q q'; cases q; rw [e] at q'; cases q'; exact of_decide_eq_true h)

/-- No armed errors, and no work that waits. -/
noncomputable def decQuiet (b : Block) (p : PageRef) : Decidable (Quiet b p) :=
  yes (decide (sget 0 b.injected p.base = 0)) of_decide_eq_true
noncomputable def decCalm (b : Block) (p : PageRef) : Decidable (Calm b p) :=
  yes (decide (p.type ≠ .slu ∨ ∀ o ∈ b.ops, o.unit ≠ none) && decide (p.type ≠ .flc)) (fun h => by
    simp only [Bool.and_eq_true, decide_eq_true_eq] at h
    exact ⟨fun e => h.1.resolve_left (fun n => n e), fun e => absurd e h.2⟩)

/-- A module alone owns and keeps everything. -/
theorem pick_alone {b : Block} (n : Nat) (h : b.places = [b.place]) : b.pickPlace n = b.place := by
  rw [Block.pickPlace, h]; simp [Nat.mod_one]
noncomputable def decOwned (b : Block) (ix : Nat) (l : List UpdRec) : Decidable (∀ r, r ∈ l → b.ownerOf ix r.vid ∈ b.places) :=
  yes (decide (b.places = [b.place] ∧ (b.index ix).owners = [])) (fun h r _ => by
    obtain ⟨h1, h2⟩ := of_decide_eq_true h
    simp only [Block.ownerOf, h2, Block.fixedPlace, if_true, pick_alone _ h1]
    rw [h1]; exact List.mem_singleton.mpr rfl)
noncomputable def decKept (b : Block) (t : Nat) : Decidable (b.tableKeeper t = b.place) := if e : (b.tableOf t).isSome then inferInstance else
  yes (decide (b.places = [b.place]) && (b.tableOf t).isNone) (fun h => by
    simp only [Bool.and_eq_true, decide_eq_true_eq, Option.isNone_iff_eq_none] at h
    rw [Block.tableKeeper, h.2]; exact pick_alone _ h.1)

/-- What holds by the decisions above. -/
theorem met {p : Prop}
    (f : [∀ b : Block, Decidable b.Canonical] → [∀ b : Block, Decidable b.CanonicalParts] → [∀ s : State, Decidable s.awake] →
      [∀ s : State, Decidable s.open_] →
      [∀ (s : Block) (q : List Instr) (id op : Nat) (f : Cmd → List Nat) (P : Cmd → Block → Prop) [∀ c b, Decidable (P c b)],
        Decidable (∃ c b, Handed ⟨q, s⟩ id op (f c) c b ∧ P c b)] →
      [∀ {α : Type} (e : Option α) (P : α → Prop) [∀ x, Decidable (P x)], Decidable (∃ x, e = some x ∧ P x)] →
      [∀ {α β : Type} (e : Option (α × β)) (P : α → β → Prop) [∀ x y, Decidable (P x y)], Decidable (∃ x y, e = some (x, y) ∧ P x y)] →
      [∀ {α : Type} (e : Option α) (P : α → Prop) [∀ x, Decidable (P x)], Decidable (∀ x, e = some x → P x)] →
      [∀ {α : Type} (l : List α) (P : α → Prop) [∀ x, Decidable (P x)], Decidable (∀ x, x ∈ l → P x)] →
      [∀ {α : Type} (l : List α) (P : α → Prop) [∀ x, Decidable (P x)], Decidable (∃ x, x ∈ l ∧ P x)] →
      [∀ {α : Type} (e : α) (P : α → Prop) [Decidable (P e)], Decidable (∃ x, x = e ∧ P x)] →
      [∀ {α : Type} (e : α) (P : α → Prop) [Decidable (P e)], Decidable (∃ x, e = x ∧ P x)] →
      [∀ {α β γ : Type} (e : Option (α × β × γ)) (P : α → β → γ → Prop) [∀ x y z, Decidable (P x y z)],
        Decidable (∃ x y z, e = some (x, y, z) ∧ P x y z)] →
      [∀ (b : Block) (t : ThreadRef) (P : Nat → Job → Thread → Prop) [∀ j x y, Decidable (P j x y)],
        Decidable (∃ j x y, Ready b t j x y ∧ P j x y)] →
      [∀ {ε α : Type} (e : Except ε α) (P : α → Prop) [∀ x, Decidable (P x)], Decidable (∃ x, e = .ok x ∧ P x)] →
      [∀ {ε α β : Type} (e : Except ε (α × β)) (P : α → β → Prop) [∀ x y, Decidable (P x y)], Decidable (∃ x y, e = .ok (x, y) ∧ P x y)] →
      [∀ (b : Block) (r : CounterRef), Decidable (Takes b r)] → [∀ {α : Type} (e : Option α), Decidable (∃ x, e = some x)] →
      [∀ (b : Block) (c : Cmd) (die : Nat) (x : Search) (ver cairn : Nat) (v : Version), Decidable (Bindable b c die x ver cairn v)] →
      [∀ (b : Block) (m : Fin 64) (en : Bool) (ctr n : Nat), Decidable (WaitHolds b m en ctr n)] →
      [∀ w : WriteWhat, Decidable (∃ t v k, w = .fold t v k ∨ w = .home t v)] →
      [∀ w : SlowWork, Decidable (∀ (r : BlockRef) (x : Bool), w ≠ .erase r x)] → [∀ i : ItemRef, Decidable (∃ t k, i = .rowBlock t k)] →
      [∀ r : CounterRef, Decidable (∃ c u k, r = .core c u k)] →
      [∀ (b : Block) (i : ItemRef) (P : Table → Prop) [∀ x, Decidable (P x)],
        Decidable (∀ (t k : Nat) (x : Table), i = .rowBlock t k → b.tableOf t = some x → P x)] →
      [∀ (b : Block) (ix : Nat) (l : List UpdRec), Decidable (∀ r, r ∈ l → b.ownerOf ix r.vid ∈ b.places)] →
      [∀ (b : Block) (t : Nat), Decidable (b.tableKeeper t = b.place)] → [∀ (b : Block) (p : PageRef), Decidable (Quiet b p)] →
      [∀ (b : Block) (p : PageRef), Decidable (Calm b p)] →
      [∀ (p : MovePlace) (P : Nat → Prop) [∀ a, Decidable (P a)], Decidable (∀ a, p = .staging a → P a)] →
      [∀ (p : MovePlace) (P : Nat → Prop), Decidable (∀ o, p = .result o → P o)] → Decidable p)
    (h : @decide p (@f decCanonical decParts decAwake decOpen decHanded @decSome @decSome2 @decIfSome @decAll @decSomeIn @decEq1 @decEq2 @decSome3 decReady
      @decOk @decOk2 decTakes @decHas decBindable decWaitHolds decFoldHome decNoErase decRowBlock decCore decRowTable decOwned decKept decQuiet decCalm
      @decStaging @decResult) = true) : p :=
  @of_decide_eq_true p (@f decCanonical decParts decAwake decOpen decHanded @decSome @decSome2 @decIfSome @decAll @decSomeIn @decEq1 @decEq2 @decSome3 decReady
      @decOk @decOk2 decTakes @decHas decBindable decWaitHolds decFoldHome decNoErase decRowBlock decCore decRowTable decOwned decKept decQuiet decCalm
      @decStaging @decResult) h

end Sys2Proof.Tests
end

