-- ==== Sys2Proof/Tests/Fixtures.lean ====
section
/-! SUPPORT. Small states and operands for the tests. -/

namespace Sys2Proof.Tests

open Sys2Proof Sys2Proof.Machine

/-- LUN 0 of target 0 of a channel; block 0 of it. -/
def fxLun (channel : Fin 64) : LunRef := ⟨channel, 0, 0⟩
def fxBlk (channel : Fin 64) : BlockRef := ⟨fxLun channel, 0⟩

/-- A block with registers at some values. -/
def fxWith (b : Block) (l : List (Nat × Nat)) : Block := l.foldl (fun b e => b.setReg e.1 (BitVec.ofNat 64 e.2)) b

/-- Start-up is done and nothing else has happened. -/
def fxDone : Block := { stage := .done }

/-- The package has no power. -/
def fxOff : Block := { stage := .done, sled := { power := .off } }

/-- The module is in bivouac. -/
def fxBivouac : Block := { stage := .done, bivouac := true }

/-- The register window does not answer. -/
def fxBoot : Block := { stage := .boot }

/-- A cause of SCL page 3 is waiting and enabled. -/
def fxCause : Block := { stage := .done, regs := [((pScl 3).at 0x20, 2), ((pScl 3).at 0x24, 2)] }

/-- The upper half of a 64-bit register is latched. -/
def fxLatch : Block := { stage := .done, latches := [(pHlk.at 0x110, some 5)] }

/-- SCL page 3 in a state of its own. -/
def fxScl (n : Nat) : Block := { stage := .done, regs := [((pScl 3).at 0x0C, BitVec.ofNat 64 n)] }

/-- A soft reset of SCL page 3 has not ended. -/
def fxResetting : Block := { stage := .done, resetting := [pScl 3] }

/-- The debug page runs. -/
def fxDbg : Block := { stage := .done, regs := [(pDbg.at 0x0C, 2)] }

/-- The configuration is locked. -/
def fxLocked : Block := { stage := .done, regs := [(pGlb.at 0x118, 1)] }

/-- Start-up at a stage, after a reset of a kind. -/
def fxStage (g : Stage) (k : ResetKind) : Block := { stage := g, resetKind := k }

/-- Package power removed for a cause. -/
def fxTripped (n : Nat) : Block := { stage := .done, sled := { power := .tripped n } }

/-- The write-back of a power-off runs. -/
def fxPoweringOff : Block := { stage := .done, sled := { poweringOff := true } }

/-- The module is joined to a rope. -/
def fxJoined : Block := { stage := .done, rope := { jstate := 3 } }

/-- A domain braked by a sag sensor, and one whose hold runs. -/
def fxSag : Block := { stage := .done, meter := 5000, governor := { domains := [(0, { asserted := [1], sag := 2 }), (1, { sag := 2, holdStart := some 0 })] } }

/-- The same hold, not yet over. -/
def fxHold : Block := { stage := .done, meter := 0, governor := { domains := [(1, { sag := 2, holdStart := some 0 })] } }

/-- Caps of 1,000 W with a hysteresis of 5 W, and a run of evaluations. -/
def fxCaps (start : Option Nat) : Block := { stage := .done, meter := 20000, regs := [(pPwr.at 0x114, 0x03E803E8), (pPwr.at 0x118, 0x00050010)], governor := { cap := 3, runStart := start } }

/-- The tenancy at a state: 1 SERVING, 2 RELEASING. -/
def fxTenancy (n : Nat) : Block := fxWith fxDone [(pSec.at 0x100, n)]

/-- The same in a rope. -/
def fxTenancyJoined : Block := fxWith fxJoined [(pSec.at 0x100, 1)]

/-- An image of one byte that fails its checks is being verified; a pending image waits. -/
def fxVerifying : Block := { fxWith fxDone [(pSec.at 0x14C, 0x100)] with sec := { verifying := some [0], firmware := [(0, { pending := some [1] })] } }

/-- An attestation report is being written. -/
def fxReport : Block := fxWith fxDone [(pSec.at 0x154, 2)]

/-- A debug grant with every permission; the test access port is free. -/
def fxGranted (frozen : Bool) : Block := { fxWith fxDone [(pDbg.at 0x100, 2), (pDbg.at 0x104, 7)] with bivouac := frozen, tap := { reset := false } }

/-- The test access port is free, and a challenge has been drawn. -/
def fxTap : Block := { fxDone with tap := { reset := false }, sec := { challenge := List.replicate 64 7 } }

/-- The field-lock fuse is blown. -/
def fxFused : Block := { fxDone with sled := { fuses := 1 }, tap := { reset := false } }

/-- Session 0 in a state, with slot 0 armed for endpoint 9 and failures counted. -/
def fxSlot (st : SessState) (fails : Nat) : Block :=
  { fxWith fxDone [(pSec.at 0x100, 1), (pKwt.at 0x0C, 2)] with
    meter := 100000, sec := { slots := [(0, { st := 1, key := [1], peer := 9, rights := 0x7F, fails := fails })] }
    sessions := if st = .closed then [] else [(0, { state := st, endpoint := 9, rights := 0x7F })] }

/-- A descriptor of R54: opcode, valid bits of the references, session SEQ, object, payload and result reference, PARAMS. -/
def fxDesc (op valid seq object : Nat) (pay res : Nat × Nat × Nat) (params : Nat) : Bytes :=
  let ref (r : Nat × Nat × Nat) : Bytes := toLe r.1 8 ++ toLe r.2.1 4 ++ toLe r.2.2 4
  toLe op 1 ++ toLe valid 1 ++ toLe 0 2 ++ toLe 1000 3 ++ toLe 0 1 ++ toLe seq 4 ++ toLe object 2 ++ toLe 0 2 ++
    ref pay ++ ref res ++ toLe params 16

/-- SESSION_OPEN and SESSION_PROVE of session 0 from endpoint 9. -/
def fxOpen : OpenMsg := ⟨0, 9, fxDesc 0x70 3 0 0 (64, 64, 2) (0, 64, 2) 0, List.replicate 64 3⟩
def fxProve : OpenMsg := ⟨0, 9, fxDesc 0x71 3 0 0 (64, 64, 2) (0, 128, 2) 0, List.replicate 64 3⟩

/-- A command in flight. -/
def fxCmd (id : Nat) (src : Source) (raw : Bytes) (phase : Phase) : Cmd :=
  { id := id, src := src, raw := raw, body := [], accepted := 0, deadline := none, pitch := none, phase := phase, die := 0, cairn := 0 }

/-- SESSION_CLOSE of session 0 has been handed over. -/
def fxClose : Block :=
  { fxSlot .opened 0 with cmds := [fxCmd 0 (.session 0 1) (fxDesc 0x72 0 1 0 (0, 0, 0) (0, 0, 0) 0) .handed], nextCmd := 1 }

/-- Session 0 is closing; a second command of it is in flight or not. -/
def fxClosing (other : Bool) : Block :=
  { fxSlot .opened 0 with
    sessions := [(0, { state := .closing, endpoint := 9, closing := some 0 })], nextCmd := 2
    cmds := fxCmd 0 (.session 0 1) (fxDesc 0x72 0 1 0 (0, 0, 0) (0, 0, 0) 0) .working ::
      (if other then [fxCmd 1 (.session 0 2) (fxDesc 0x31 0 2 0 (0, 0, 0) (0, 0, 0) 0) .working] else []) }

/-- A sampling round of queues 0 and 64 is due at a ring of 8 records at 0x1000 that holds some. -/
def fxRing (used : Nat) : Block := { fxWith fxDone [(pTrf.at 0x110, 1), (pTrf.at 0x114, 10), (pTrf.at 0x118, 0x1000),
  (pTrf.at 0x120, 8), (pTrf.at 0x124, used), (pTrf.at 0x130, 1), (pTrf.at 0x138, 1)] with meter := 100000, trf := { round := 7 } }

/-- No sampling. -/
def fxNoRing : Block := fxWith fxDone [(pTrf.at 0x118, 0x1000), (pTrf.at 0x120, 8), (pTrf.at 0x130, 1)]

/-- A port that is enabled with one credit, its post window, and the pages that a command needs RUNNING. -/
def fxPort (violated : Bool) : Block :=
  { fxWith fxDone [(pHlk.at 0x0C, 2), (pTrf.at 0x0C, 2), (pIdx.at 0x0C, 2), ((pQpl 0).at 0x0C, 2), ((pSlu 0).at 0x0C, 2), (pSec.at 0x100, 1),
      (pHlk.at 0x108, 0x10000), (pHlk.at 0x118, 0x100000), (pHlk.at 0x800, 1)] with
    ports := if violated then [(0, { violated := true })] else [] }

/-- The same with its one command in flight. -/
def fxPortFull : Block := { fxPort false with cmds := [fxCmd 0 (.port 0) (fxDesc 0x20 2 0 0 (64, 64, 0) (0, 0, 0) 0) .queued], nextCmd := 1 }

/-- A port that is disabled and has a command in flight. -/
def fxPortBusy : Block := { fxDone with cmds := [fxCmd 0 (.port 0) (fxDesc 0x20 2 0 0 (64, 64, 0) (0, 0, 0) 0) .queued], nextCmd := 1 }

/-- The bytes of a post: UPSERT. -/
def fxPost : Bytes := fxDesc 0x20 2 0 0 (64, 64, 0) (0, 0, 0) 0

/-- Two commands of one group wait in TRF, the second in an earlier lane; a message waits to leave. -/
def fxQueues : Block :=
  { fxPortFull with
    cmds := [fxCmd 0 (.port 0) (fxDesc 0x20 2 0 0 (64, 64, 0) (0, 0, 0) 0) .queued, fxCmd 1 (.port 0) (fxDesc 0x20 2 0 0 (64, 64, 0) (0, 0, 0) 0) .queued]
    nextCmd := 2
    trf := { entries := [⟨.command 0, 8, false, 1, 0, none, none⟩, ⟨.command 1, 0, false, 1, 0, some 0, none⟩] }
    egress := [⟨64, [1], 0, { toward := .place 1, cls := 0, kind := .ack }⟩] }

/-- A meter staged for port 0's flow with good parameters, or with none. -/
def fxMeter (good : Bool) : Block :=
  fxWith fxDone ((pTrf.at 0x140, 4096) :: (if good then [(pTrf.at 0x148, 1), (pTrf.at 0x14C, 2), (pTrf.at 0x150, 1), (pTrf.at 0x154, 1)] else []))

/-- The root of a version of index 0: one dimension, one sub-space, one entry node. -/
def fxRoot : Root :=
  { index := 0, version := 1, floor := 0, dim := 1, fmt := 0, metric := 0, m := 1, code8 := false, degree := 1, attrBytes := 0,
    partitions := 1, vectors := 1, cb4 := 0, cb8 := 0, dir := 0, graph := 0, idTile := 0, vecTile := 0, attrTile := 0, tiles := 1,
    entry := [0], schema := List.replicate 16 0 }

/-- Version 1 of index 0, CURRENT: shard 0 with partition 0 of one vector. -/
def fxVersion : Version :=
  { root := fxRoot, state := .current, shards := [0]
    parts := [{ number := 0, code8 := false, first := 0, slots := [⟨7, [0], [0, 0], []⟩] }]
    nodes := [⟨0, 7, [], [0, 0]⟩] }

/-- The query header of R123 for one query of one dimension, with a posting row or none. -/
def fxHeader (posting : Bool) : Bytes :=
  toLe 1 2 ++ toLe 0 10 ++ toLe 1 2 ++ toLe 0 2 ++ (if posting then toLe 1 2 ++ toLe 1 2 ++ toLe 1 4 else [])

/-- A search of index 0: K, WIDTH and WAVES of 1, a named cairn. -/
def fxSearchRaw (op cairn : Nat) : Bytes :=
  fxDesc op 3 0 0 (64, 256, 0) (4096, 64, 0) (cairn * 2 ^ 32 + 2 ^ 80 + 2 ^ 91 + 2 ^ 98)

/-- A module that serves index 0 and table 1, with no command. -/
def fxServing (hybrid : Bool) : Block :=
  { fxPort false with
    hostMem := Memory.write [] 64 (fxHeader hybrid), indexes := [(0, { versions := [fxVersion] })], shardMap := [((0, 0), 0)]
    tables := [{ number := 1, efmt := 1, prio := 0, retain := 0, rows := 4, rowBytes := 16, keeper := 0,
                 versions := [⟨1, [(0, toLe 0 4 ++ toLe 0xFFFFFFFF 4 ++ toLe 0 8)]⟩] }]
    plc := { blockMap := [((1, 0), 0)] } }

/-- A search handed over, with a deadline. -/
def fxSearch (op cairn : Nat) : Block :=
  { fxServing (op == 0x12) with
    cmds := [{ fxCmd 0 (.port 0) (fxSearchRaw op cairn) .handed with deadline := some 1000 }], nextCmd := 1 }

/-- A search that waits unbound. -/
def fxWaiting (op cairn : Nat) (meter : Nat) : Block :=
  { fxServing (op == 0x12) with
    meter := meter, cmds := [{ fxCmd 0 (.port 0) (fxSearchRaw op cairn) .working with deadline := some 1000 }], nextCmd := 1
    qpl := { searches := [(fxSearch op cairn).newSearch { fxCmd 0 (.port 0) (fxSearchRaw op cairn) .working with deadline := some 1000 }] } }

/-- A shard request for shard 0. -/
def fxShardReq (waves : Nat) : ShardReq :=
  { fromPlace := 1, reqId := 3, index := 0, version := 1, cairn := 0, query := [0], table4 := List.replicate 16 0, table8 := [], k := 1,
    width := 1, waves := waves, refine := 0, noSkip := false, terms := [], budget := 100, shards := [0],
    side := false, op := 0x10 }

/-- A context that serves it, its shard at some point. -/
def fxShardCtx (h : ShardRun) : Block :=
  { fxServing false with
    qpl := { nextCtx := 1, ctxs := [{ id := 0, die := 0, work := .shard (fxShardReq 3), index := 0, version := 1, cairn := 0, deadline := some 1000,
                                      pitch := none, shards := [h, { shard := 1 }] }] } }

/-- An entry of a pool. -/
def fxEntry (d vid : Nat) : Entry := ⟨d, vid, 0, 0, true, true, 0, 0⟩

/-- A search of one query with its context bound, the query at some point. -/
def fxQuery (op refine : Nat) (q : QueryRun) (ops : List SluOp) : Block :=
  { fxServing false with
    cmds := [{ fxCmd 0 (.port 0) (fxSearchRaw op 0) .working with deadline := some 1000 }], nextCmd := 1, ops := ops, nextId := 1
    qpl := { nextCtx := 1
             ctxs := [{ id := 0, die := 0, work := .admitted 0 0, index := 0, version := 1, cairn := 0, deadline := some 1000, pitch := none }]
             searches := [{ (fxSearch op 0).newSearch (fxCmd 0 (.port 0) (fxSearchRaw op 0) .working) with
                            refine := refine, queries := [q], bound := true, ctxs := [0] }] } }

/-- A selection operation in a slot of unit 0, or waiting. -/
def fxOp (w : OpWork) (u : Option Nat) : SluOp := ⟨0, w, 0, some 1000, u⟩

/-- A shard's merge in its slot. -/
def fxMerge : Block :=
  { fxShardCtx { shard := 0, ranked := some [0, 0], returns := [[fxEntry 1 7], [fxEntry 2 8]] } with ops := [fxOp (.shardMerge 0 (some 0)) (some 0)], nextId := 1 }

/-- Operations wait for a slot; with four, the slots of unit 0 are full. -/
def fxOps (full : Bool) : Block :=
  { fxPort false with nextId := 9, ops := fxOp (.poolMerge 5 0) none ::
      (if full then (List.range 4).map (fun i => ⟨i + 1, .poolMerge (6 + i) 0, 0, none, some 0⟩) else [⟨1, .poolMerge 6 0, 0, none, none⟩]) }

/-- Pitches run; the first has ended or not, and a lane purges. -/
def fxPitch (meter : Nat) : Block :=
  { fxPort false with meter := meter, qpl := { running := true, purging := [3] }, trf := { entries := [⟨.command 9, 0, false, 1, 0, some 0, none⟩] } }

/-- TOPK of a row of two bytes, K 1: handed over, or at work on its first row of two. -/
def fxTopkRaw : Bytes := fxDesc 0x13 3 0 0 (64, 256, 0) (4096, 1024, 0) (2 + 2 * 2 ^ 32 + 2 ^ 64 + 3 * 2 ^ 75 + 64 * 2 ^ 96)
def fxTopk : Block := { fxPort false with cmds := [fxCmd 0 (.port 0) fxTopkRaw .handed], nextCmd := 1 }
def fxTopkRow : Block :=
  { fxPort false with cmds := [fxCmd 0 (.port 0) fxTopkRaw .working], nextCmd := 1, ops := [fxOp (.topkRow 0 0) (some 0)], nextId := 1
                      topks := [{ cmd := 0, rows := 2, next := 1 }] }

/-- An update that holds a cairn. -/
def fxUpdate : Block :=
  { fxPort false with
    meter := 100000, nextCmd := 1, cmds := [{ fxCmd 0 (.port 0) (fxDesc 0x21 2 0 0 (64, 64, 0) (0, 0, 0) 0) .working with deadline := some 10000 }]
    updates := [{ cmd := 0, index := 0, kind := .delete, records := 1, ids := [7], step := .record, waiting := [], owners := [0], cairn := 1 }] }

/-- A segment of some codes of one byte in bank 0. -/
def fxSegment (count : Nat) : Segment := { stack := 0, unit := 0, bank := 0, row := 0, byte := 0, size := 1, slot := 0, count := count }

/-- A sweep of unit 0 for context 0. -/
def fxSweep (st : SweepState) : Sweep :=
  { id := 5, stack := 0, unit := 0, seg := fxSegment (if st = .returning then 1 else 4096), ctx := 0, part := 0, keep := 1,
    table := List.replicate 16 0, deadline := some 1000, state := st }

/-- Stack 0 at work on a sweep, with requests that wait. -/
def fxStack (st : SweepState) (waiting : List DramReq) (quota : Nat) : Block :=
  { fxWith (fxShardCtx { shard := 0, ranked := some [0], awaiting := [0] })
      [((pMem 0).at 0x0C, 2), ((pPim 0).at 0x0C, 2), ((pPim 0).at 0x104, quota)] with
    stackSet := [(0, { sweeps := [fxSweep st], waiting := waiting })], nextId := 6
    dramTiles := [{ index := 0, version := 1, tile := 0, stack := 0, unit := 0, bank := 0, row := 9 }] }

/-- A sweep of unit 0 that steps and is to yield at step 64. -/
def fxYielding (waiting : List DramReq) : Block :=
  { fxStack .stepping waiting 512 with
    stackSet := [(0, { sweeps := [{ fxSweep .stepping with yieldAt := some 64 }], waiting := waiting })] }

/-- Unit 3 of stack 0 is fenced. -/
def fxFenced : Block := { fxDone with stackSet := [(0, { fenced := [3] })] }

/-- A controller request at die 0, bank 0. -/
def fxReq (row : Nat) (write : Option Bytes) (bad : Bool) : DramReq :=
  { die := 0, bank := 0, row := row, col := 0, write := write, len := 4, cmd := none, uncorrectable := bad }

/-- A refinement item for the search of command 0, or for place 1; a cold-scan item for context 0. -/
def fxRefine (place : Nat) : RefineItem :=
  { qpl := 0, fromPlace := place, cmd := 0, query := 0, op := 0x10, index := 0, version := 1, vector := [0], deadline := 1000, cands := [fxEntry 1 7] }
def fxCold : ColdItem :=
  { qpl := 0, ctx := 0, index := 0, version := 1, cairn := 0, part := 0, table := List.replicate 16 0, keep := 1, terms := [], deadline := 1000 }

/-- Engine 0 runs with some credits and items, at a reading, beside a search and its context. -/
def fxEngine (credits : Nat) (items : List Item) (meter : Nat) (page : Nat) : Block :=
  { fxWith (fxQuery 0x10 2 { vector := [], pool := some [fxEntry 1 7] } []) [((pFlc 0).at 0x0C, page), ((pFlc 4).at 0x0C, 2)] with
    meter := meter, bays := [(0, { st := 5 }), (1, { st := 5 })], nextId := 6
    engines := if items = [] ∧ credits = 96 then [] else [(0, { items := items, credits := (credits, 96) })] }

/-- An item of engine 0. -/
def fxItem (w : ItemWork) (st : ItemState) (id : Nat) : Item := { id := id, work := w, channel := 0, deadline := some (1000 + id), state := st }

/-- The same engine, the search asking for its refinement. -/
def fxAsked (credits : Nat) : Block :=
  let q := (fxQuery 0x10 2 { vector := [0], pool := some [fxEntry 1 7], asked := true } []).qpl
  { fxEngine credits [] 0 2 with qpl := { q with searches := q.searches.map (fun x => { x with version := 1 }) } }

/-- Engine 0 runs; a context waits for partition 0, whose codes flash holds. -/
def fxColdCtx (items : List Item) : Block :=
  { fxWith (fxShardCtx { shard := 0, ranked := some [0], awaiting := [0] }) [((pFlc 0).at 0x0C, 2)] with
    bays := [(0, { st := 5 })], engines := if items = [] then [] else [(0, { items := items, credits := (95, 96) })], nextId := 6 }

/-- Every bay is ONLINE and FTL runs, so that pages can be written. -/
def fxMedia : Block :=
  { fxWith (fxPort false) [(pFtl.at 0x0C, 2)] with
    bays := (List.range 16).map (fun n => (n, { st := 5, present := true, rail := true, serial := n + 1, capacity := 1024, targets := 2, luns := 2, gen := 1 })) }

/-- Core 0 of cluster 3, its thread 0. -/
def fxRef : ThreadRef := ⟨3, 0, 0⟩

/-- A job RUNNING on cluster 3 and matrix core 2, with a code section of 16 bytes and counters of bound 100 at 5. -/
def fxJobOf (service : Bool) (realign : Nat) : Job :=
  { st := .running, service := service, rope := false, determ := false, threads := 1, realign := realign, frame := 512, invMax := 2, invIn := 64,
    invOut := 64, codeLen := 16, check := 0, counters := List.replicate 48 (100, 5), clusters := [3], mxcs := [2],
    mxRealign := realign, mxCounters := List.replicate 64 (100, 5), runCmd := if service then none else some 0 }

/-- Thread 0 with registers and a frame of its own. -/
def fxThread (frame : Bytes) : Thread :=
  { ref := fxRef, job := 0, s := (List.range 32).map (fun n => BitVec.ofNat 32 (n * 0x3F000001)), v := (List.range 16).map (fun n => BitVec.ofNat 128 (n * 0x81FF7F)),
    frame := Memory.write [] 0 frame }

/-- The job runs with thread 0 in a state of its own. -/
def fxRun (x : Job) (ys : List Thread) : Block :=
  { fxWith (fxPort false) [((pScl 3).at 0x0C, 2), ((pMxc 2).at 0x0C, 2)] with
    cores := { jobs := [(0, some x)], threads := ys }, nextCmd := 1, cmds := [fxCmd 0 (.port 0) (fxDesc 0x41 0 0 0 (0, 0, 0) (0, 0, 0) 0) .working] }

/-- A thread of the job waits on counter 0 for an amount. -/
def fxParked (n : Nat) : Block :=
  { fxRun (fxJobOf false 0) [{ fxThread [1] with parked := true, waiting := some (.ctr 0 n) }] with meter := 9 }

/-- Signals on their way: two from one thread to counter 0 of its core, and one to matrix core 2. -/
def fxSignals (realign n : Nat) : Block :=
  { fxRun (fxJobOf false realign) [fxThread [1]] with nextId := 9, cores := { (fxRun (fxJobOf false realign) [fxThread [1]]).cores with
      signals := [⟨0, some fxRef, .core 3 0 0, n, 0⟩, ⟨1, some fxRef, .core 3 0 0, n, 0⟩, ⟨5, none, .matrix 2 0, n, 0⟩] } }

/-- A key of tile 0 of entry 0's form, as R364 lays it out. -/
def fxKey : Bytes := [3, 0] ++ toLe 4 2 ++ toLe 0 4 ++ toLe 0 4 ++ toLe 1 2 ++ List.replicate 18 0

/-- Block moves and a tier request of thread 0 in flight. -/
def fxMoves (toFrame killed : Bool) : Block :=
  { fxRun (fxJobOf false 0) [fxThread fxKey] with
    nextId := 9, layers := [{ object := 4, layer := 1, gen := 0, prio := 0, tiles := [⟨[1, 2, 3], { stack := 0 }⟩] }]
    cores := { (fxRun (fxJobOf false 0) [fxThread fxKey]).cores with
      moves := [⟨0, fxRef, 0, toFrame, 64, .staging 128, 64, 1, killed, none, false⟩], tiles := [⟨5, fxRef, 0, fxKey, 0, 1, killed, false⟩] } }

/-- A signal that thread 0 gave after its moves. -/
def fxSigHeld : Block :=
  { fxMoves true false with cores := { (fxMoves true false).cores with signals := [⟨9, some fxRef, .core 3 0 0, 1, 0⟩] } }

/-- A block move of thread 0 from its frame, or of a thread that has executed END with the bytes it left; its run has a result
reference. -/
def fxMoveTo (place : MovePlace) (after : Option Bytes) : Block :=
  { fxRun (fxJobOf false 0) [fxThread fxKey] with
    nextId := 9, cmds := [fxCmd 0 (.port 0) (fxDesc 0x41 1 0 0 (0, 0, 0) (4096, 64, 0) 0) .working]
    cores := { (fxRun (fxJobOf false 0) [fxThread fxKey]).cores with moves := [⟨0, fxRef, 0, false, 64, place, 64, 1, false, after, false⟩] } }

/-- A thread of the context of a shard request, on a cluster that serves search. -/
def fxWalk : Block :=
  { fxWith (fxShardCtx { shard := 0 }) [((pScl 3).at 0x0C, 2)] with
    cores := { threads := [{ fxThread [] with job := 64, role := some (.walk 0), room := 8192, ctrs := List.replicate 48 (100, 5) }] } }

/-- A service job with an invocation that waits, is held, or is taken. -/
def fxService (l : List Invocation) : Block :=
  { fxRun { fxJobOf true 0 with queue := l, nextInv := 1 } [fxThread [1]] with
    cmds := [fxCmd 0 (.port 0) (fxDesc 0x41 3 0 0 (64, 64, 0) (4096, 64, 0) 1) .working] }

/-- An invocation of command 0. -/
def fxInv (slot : Option Nat) (taken ended : Bool) : Invocation :=
  { number := 0, cmd := some 0, input := List.replicate 64 1, deadline := none, slot := slot, taken := taken, ended := ended }

/-- A job that is LOADED, LOADING or RUNNING, and a command for it handed over. -/
def fxJobCmd (st : JobState) (service : Bool) (op flags params : Nat) : Block :=
  { fxRun { fxJobOf service 0 with st := st, runCmd := if st = .running ∧ !service then some 1 else none, loadCmd := if st = .loading then some 0 else none } [] with
    nextCmd := 2
    cmds := [fxCmd 0 (.port 0) (fxDesc op flags 0 0 (64, 64, 0) (4096, 64, 0) params) (if st = .loading then .working else .handed), fxCmd 1 (.port 0) (fxDesc 0x41 0 0 0 (0, 0, 0) (0, 0, 0) 0) .working] }

/-- The same job STOPPING, to be unloaded or not, on an idle machine. -/
def fxStopping (unload : Bool) : Block :=
  { fxRun { fxJobOf false 0 with st := .stopping, stopCmd := some 0, unload := unload } [] with
    nextCmd := 1, cmds := [fxCmd 0 (.port 0) (fxDesc 0x42 0 0 0 (64, 64, 0) (4096, 64, 0) (if unload then 1 else 0)) .working] }

/-- The header of a batch job image of one cluster with a code section of 4 bytes. -/
def fxImageHead : Bytes :=
  toLe 0x5A494A42 4 ++ toLe 1 2 ++ ([0, 1] : Bytes) ++ toLe 1 2 ++ [0, 0] ++ toLe 512 2 ++ toLe 0 2 ++ toLe 0x200 4 ++ toLe 4 4 ++ List.replicate 24 0 ++
    toLe 0x240 4 ++ List.replicate 76 0 ++ (List.replicate 48 (toLe 1 4)).flatten ++ List.replicate 184 0

/-- JOB_LOAD of that image handed over. -/
def fxLoad : Block :=
  { fxWith fxMedia [((pScl 3).at 0x0C, 2)] with
    hostMem := Memory.write [] 64 (fxImageHead ++ toLe (crc64 (fxImageHead ++ List.replicate 64 0)).toNat 8 ++ List.replicate 64 0)
    nextCmd := 1, cmds := [fxCmd 0 (.port 0) (fxDesc 0x40 2 0 4 (64, 0x240, 0) (0, 0, 0) 0) .handed] }

/-- Every thread of the job has executed END. -/
def fxEnded : Block :=
  fxRun { fxJobOf false 0 with ended := (List.range 576).map (fun n => ⟨3, Fin.ofNat 576 n, 0⟩) } []

/-- A step descriptor of R289: DIST of one row and one vector of dimension 64, or MATMUL or TABLE of one row, with a WAIT or none. -/
def fxStepDesc (kind : Nat) (wait : Bool) : Bytes :=
  ([BitVec.ofNat 8 kind, (if kind = 0 then 1 + 8 else if kind = 1 then 4 + 8 * 4 else 4), 0, (if wait then 64 else 0)] : Bytes) ++ toLe 3 2 ++ toLe 0 2 ++ toLe 0 4 ++ toLe 256 4 ++
    toLe 4096 4 ++ toLe 1024 4 ++ toLe 1 4 ++ toLe (if kind = 1 then 8192 else 0) 4 ++ toLe (if kind = 1 then 64 else 0) 4 ++
    toLe (if kind = 0 then 128 else 64) 2 ++ toLe (if kind = 0 then 128 else if kind = 1 then 1 else 0) 2 ++ toLe (if kind = 2 then 0 else 0x640000) 4 ++
    [if kind = 2 then 16 else 0, 0] ++ List.replicate 18 0

/-- The same step at the head of matrix core 2's queue, with an INT8 tile, a uniform scale, and a codebook where TABLE needs one. -/
def fxStep (kind : Nat) (wait : Bool) : Block :=
  { fxRun (fxJobOf false 0) [fxThread (fxStepDesc kind wait)] with
    cores := { (fxRun (fxJobOf false 0) [fxThread (fxStepDesc kind wait)]).cores with
      staging := [(0, Memory.write [] 0 [1, 2, 3, 4])]
      mxcs := [(2, { steps := [⟨fxRef, 0, fxStepDesc kind wait, 1⟩]
                     tiles := [(0, [0, if kind = 2 then 1 else 0x10] ++ List.replicate 30 0 ++ [1, 5] ++ List.replicate 40 7), (100, [0, 0x12] ++ List.replicate 30 0 ++ [4, 1] ++ List.replicate 32 1)] })] } }

/-- Thread 0 issues a step to matrix core 2, whose queue is full or empty; or a route operation. -/
def fxIssue (full : Bool) : Block :=
  { fxRun (fxJobOf false 0) [fxThread (fxStepDesc 1 false ++ (toLe 0 4 ++ toLe 1 4 ++ toLe (1 + 2 ^ 11) 4 ++ toLe 1 4 ++ toLe 64 4 ++ toLe 128 4 ++ toLe 192 4 ++ List.replicate 36 0))] with
    cores := { (fxRun (fxJobOf false 0) [fxThread (fxStepDesc 1 false ++ (toLe 0 4 ++ toLe 1 4 ++ toLe (1 + 2 ^ 11) 4 ++ toLe 1 4 ++ toLe 64 4 ++ toLe 128 4 ++ toLe 192 4 ++ List.replicate 36 0))]).cores with
      mxcs := if full then [(2, { steps := List.replicate 16 ⟨fxRef, 0, fxStepDesc 1 false, 1⟩ })] else [] } }

/-- A schedule entry of one tile for matrix core 2, from a SEALED zone, with or without a WAIT and a SIG. -/
def fxEntryOf (wait : Bool) : SchedEntry :=
  { layer := 0, mxc := 0, granule := 4, tiles := 1, source := 2, addr := 0, waitCtr := 0, waitEn := wait, waitN := 2, sigCtr := 1, sigEn := wait }

/-- A codebook tile with the CHECK its bytes give. -/
def fxTile : Bytes :=
  let head : Bytes := [0, 1] ++ toLe 1 2 ++ toLe 2048 4 ++ List.replicate 48 0
  let body : Bytes := List.replicate 16384 0
  head ++ toLe (crc64 (head ++ body)).toNat 8 ++ body

/-- The job with that schedule. -/
def fxLanding (wait : Bool) : Block :=
  { fxRun { fxJobOf false 0 with sched := [fxEntryOf wait] } [] with
    ftl := { zones := [{ number := 0, st := .sealed, tiles := [fxTile] }], nextZone := 1 } }

/-- A route block of R295: two tokens, two experts, one choice each. -/
def fxRouteBlock : Bytes :=
  toLe 0 4 ++ toLe 2 4 ++ toLe (2 + 2 ^ 11) 4 ++ toLe 1 4 ++ toLe 64 4 ++ toLe 128 4 ++ toLe 256 4 ++ List.replicate 36 0

/-- A route operation of thread 0 in a slot of unit 0. -/
def fxRoute : Block :=
  { fxIssue false with nextId := 9, ops := [⟨5, .route 0 fxRef fxRouteBlock 1, 0, none, some 0⟩] }

/-- Module 9 of a rope at place 2 (1 SPARE, 2 LEAD, 3 both), KWT and TRF RUNNING, with members 7 (place 0), 8 (place 1) and 9. -/
def fxRope (lead spare : Bool) : Block :=
  { fxWith (fxPort false) [(pKwt.at 0x0C, 2), ((pQpl 1).at 0x0C, 2), (pGlb.at 0x110, 9 + 2 ^ 12 + 2 * 2 ^ 18 + 2 ^ 24 * (if lead then 1 else 0) + 2 ^ 25 * (if spare then 1 else 0) + 2 ^ 26), (pSec.at 0x104, 5)] with
    meter := 10000000
    rope := { jstate := 3, ropeId := 1, epoch := 4, leadId := if lead then 9 else 7, lastBeat := some 0
              members := [⟨7, 0, false, true, false⟩, ⟨8, 1, false, true, false⟩, ⟨9, 2, spare, true, false⟩] } }

/-- The same with what it has heard of places 0 and 1. -/
def fxHeard (lead spare : Bool) (l : List Heard) : Block :=
  { fxRope lead spare with rope := { (fxRope lead spare).rope with heard := l } }

/-- A stand-in of place 2 in a state of STANDIN, declared at 0. -/
def fxStandin (n : Nat) (meter : Nat) : Block :=
  { fxRope false true with meter := meter, rope := { (fxRope false true).rope with standin := n, claimed := 2, declaredAt := some 0, notReady := [2] } }

/-- A module in a state of JSTATE with a table; a formation started at 0. -/
def fxJoining (n : Nat) (meter : Nat) : Block :=
  { fxRope false false with
    meter := meter, regs := (fxWith (fxPort false) [(pKwt.at 0x0C, 2), ((pQpl 1).at 0x0C, 2), (pGlb.at 0x110, 9), (pSec.at 0x104, 5)]).regs
    rope := { jstate := n, leadId := 9, formAt := some 0, members := [⟨7, 0, false, false, false⟩, ⟨9, 1, false, true, false⟩] } }

/-- The same with module 7 the only one that has not joined, or another one too. -/
def fxForming (other : Bool) : Block :=
  { fxJoining 1 5 with rope := { (fxJoining 1 5).rope with members := [⟨7, 0, false, false, false⟩, ⟨9, 1, false, true, false⟩, ⟨10, 63, true, !other, false⟩] } }

/-- A module outside a rope with JOIN_CFG for a joiner of lead 7, or for a lead with a table of 16 entries. -/
def fxJoin (lead : Bool) (kwt : Nat) : Block :=
  { fxWith (fxPort false) ([(pKwt.at 0x0C, kwt), ((pQpl 1).at 0x0C, 2), (pGlb.at 0x110, 9)] ++
      (if lead then [(pRop.at 0x104, 64 + 9 * 128), (pRop.at 0x10C, 16)] ++
        (List.range 16).map (fun e => (pRop.at (0x800 + 8 * e), e + (if e = 15 then 63 * 4096 + 2 ^ 18 else e * 4096) + 2 ^ 19))
       else [(pRop.at 0x104, 7 * 128)])) with meter := 5 }

/-- A proxy slot 1 with target module 8's page of a type, at the lead or not, its access running or not. -/
def fxPxy (lead : Bool) (target : Nat) (running : Bool) (write : Nat) (meter : Nat) : Block :=
  { fxWith (fxRope lead false) [(pHlk.at (pxyOff 1), target), (pHlk.at (pxyOff 1 + 4), 0x104), (pHlk.at (pxyOff 1 + 0x10), write), (pHlk.at (pxyOff 1 + 0x18), 100)] with
    meter := meter, proxies := if running then [(1, some ⟨0, 8⟩)] else [] }

/-- Port 2 with its page RUNNING, in frame mode or link mode. -/
def fxLink (frame : Bool) (meter : Nat) (x : LinkPort) : Block :=
  { fxWith (fxRope false false) [((pKwf 2).at 0x0C, 2), ((pKwf 2).at 0x100, if frame then 1 else 0), ((pKwf 2).at 0x110, 0x140004), ((pKwf 2).at 0x114, 0x1410)] with
    meter := meter, links := if x = {} then [] else [(2, x)] }

/-- A flit held for replay. -/
def fxHeld (n : Nat) : HeldFlit := ⟨n, ⟨0, true, true, [1, 2], (0, 1)⟩, 0⟩

/-- A port that is UP, with flits held and one flit received and not acknowledged. -/
def fxUp (held : List HeldFlit) : LinkPort :=
  { pcs := true, hello := true, up := true, nextSeq := 7, replay := held, expect := 3, ackAt := some 0, unacked := 1 }

/-- A DATA flit. -/
def fxFlit (seq : Nat) (eom : Bool) : Bytes := flitBytes { type := 1, som := true, eom := eom, len := 2, fseq := seq } [5, 6]

/-- A segment of R426 for module 9: kind, session, LAST, number, length of its message, NONCE_CTR. -/
def fxSeg (kind session : Nat) (last : Bool) (number msgLen nonce dst : Nat) : Bytes :=
  toLe 1 1 ++ toLe (kind + (if last then 64 else 0)) 1 ++ toLe number 2 ++ toLe dst 2 ++ toLe 9 2 ++ toLe session 2 ++ toLe 4 2 ++ toLe 1 4 ++
    toLe nonce 8 ++ toLe msgLen 4 ++ toLe 0 4 ++ toLe 0 3 ++ List.replicate 13 0 ++ List.replicate 20 7

/-- A frame of a port in frame mode with an EtherType and a payload. -/
def fxFrame (type : Bytes) (payload : Bytes) : Bytes := List.replicate 12 2 ++ type ++ payload ++ List.replicate 4 0

/-- Session 3 with client 9 in a state, with what the transport keeps of it. -/
def fxCarry (st : SessState) (x : RxSession) : Block :=
  { fxWith (fxRope false false) [(pGlb.at 0x110, 6)] with
    sessions := [(3, { state := st, endpoint := 9, credits := 4 })], transport := { rx := if x = {} then [] else [(3, x)] } }

/-- A message partly received on session 3 at 0. -/
def fxReasm (meter : Nat) : Block :=
  { fxCarry .opened {} with meter := meter, transport := { reasm := [{ src := 9, session := 3, msgId := 1, kind := 0, cls := 0, len := 8, parts := [(0, [1])], at_ := 0 }] } }

/-- A message of session 3 sent at 0 and not acknowledged. -/
def fxSent (kind : MsgKind) (deadline : Option Nat) (resends : Nat) (meter : Nat) : Block :=
  { fxCarry .opened {} with
    meter := meter, rope := { (fxRope false false).rope with jstate := 2 }
    transport := { sent := [{ session := 3, msgId := 1, endpoint := 9, kind := 0, msg := { toward := .session 3, cls := 0, kind := kind, deadline := deadline },
                              body := [1], lastSent := 0, resends := resends }] } }

/-- The same, for a request that carries arguments. -/
def fxSentArgs (kind : MsgKind) (args : List Nat) (meter : Nat) : Block :=
  let b := fxSent kind none 0 meter
  { b with transport := { b.transport with sent := b.transport.sent.map (fun m => { m with msg := { m.msg with args := args } }) } }

/-- The module evaluates health, with page KWF 2's counts at some corrections; or its band forced. -/
def fxHealth (corr meter : Nat) : Block :=
  { fxWith fxDone [(pHlt.at 0x0C, 2), ((pKwf 2).at 0x80, corr), (pHlt.at 0x108, 0)] with meter := meter }
def fxForced (forced : Bool) : Block :=
  { fxDone with health := { bands := if forced then [((pKwf 2).base, { forced := true })] else [] }, sled := { fatal := 3 } }

/-- A member of a rope, at place 2 with two other places, that can make records durable. -/
def fxOwner : Block :=
  { fxMedia with
    regs := (fxWith fxMedia [(pKwt.at 0x0C, 2), (pGlb.at 0x110, 9 + 2 * 2 ^ 18 + 2 ^ 26)]).regs, meter := 100000
    rope := { jstate := 3, members := [⟨7, 0, false, true, false⟩, ⟨8, 1, false, true, false⟩, ⟨9, 2, false, true, false⟩] } }

/-- An update of index 0, posted and handed over: its opcode and its payload of two records. -/
def fxUpdCmd (op : Nat) (payload : Bytes) : Block :=
  { fxPort false with
    hostMem := Memory.write [] 64 payload, indexes := [(0, { versions := [fxVersion] })], nextCmd := 1
    cmds := [fxCmd 0 (.port 0) (fxDesc op 2 0 0 (64, 512, 0) (0, 0, 0) 0) .handed] }

/-- The payload of R224 with records 5 and 6. -/
def fxRecords (delete : Bool) : Bytes :=
  if delete then toLe 2 2 ++ List.replicate 62 0 ++ toLe 5 8 ++ toLe 6 8
  else toLe 2 2 ++ toLe 1 2 ++ List.replicate 60 0 ++ toLe 5 8 ++ List.replicate 56 0 ++ List.replicate 64 1 ++ toLe 6 8 ++ List.replicate 56 0 ++
    List.replicate 64 2

/-- An update at a step that waits for place 1, whose keeper is place 2, or place 1. -/
def fxUpdating (op : Nat) (kind : UpdKind) (step : UpdStep) (keeper : Nat) : Block :=
  { fxOwner with
    indexes := [(0, { versions := [fxVersion], keeper := keeper })], nextCmd := 1, cmds := [fxCmd 0 (.port 0) (fxDesc op 2 0 0 (64, 512, 0) (0, 0, 0) 0) .working]
    updates := [{ cmd := 0, index := 0, kind := kind, records := 2, ids := [5, 6], step := step, waiting := [1], owners := [1], cairn := 4 }] }

/-- A side-list entry and a tombstone of place 1's change 3, with or without a cairn. -/
def fxSide (cairn : Option Nat) : SideEntry := { number := 0, vid := 5, cairn := cairn, code := [0], vec := [1, 1], attr := [], page := 0, tag := (1, 3) }
def fxTomb (cairn : Option Nat) : Tombstone := { vid := 5, cairn := cairn, page := 0, tag := (1, 3) }

/-- Index 0 at the member with contents. -/
def fxIndex (x : Index) : Block := { fxOwner with indexes := if x = {} then [] else [(0, x)] }

/-- Cairns 5 and 6 are open at the keeper, place 2 or place 1; 4 is visible. -/
def fxKeeper (keeper assigned : Nat) : Index :=
  { versions := [fxVersion], keeper := keeper, assigned := assigned, opened := [⟨5, 1, 3⟩, ⟨6, 1, 4⟩], visible := 4, localVc := 4
    side := [fxSide (some 5), fxSide none], tombs := [fxTomb (some 5), fxTomb none] }

/-- Records of place 1 for index 0. -/
def fxOwnerMsg (kind : UpdKind) (l : List UpdRec) : OwnerMsg := { index := 0, fromPlace := 1, tag := 7, kind := kind, records := l }

/-- A log page gathers since 98,000. -/
def fxLogPage (bytes : Nat) : Index :=
  { versions := [fxVersion], side := [fxSide none], logPages := [{ number := 0, since := 98000, bytes := bytes }], nextPage := 1 }

/-- Place 1 records change 3 under cairn 9, with deleted IDs. -/
def fxCairnMsg (l : List Nat) : CairnMsg := { index := 0, fromPlace := 1, tag := 3, cairn := 9, deleted := l }

/-- A MOUNTING version 2 of index 0 beside the CURRENT one, from place 1, its tiles placed; or with a tile that fails its check. -/
def fxMounting (bad : Bool) (sealed : Bool) : Block :=
  { fxIndex { versions := [fxVersion, { root := { fxRoot with version := 2, partitions := 0, tiles := if bad then 1 else 0 }, state := .mounting, fromPlace := 1, tag := 3, tiles := if bad then [(0, [])] else [] }], high := 2, keeper := 1 } with
    ftl := if sealed then {} else { nextZone := 1, zones := [{ number := 0, object := 0, version := 2 }] } }

/-- INDEX_SWITCH, INDEX_RETIRE, CONSOLIDATE or INDEX_MOUNT handed over, with parameters, at the keeper or elsewhere; version 2 is MOUNTED. -/
def fxSwitch (op params : Nat) (keeper : Nat) (joined : Bool) : Block :=
  { (if joined then fxOwner else fxMedia) with
    indexes := [(0, { versions := [fxVersion, { fxVersion with root := { fxRoot with version := 2 }, state := .mounted, parts := [] }], high := 2, keeper := keeper })], nextCmd := 1
    cmds := [fxCmd 0 (.port 0) (fxDesc op (if op = 0x25 then 2 else 0) 0 0 (64, 4128, 0) (0, 0, 0) params) .handed] }

/-- A switch of index 0 to version 2 at work at its keeper, place 2: the members' checks, or their switches, are awaited. -/
def fxSwitching (checking : Bool) : Block :=
  { fxSwitch 0x24 (2 + 2 ^ 32) 2 true with
    cmds := [fxCmd 0 (.port 0) (fxDesc 0x24 0 0 0 (64, 4128, 0) (0, 0, 0) (2 + 2 ^ 32)) .working]
    switching := [{ cmd := some 0, fromPlace := 2, tag := 0, index := 0, version := 2, retire := false, expect := 1, checking := checking, waiting := [0, 1] }] }

/-- An order of place 1 for index 0: version and parameters. -/
def fxOrder (version params : Nat) : PeerOrder := { fromPlace := 1, tag := 3, object := 0, version := version, params := params, data := [] }

/-- Table 1 of 4 or 512 rows of 16 bytes, its version 1 with one row that is not zero. -/
def fxTbl : Machine.Table :=
  { number := 1, efmt := 1, prio := 0, retain := 0, rows := 512, rowBytes := 16, keeper := 2, versions := [⟨1, [(0, List.replicate 16 3)]⟩] }

/-- A member at place 2 that serves table 1: row block 0 is its own, row block 1 is place 1's. -/
def fxTables (t : Machine.Table) : Block :=
  { fxOwner with
    regs := (fxWith fxOwner [(pTbl.at 0x0C, 2), (pPlc.at 0x0C, 2)]).regs, tables := [t], nextId := 20, plc := { blockMap := [((1, 0), 2), ((1, 1), 1)] } }

/-- A gather of row 256, whose owner, place 1, is not ready. -/
def fxOwnerGone (b : Block) : Block := { b with rope := { b.rope with notReady := [1] } }

/-- A command on table 1 handed over: opcode, flags, parameters, payload. -/
def fxTblCmd (op flags params : Nat) (payload : Bytes) : Block :=
  { fxTables fxTbl with
    hostMem := Memory.write [] 64 payload, nextCmd := 1, cmds := [fxCmd 0 (.port 0) (fxDesc op flags 0 1 (64, 512, 0) (4096, 512, 0) params) .handed] }

/-- A gather or prefetch at work that lacks row 256; a scatter at work. -/
def fxGather (prefetch : Bool) : Block :=
  { fxTblCmd (if prefetch then 0x34 else 0x30) (if prefetch then 2 else 3) (2 ^ 32) [] with
    cmds := [fxCmd 0 (.port 0) (fxDesc (if prefetch then 0x34 else 0x30) (if prefetch then 2 else 3) 0 1 (64, 512, 0) (4096, 512, 0) (2 ^ 32)) .working]
    gathers := [{ cmd := 0, table := 1, version := 1, prefetch := prefetch, rows := [256], stride := 64, left := [256] }] }
def fxScatter (add : Bool) (left : List Nat) : Block :=
  { fxTblCmd 0x31 2 0 [] with
    cmds := [fxCmd 0 (.port 0) (fxDesc (if add then 0x32 else 0x31) 2 0 1 (64, 512, 0) (4096, 512, 0) 0) .working]
    scatters := [{ cmd := 0, table := 1, step := 2, records := 1, owners := [1, 2], left := left }] }

/-- A record of place 1's scatter for a row, pending or not. -/
def fxRec (row : Nat) : ScatterRec := { origin := 8, seq := 0, pos := 0, row := row, add := false, data := List.replicate 16 9 }
def fxPend (committed : Bool) (from_ tag : Nat) : PendRec := { step := 2, item := fxRec 0, fromPlace := from_, tag := tag, committed := committed, durable := true }

/-- Tentative records from place 1. -/
def fxTent (l : List ScatterRec) : TentativeMsg := { table := 1, step := 2, fromPlace := 1, tag := 7, records := l }

/-- Rows asked for by place 1. -/
def fxTblReq (table : Nat) (prefetch : Bool) (rows : List Nat) : TableReq := { fromPlace := 1, tag := 7, table := table, version := 1, prefetch := prefetch, rows := rows }

/-- Rows staged for a prefetch at 0. -/
def fxStaged (meter : Nat) : Block := { fxTables { fxTbl with held := [(0, 1, 0), (5, 1, 99999)] } with meter := meter }

/-- A module alone, place 0, that keeps table 1. -/
def fxAlone (t : Option Machine.Table) (params : Nat) (payload : Bytes) : Block :=
  { fxMedia with
    regs := (fxWith fxMedia [(pTbl.at 0x0C, 2)]).regs, nextCmd := 1, nextId := 20, hostMem := Memory.write [] 64 payload
    tables := t.toList, plc := { blockMap := [((1, 0), 0), ((1, 1), 0)] }
    cmds := [fxCmd 0 (.port 0) (fxDesc 0x33 (if payload = [] then 0 else 2) 0 1 (64, 512, 0) (0, 0, 0) params) .handed] }

/-- The definition block of R321 for a table of 4 rows of 16 bytes without extents. -/
def fxDef : Bytes := toLe 0x5A495442 4 ++ toLe 1 2 ++ toLe 1 1 ++ toLe 0 1 ++ toLe 4 4 ++ toLe 16 2 ++ List.replicate 50 0

/-- A switch of table 1 begun for place 0 that waits for place 1. -/
def fxTblSwitch (swap : Bool) : Block :=
  { fxTables fxTbl with
    tblSwitches := [{ id := 4, cmd := none, fromPlace := 0, tag := 3, table := 1, action := .publish, expect := 1, begun := true, left := [1], swap := swap }] }

/-- An order of place 1 for table 1. -/
def fxTblOrder (version params : Nat) (data : Bytes) : PeerOrder := { fromPlace := 1, tag := 3, object := 1, version := version, params := params, data := data }

/-- A migration of row block 1 or 0 of table 1, or of shard 0 of index 0, in a phase, from one place to another. -/
def fxMove (i : ItemRef) (phase : MigPhase) (source dest : Nat) (held : List ForwardReq) : Block :=
  { fxTables { fxTbl with pending := [fxPend true 1 7] } with
    plc := { blockMap := [((1, 0), 2), ((1, 1), 1)], moves := [{ item := i, source := source, dest := dest, phase := phase, held := held.map (fun r => (r, 0)) }] } }

/-- What a copy brings: a pending record. -/
def fxCopy : ItemCopy := { rows := [(1, 0, List.replicate 16 4)], records := [(fxTent [fxRec 5], true)], dels := [] }

/-- The load window began at 0; a placement query of a kind for an object. -/
def fxWindow (meter : Nat) : Block := { fxTables fxTbl with meter := meter, plc := { windowAt := some 0, counts := [(.rowBlock 1 0, 4)], replicas := [(1, 1)] } }
def fxQKey (kind object : Nat) : Block :=
  { fxTables fxTbl with regs := (fxWith (fxTables fxTbl) [(pPlc.at 0x120, kind + object * 65536), (pIdx.at 0x0C, 2)]).regs }

/-- A page of the pool: its first bytes are v. -/
def fxPoolPage (n v : Nat) (t : Tier) : PoolPage := { page := n, data := Memory.write [] 0 [BitVec.ofNat 8 v, 1], tier := t }

/-- A lease of the driver, ID 2, whose writer is LD 1 of port 0. -/
def fxLease (lost : Bool) : Lease := { id := 2, holder := none, writer := some 1, ends := 1000, lostWc := lost }

/-- Region 3 of two pages at version 6. -/
def fxRegion (map wc : List PoolPage) (l : Option Lease) : Region :=
  { number := 3, pages := 2, current := 6, durable := 5, map := map, wc := wc, lease := l }

/-- A module whose two CXL ports run, with 65,536 pages of pool and some regions. -/
def fxPool (l : List Region) : Block :=
  { fxWith fxMedia [((pCxp 0).at 0x0C, 2), ((pCxp 1).at 0x0C, 2), ((pCxp 0).at 0x108, 1), ((pCxp 0).at 0x110, 100)] with regions := l, nextLease := 5, nextId := 9 }

/-- A command on region 3 handed over. -/
def fxPoolCmd (op flags params : Nat) (l : List Region) : Block :=
  { fxPool l with
    nextCmd := 1, cmds := [fxCmd 0 (.port 0) (fxDesc op flags 0 3 (64, 65536, 0) (4096, 512, 0) params) .handed] }

/-- Every page of the pool is taken. -/
def fxPoolFull (r : Region) : Block := fxWith (fxPool [{ r with pages := 65536 }, { number := 4, pages := 2 }]) [((pCxp 0).at 0x108, 1)]

/-- A POOL_LEASE's PARAMS: action, writer, term, lease, pages. -/
def fxLeaseArgs (action writer term lease pages : Nat) : Nat := action + writer * 256 + term * 65536 + lease * 2 ^ 32 + pages * 2 ^ 64

/-- A clean tier, a dirty one in stacks 0 and 4, a lost one. -/
def fxClean : Tier := { stack := 0, dirty := false }
def fxDirty : Tier := { stack := 0, mirror := some 4 }
def fxGone : Tier := { stack := 0, lost := true }

/-- A layer of object 3 of one tile. -/
def fxLayer (layer gen : Nat) (t : Tier) : Layer := { object := 3, layer := layer, gen := gen, prio := 0, tiles := [⟨[7], t⟩] }

/-- Layers and zones, of which zone 5 holds tiles of nothing. -/
def fxLayers (l : List Layer) : Block :=
  { fxPool [fxRegion [fxPoolPage 0 9 fxDirty] [] none] with
    layers := l, ftl := { zones := [{ number := 5, object := 9, version := 4, place := none }], nextZone := 6 } }

/-- A command on state object n, or on no object, handed over. -/
def fxStateCmd (op flags object params : Nat) (src : Source) : Block :=
  { fxLayers [fxLayer 2 4 fxDirty] with
    nextCmd := 1, sessions := [(0, { state := .opened, endpoint := 9, rights := 0x7F })], hostMem := Memory.write [] 64 [5]
    cmds := [fxCmd 0 src (fxDesc op flags 1 object (64, 65536, 0) (4096, 65536, if src = .port 0 then 0 else 2) params) .handed] }

/-- A SECURE_DISCARD that waits for its erases. -/
def fxErasing : Block :=
  { fxLayers [] with
    nextCmd := 1, discards := [⟨0, 1, []⟩], cmds := [fxCmd 0 (.port 0) (fxDesc 0x61 0 0 0 (0, 0, 0) (0, 0, 0) 3) .working] }

/-- The same, an erase of it waiting at engine 0. -/
def fxErasesOpen : Block :=
  { fxErasing with
    discards := [⟨0, 1, [fxBlk 0]⟩], engines := [(0, { slow := [{ work := .erase (fxBlk 0) true }] })] }

/-- Stack roles: S8 spare, rebuilding for S2, active, or failed; S5 failed before. -/
def fxRoles (spare : Nat) : Block :=
  { fxStack .loaded [fxReq 0 none false] 100 with
    roles := { failed := if spare = 1 then [] else [5], spare := spare, standFor := if spare = 2 then some 2 else none } }


/-- Engine 0 reads partition 0's codes from a row of four members, whose bays are all empty. -/
def fxLost : Block :=
  { fxColdCtx [fxItem (.cold fxCold) .reading 5] with
    ftl := { zones := [{ number := 5, version := 1, tiles := [[1]], place := some (fxBlk 0) }], nextZone := 6
             rows := [{ zone := 5, row := 0, absent := []
                        members := [2, 3, 4, 6].map (fun n => ⟨n, n, some (.home 5 0), [1], false, none⟩) }] } }

/-- Flash with all bays ONLINE: zone 5 of tiles of index 9, its block on lane 0; log zone 6 on lane 1. -/
def fxFlash (rows : List StripeRow) (writes : List FlashWrite) (programs : List Program) : Block :=
  { fxPool [fxRegion [] [fxPoolPage 0 2 fxDirty] (some (fxLease false))] with
    ftl := { zones := [{ number := 5, object := 9, version := 4, tiles := [[1]], place := some (fxBlk 0) },
                       { number := 6, log := true, place := some (fxBlk 1), tiles := [] }]
             nextZone := 7, rows := rows, writes := writes, programs := programs } }

/-- Home tile 0 of zone 5; a page for it being programmed at row 0 on bay 5 (channel 20). -/
def fxHome : FlashWrite := ⟨.home 5 0, [9]⟩
def fxProg (w : FlashWrite) (zone : Nat) (failed : Bool) : Program := { lun := fxLun 20, page := 0, zone := zone, write := w, failed := failed, sent := true }

/-- A tile read of the page of row 0 of zone 5 on bay 0. -/
def fxRead : SlowItem := { work := .tile ⟨0, 5, 0, 0⟩ none }

/-- Work of a class for engine 0: a tile read, of a page that is there or lost, a page to be programmed, a block to be moved. -/
def fxClass (n : Nat) (lost : Bool) : Block :=
  { fxEngine 96 [] 0 2 with
    engines := if n = 2 then [(0, { slow := [fxRead] })] else if n = 4 then [(0, { slow := [{ work := .move (fxBlk 0) }] })] else []
    ftl := { programs := if n = 3 then [{ fxProg fxHome 5 false with lun := fxLun 0, sent := false }] else []
             zones := [{ number := 5, object := 9, version := 4, tiles := [[1]], place := some (fxBlk 0) }]
             rows := [{ zone := 5, row := 0, absent := [], members := ⟨0, if lost then 20 else 0, some (.home 5 0), [1], lost, none⟩ ::
                          (if lost then [⟨1, 1, none, [], true, none⟩, ⟨2, 2, none, [], true, none⟩] else []) }] } }

/-- The same move with every bay ONLINE and FTL RUNNING. -/
def fxMoving : Block := { fxWith (fxClass 4 false) [(pFtl.at 0x0C, 2)] with bays := fxMedia.bays }

/-- A stripe row whose first member holds a page and whose three members are lost. -/
def fxLostRow (zone : Nat) (w : WriteWhat) : StripeRow :=
  { zone := zone, row := 0, absent := [], members := [⟨0, 0, some w, [1], true, none⟩, ⟨1, 1, none, [], true, none⟩, ⟨2, 2, none, [], true, none⟩] }

/-- The schedule's tile, or the tile that a thread asks for, cannot be read. -/
def fxUnlandable : Block :=
  { fxLanding false with ftl := { (fxLanding false).ftl with rows := [fxLostRow 0 (.home 0 0)] } }
def fxTileLost : Block :=
  { fxMoves true false with
    layers := [{ object := 4, layer := 1, gen := 0, prio := 0, tiles := [⟨[1, 2, 3], { stack := 0, dirty := false }⟩] }]
    ftl := { rows := [fxLostRow 0 (.stateBack 4 1 0 0)] } }

/-- Engine 0 has erased block 0 of its LUN 0, for a SECURE_DISCARD. -/
def fxErased : Block :=
  { fxEngine 96 [] 0 2 with engines := [(0, { slow := [{ work := .erase (fxBlk 0) false, served := true }] })] }

/-- A row of a zone with members on bays 2 .. 2 + n - 1. -/
def fxRow (zone n : Nat) (w : Option WriteWhat) : StripeRow :=
  { zone := zone, row := 0, absent := [], members := (List.range n).map (fun i => ⟨if i < 3 then i + 2 else i + 3, if i < 3 then i + 2 else i + 3, w, [1], false, none⟩) }

/-- A durable push and a durable publish that wait for one page. -/
def fxPushing : Block :=
  { fxFlash [] [] [fxProg ⟨.stateTile 3 2 0 0, [7]⟩ 6 false] with
    nextCmd := 1, pushes := [{ cmd := 0, layer := fxLayer 2 0 fxDirty, left := [0] }]
    cmds := [fxCmd 0 (.port 0) (fxDesc 0x54 2 0 3 (64, 65536, 0) (0, 0, 0) (2 + 2 ^ 32 + 2 ^ 47)) .working] }
def fxPublishing : Block :=
  { fxFlash [] [] [fxProg ⟨.poolPage 3 7 0, [7]⟩ 6 false] with
    nextCmd := 1, publishes := [⟨0, 3, false, [0]⟩]
    cmds := [fxCmd 0 (.port 0) (fxDesc 0x51 0 0 3 (0, 0, 0) (0, 0, 0) (2 + 7 * 2 ^ 32 + 2 ^ 64)) .working] }

/-- A clean-to-be page of the pool, and a tile of a layer, being programmed. -/
def fxPoolBack : Block :=
  { fxFlash [] [] [fxProg ⟨.poolBack 3 0 0, [7]⟩ 6 false] with regions := [fxRegion [fxPoolPage 0 9 fxDirty] [] none] }
def fxStateBack : Block :=
  { fxFlash [] [] [fxProg ⟨.stateBack 3 2 0 0, [7]⟩ 6 false] with layers := [fxLayer 2 0 fxDirty] }

/-- Zone 5 filled, its one tile durable or not; the zone log has a base, a size and records in use, or none. -/
def fxSeal (durable base size used : Nat) : Block :=
  { fxWith fxMedia [(pFtl.at 0x110, base), (pFtl.at 0x118, size), (pFtl.at 0x11C, used)] with
    ftl := { zones := [{ number := 5, object := 9, version := 4, tiles := [[1]], durable := durable, filled := true, place := some (fxBlk 0) }]
             nextZone := 6, rows := [fxRow 5 1 (some (.home 5 0))] } }

/-- A block of zone 5 with 5,000 reads (READ_REFRESH 2), scheduled for rewrite or retired or not. -/
def fxBlocks (rewrite retired : Bool) : Block :=
  { fxWith fxMedia [(pFtl.at 0x124, 2)] with
    engines := [(20, { slow := [{ work := .move (fxBlk 20), served := true }] })]
    ftl := { (fxFlash [fxRow 5 4 (some (.home 5 0)), fxRow 6 1 (some (.copy 1 1))] [] [fxProg ⟨.copy 1 1, []⟩ 9 true]).ftl with
             reads := [(fxBlk 20, 5000)], rewrites := if rewrite then [fxBlk 20] else [], retired := if retired then [fxBlk 20] else [] } }

/-- Bay 5 in a state, the others ONLINE, with rows that have a member on it. -/
def fxBay (x : Bay) : Block :=
  { fxMedia with
    meter := 100
    bays := sset {} fxMedia.bays 5 x
    ftl := { zones := [{ number := 5, object := 9, version := 4, tiles := [[1]], place := some (fxBlk 0) }], nextZone := 6
             rows := [{ fxRow 5 6 (some (.home 5 0)) with members := ⟨5, 5, some (.home 5 0), [1], false, none⟩ :: (fxRow 5 6 (some (.home 5 0))).members }] } }

/-- A cartridge's identity record for module 0, SERIAL 77, GEN 3. -/
def fxRecordHead : Bytes :=
  toLe 0x5A494342 4 ++ toLe 1 2 ++ toLe 0 2 ++ toLe 77 8 ++ toLe 160 2 ++ toLe 0x37 1 ++ toLe 1 1 ++ toLe 60 2 ++ toLe 0 2 ++ toLe 3000 4 ++ toLe 0 4 ++
    toLe 0 8 ++ toLe 3 4 ++ List.replicate 0xD0 0
def fxIdRecord : Bytes := fxRecordHead ++ toLe (crc32 fxRecordHead).toNat 4

/-- Bay 5 is being identified; its table entry is the record's or another's. -/
def fxIdentify (mine : Bool) : Block :=
  { fxBay { st := 2, present := true, rail := true } with
    ftl := { (fxBay {}).ftl with entries := [5], bayTable := [(5, (if mine then 77 else 76, 3))] } }

/-- Two bays lost, so that a drain is refused. -/
def fxRefused : Block := { fxBay { st := 5, present := true, rail := true, gen := 1 } with bays := sset {} (fxBay { st := 5, present := true, rail := true, gen := 1 }).bays 6 { st := 0 } }

/-- Bay 5 DRAINING with its channels OFF. -/
def fxDrained : Block := fxBay { st := 6, present := true, rail := true }

/-- A rebuild of bay 5, or a move back to it, runs; the same while engine 0's share of it waits. -/
def fxRebuild (move : Bool) (x : Bay) : Block := { fxBay x with ftl := { (fxBay x).ftl with rebuild := some (5, move) } }

def fxRebuilding (x : Bay) : Block := { fxRebuild false x with engines := [(0, { slow := [{ work := .rebuild }] })] }

/-- A version of 64 dimensions and 16 sub-spaces, and an index with it and one visible side-list entry. -/
def fxWide : Version :=
  { fxVersion with
    root := { fxRoot with dim := 64, m := 16, degree := 8, tiles := 0 }, nodes := [⟨0, 7, [], List.replicate 128 0⟩]
    parts := [{ number := 0, code8 := false, first := 0, slots := [⟨7, List.replicate 16 0, List.replicate 128 0, []⟩] }] }
def fxWideIndex : Index :=
  { versions := [fxWide], high := 2, localVc := 1, codebook4 := List.replicate 2048 3
    side := [{ number := 0, vid := 3, cairn := some 1, code := List.replicate 16 1, vec := List.replicate 128 1, attr := [], page := 0, tag := (0, 0) }] }

/-- CONSOLIDATE of version 1 into version 3 handed over. -/
def fxCons : Block := { fxSwitch 0x23 (3 + 2 ^ 32 + 2 ^ 64) 2 true with
    indexes := [(0, fxWideIndex)], shardMap := [((0, 0), 2)] }

/-- A side-list of n entries; a table with n pending records. -/
def fxSideMany (n : Nat) : Index := { versions := [fxVersion], keeper := 1, side := List.replicate n (fxSide none) }
def fxTblMany (n : Nat) : Machine.Table := { fxTbl with pending := List.replicate n (fxPend false 1 7) }

end Sys2Proof.Tests
end

