-- ==== Sys2Proof/Tests/Slice0.lean ====
section
/-! SUPPORT. Tests of the model: ill-formed commands, values that the spec gives, and for each statement states and operands
that meet its premises. -/

namespace Sys2Proof.Tests

open Sys2Proof Sys2Proof.Machine

set_option Elab.async false
set_option maxRecDepth 100000
set_option synthInstance.maxHeartbeats 400000
set_option synthInstance.maxSize 4000

/-! ## Well-formedness: an ill-formed command of each check is refused, and the nearest well-formed one is not -/

theorem wf_access : (Instr.invalidAccess 0 3 true).wf = false ∧ (Instr.invalidAccess 0 8 true).wf = true := by decide
theorem wf_page_instance : (⟨.scl, 512⟩ : PageRef).wf = false ∧ (⟨.scl, 511⟩ : PageRef).wf = true := by decide
theorem wf_enable_write : (Instr.enableWrite ⟨.scl, 512⟩ 1).wf = false := by decide
theorem wf_drain_abort_write : (Instr.drainAbortWrite ⟨.bay, 16⟩ 1).wf = false := by decide
theorem wf_initialisation_ends : (Instr.initialisationEnds ⟨.mem, 9⟩ []).wf = false := by decide
theorem wf_drained : (Instr.drained ⟨.glb, 1⟩).wf = false := by decide
theorem wf_soft_reset_write : (Instr.softResetWrite ⟨.glb, 1⟩ 4).wf = false := by decide
theorem wf_soft_reset_end : (Instr.softResetEnd ⟨.glb, 1⟩).wf = false := by decide
theorem wf_uncontained : (Instr.uncontainedBlockError ⟨.kwf, 8⟩ 16).wf = false := by decide
theorem wf_uncorrectable : (Instr.uncorrectableError ⟨.kwf, 8⟩ 16 0 none).wf = false := by decide
theorem wf_err_inject : (Instr.errInjectWrite ⟨.kwf, 8⟩ 1).wf = false := by decide

/-- The findings of a stage at which nothing failed. -/
def fxFound : StageFindings := ⟨2, false, [], [], [], []⟩

theorem wf_stage_end : (Instr.startUpStageEnd { fxFound with hostLinkModules := 3 }).wf = false ∧
    (Instr.startUpStageEnd { fxFound with failedStacks := [9] }).wf = false ∧
    (Instr.startUpStageEnd { fxFound with badImages := [3] }).wf = false ∧
    (Instr.startUpStageEnd { fxFound with badPending := [3] }).wf = false ∧
    (Instr.startUpStageEnd { fxFound with presentBays := [16] }).wf = false ∧ (Instr.startUpStageEnd fxFound).wf = true := by
  decide
theorem wf_module_fatal : (Instr.moduleFatal 0 0).wf = false ∧ (Instr.moduleFatal 8 0).wf = false ∧
    (Instr.moduleFatal 7 0).wf = true := by decide
theorem wf_controller_read : (Instr.controllerRequest 0 ⟨0, 0, 0, 8192, none, 1, none, false⟩).wf = false ∧
    (Instr.controllerRequest 0 ⟨0, 0, 0, 8191, none, 1, none, false⟩).wf = true := by decide
theorem wf_controller_write : (Instr.controllerRequest 0 ⟨0, 0, 0, 8191, some [1, 2], 0, none, false⟩).wf = false := by decide
theorem wf_threads : (Instr.issueStep ⟨0, 0, 4⟩ 0 0 0).wf = false ∧ (Instr.sig ⟨0, 0, 4⟩ (.matrix 0 0) 1).wf = false ∧
    (Instr.wait ⟨0, 0, 4⟩ 0 1).wf = false ∧ (Instr.take ⟨0, 0, 4⟩ 0 1).wf = false ∧ (Instr.test ⟨0, 0, 4⟩ 0 0).wf = false ∧
    (Instr.wait ⟨0, 0, 3⟩ 0 1).wf = true := by decide
theorem wf_local_store : (Instr.localStore ⟨0, 0, 4⟩ (.loadV 0 0)).wf = false ∧
    (Instr.localStore ⟨0, 0, 0⟩ (.loadS 3 0 0)).wf = false ∧ (Instr.localStore ⟨0, 0, 0⟩ (.storeS 16 0 0)).wf = false ∧
    (Instr.localStore ⟨0, 0, 0⟩ (.storeS 8 0 0)).wf = true := by decide
theorem wf_hello : (Instr.hello 0 (List.replicate 7 0)).wf = false ∧ (Instr.hello 0 (List.replicate 8 0)).wf = true := by decide
theorem wf_post : (Instr.post 0 0 (some (List.replicate 65 0))).wf = false ∧
    (Instr.post 0 0 (some (List.replicate 64 0))).wf = true := by decide

/-! ## One step at a time: the values are the spec's -/

/-- The block after one step with a command at the front of the queue. -/
def after (c : Instr) (b : Block) : Block :=
  match step ⟨[c], b⟩ with
  | .next s => s.block
  | .fault _ => b
  | .refused _ => b

/-- No word spells a command: the table gives no bits. -/
theorem test_no_words : decodeTableWord 32 0 = none ∧ (State.reset.withFetchWord 32 0) = State.reset := by decide

/-- Reset values of chapter 2 and chapter 5: PART, the identifier of GLB, PITCH. -/
theorem test_reset_part : State.reset.block.get pGlb 0x100 = 0x2604 := by decide +kernel
theorem test_reset_pitch : State.reset.block.get (pQpl 0) 0x104 = 1000 := by decide +kernel

/-- R28: the latch answers for the upper half and is empty after it. -/
theorem test_upper_half : ((after (.upperHalfRead (BitVec.ofNat 26 (pHlk.at 0x114))) fxLatch).out.readData,
    (after (.upperHalfRead (BitVec.ofNat 26 (pHlk.at 0x114))) fxLatch).latches) = (5, []) := by decide +kernel

/-- R9: writing 1 clears a W1C bit and writing 0 keeps it. -/
theorem test_w1c : ((after (.registerWrite (BitVec.ofNat 26 ((pScl 3).at 0x20)) false 2) fxCause).fld (pScl 3) 0x20 0 4,
    (after (.registerWrite (BitVec.ofNat 26 ((pScl 3).at 0x20)) false 1) fxCause).fld (pScl 3) 0x20 0 4) = (0, 2) := by
  decide +kernel

/-- R27: a misaligned access reads 0 and records its offset. -/
theorem test_invalid_access : ((after (.invalidAccess 2 4 false) fxDone).fld pGlb 0x10 5 1,
    (after (.invalidAccess 2 4 false) fxDone).get pGlb 0x128) = (1, 2) := by decide +kernel

/-- R30: the window answers nothing in stage BOOT. -/
theorem test_unreachable : (after (.unreachableAccess 0x100 false) fxBoot).out.readData = 0xFFFFFFFF := by decide +kernel

/-- R32: ENABLE moves SCL page 3 from OFF to ENABLING; ENABLE 0 in RUNNING moves it to DRAINING. -/
theorem test_enable : (after (.enableWrite (pScl 3) 1) (fxScl 0)).pageState (pScl 3) = 1 := by decide +kernel
theorem test_drain : (after (.enableWrite (pScl 3) 0) (fxScl 2)).pageState (pScl 3) = 3 := by decide +kernel

/-- R44: CFG_LOCK sticks, and RTO_CFG of KWT keeps its value after it. -/
theorem test_cfg_lock : (after (.cfgLock 1) fxDone).fld pGlb 0x118 0 1 = 1 := by decide +kernel

/-- R494: BOOT follows RAILS. -/
theorem test_stage : (after (.startUpStageEnd fxFound) {}).stage = .boot := by decide +kernel

/-- R73: with nothing waiting one unit of the meter passes. -/
theorem test_tick : (match step ⟨[], fxDone⟩ with | .next s => s.block.meter | _ => 0) = 1 := by decide +kernel

/-- R524: a command with a wrong PEC byte has no effect. -/
theorem test_pec : (after (.locate false 1) fxDone).sled.locate = false ∧ (after (.locate true 1) fxDone).sled.locate = true := by
  decide +kernel

/-- R76: one asserted sag sensor of a domain brakes it. -/
theorem test_sag : 0 < (after (.sagFire 3 ⟨0, 4095⟩) fxDone).effLevel 3 := by decide +kernel

/-- R489: BYPASS delays TDI by one bit; IDCODE shifts 0x2604_B74B out, lowest bit first. -/
theorem test_bypass : (after (.bypass [true, true, false]) fxTap).out.tdo = [false, true, true] := by decide +kernel
theorem test_idcode : (after .idcode fxTap).out.tdo.take 8 = [true, true, false, true, false, false, true, false] := by
  decide +kernel

/-- R410: a seated cartridge is powered before anything else. -/
theorem test_present : ((after (.presentAsserted 5) fxDone).bay 5).st = bsPowering := by decide +kernel

/-- Chapters 10 to 12: binary32 sums, quotients and roundings, by hand. -/
theorem test_add32 : add32 0x3F800000 0x3F800000 = 0x40000000 ∧ add32 0x3F800000 0xBF800000 = 0 := by decide +kernel
theorem test_div32 : div32 0x3F800000 0x40400000 = 0x3EAAAAAB := by decide +kernel
theorem test_mul32 : mul32 0x40490FDB 0x40000000 = 0x40C90FDB := by decide +kernel
theorem test_e4m3 : e4m3 0x7E = 0x43E00000 ∧ toE4m3 0x43E00000 = 0x7E := by decide +kernel
theorem test_fp16 : fp16 0x3C01 = 0x3F802000 ∧ toFp16 0x3F802000 = 0x3C01 := by decide +kernel

/-- The published check values of the two CRCs the spec names, over the digits 1 to 9. -/
theorem test_crc32 : crc32 [0x31, 0x32, 0x33, 0x34, 0x35, 0x36, 0x37, 0x38, 0x39] = 0xCBF43926 := by decide +kernel
theorem test_crc64 : crc64 [0x31, 0x32, 0x33, 0x34, 0x35, 0x36, 0x37, 0x38, 0x39] = 0x995DC9BBDF1939FA := by decide +kernel

/-! ## States and operands that meet the premises of the statements -/

/-- A side-list that is full for one more record. -/
theorem side_many (n : Nat) (h : 16777216 ≤ n) : ∃ (s : State) (m : OwnerMsg) (x : Index), s.awake ∧ s.block.Canonical ∧
    Quiet s.block pIdx ∧ x = s.block.index m.index.val ∧ m.records ≠ [] ∧ m.fromPlace ≠ s.block.place ∧
    (∀ g ∈ x.groups, ¬(g.fromPlace = m.fromPlace ∧ g.tag = m.tag)) ∧ s.block.running pIdx = true ∧
    (m.kind = .insert ∧ 16777216 < x.side.length + m.records.length) := by
  refine ⟨⟨[], fxIndex (fxSideMany n)⟩, fxOwnerMsg .insert [⟨5, [], [1, 1]⟩], fxSideMany n, ⟨rfl, rfl⟩,
    canonical_iff.mp rfl, rfl, rfl, by simp [fxOwnerMsg], ?_, ?_, ?_, rfl, ?_⟩
  · have e : (fxIndex (fxSideMany n)).place = fxOwner.place := by simp only [Block.place, Block.fld, Block.reg, fxIndex]
    show 1 ≠ (fxIndex (fxSideMany n)).place
    rw [e]; decide +kernel
  · intro g hg; cases hg
  · have e : (fxIndex (fxSideMany n)).running pIdx = fxOwner.running pIdx := by
      simp only [Block.running, Block.pageState, Block.fld, Block.reg, Block.halted, fxIndex]
      congr 2
    show (fxIndex (fxSideMany n)).running pIdx = true
    rw [e]; decide +kernel
  · show 16777216 < (List.replicate n (fxSide none)).length + 1
    rw [List.length_replicate]; omega

/-- A table whose pending records are at the limit. -/
theorem pending_many (n : Nat) (h : 16777216 ≤ n) : ∃ (s : State) (m : TentativeMsg) (t : Table),
    s.awake ∧ s.block.Canonical ∧ m.fromPlace ≠ s.block.place ∧ m.records ≠ [] ∧ s.block.tableOf m.table = some t ∧
    (∀ r ∈ m.records, s.block.blockOwner m.table (rowBlock r.row) = s.block.place ∧
      s.block.movingOut (fun i => decide (i = .rowBlock m.table (rowBlock r.row))) = none) ∧
    t.dropping = false ∧ m.step = t.openV ∧ 16777216 < t.pending.length + m.records.length ∧
    (∀ r ∈ m.records, ∀ p ∈ t.pending, ¬(p.step = m.step ∧ p.item.origin = r.origin ∧ p.item.seq = r.seq ∧ p.item.pos = r.pos)) := by
  refine ⟨⟨[], fxTables (fxTblMany n)⟩, fxTent [{ fxRec 5 with seq := 9 }], fxTblMany n, ⟨rfl, rfl⟩,
    canonical_iff.mp rfl, ?_, by simp [fxTent], rfl, ?_, rfl, rfl, ?_, ?_⟩
  · show 1 ≠ (fxTables fxTbl).place
    decide +kernel
  · intro r hr
    rw [List.mem_singleton.mp hr]
    refine ⟨?_, rfl⟩
    show (fxTables fxTbl).blockOwner 1 (rowBlock 5) = (fxTables fxTbl).place
    decide +kernel
  · show 16777216 < (List.replicate n (fxPend false 1 7)).length + 1
    rw [List.length_replicate]; omega
  · intro r hr p hp
    rw [List.eq_of_mem_replicate (show p ∈ List.replicate n (fxPend false 1 7) from hp), List.mem_singleton.mp hr]
    decide

/-- Every pending record of row block 0 is committed, where a migration of it retires. -/
theorem pending_committed : ∀ x, (fxMove (.rowBlock 1 0) .retire 2 1 []).tableOf 1 = some x →
    ∀ p ∈ x.pending, rowBlock p.item.row = 0 → p.committed = true := by
  intro x h
  have e : x = { fxTbl with pending := [fxPend true 1 7] } := (Option.some.inj h).symm
  subst e; decide +kernel

/-! ## States and operands that meet the premises of each statement, clause by clause -/

/-- The premises of StepRunsFrontCommand are met. -/
theorem witness_StepRunsFrontCommand :
    ∃ b : Block, b.sled.power = Power.on ∧ b.bivouac = false ∧ b.stage ≠ Stage.rails ∧ b.transport.cut = [] ∧ (∀ (e : Nat ×
     Job), e ∈ b.jobList → e.snd.st ≠ JobState.stopping) :=
  ⟨fxDone, by decide +kernel⟩

/-- The premises of CommandsActWhenAwake are met. -/
theorem witness_CommandsActWhenAwake :
    (∃ (c : Instr) (s : State), s.block.sled.power ≠ .on ∧ c.atSled = false) ∧
    (∃ (c : Instr) (s : State), s.block.bivouac = true ∧ c.atSled = false ∧ c.inBivouac = false) :=
  ⟨⟨.intSummaryRead, ⟨[], fxOff⟩, by decide +kernel⟩,
    ⟨.intSummaryRead, ⟨[], fxBivouac⟩, by decide +kernel⟩⟩

/-- The premises of BivouacLeftOnlyByReset are met. -/
theorem witness_BivouacLeftOnlyByReset :
    (∃ s t : State, s.block.bivouac = true ∧ step s = .next t ∧ t.block.bivouac = false) ∧
    (∃ s t : State, s.block.fatal = true ∧ step s = .next t ∧ t.block.fatal = false) ∧
    (∃ (s : State) (f : StageFindings) (n : Nat), s.awake ∧ s.block.Canonical ∧ s.block.stage = .media ∧ s.block.stuck = false ∧
     n < 16 ∧ n ∈ f.presentBays) :=
  ⟨⟨⟨[.smbusColdReset true], fxBivouac⟩, _, by decide +kernel, rfl, by decide +kernel⟩,
    ⟨⟨[.smbusColdReset true], { fxDone with fatal := true }⟩, _, by decide +kernel, rfl, by decide +kernel⟩,
    ⟨⟨[], fxStage .media .cold⟩, { fxFound with presentBays := [15] }, 15, met inferInstance (by decide +kernel)⟩⟩

/-- The premises of StepKeepsCanonicalForm are met. -/
theorem witness_StepKeepsCanonicalForm :
    ∃ s t : State, s.block.Canonical ∧ s.block.CanonicalParts ∧ step s = .next t :=
  ⟨⟨[.intSummaryRead], fxPortFull⟩, _, canonical_iff.mp (by decide +kernel), parts_iff.mp (by decide +kernel), rfl⟩

/-- The premises of StepKeepsNumbersFresh are met. -/
theorem witness_StepKeepsNumbersFresh :
    ∃ s t : State, s.block.NumbersFresh ∧ step s = .next t :=
  ⟨⟨[.intSummaryRead], fxPortFull⟩, _, ⟨by decide +kernel, by decide +kernel, by decide +kernel, by decide +kernel,
   by decide +kernel, by decide +kernel⟩, rfl⟩

/-- The premises of ResetState are met. -/
theorem witness_ResetState :
    (∃ (p : PageRef) (n : Nat), p.implemented = true ∧ n < 8) ∧
    (∃ p : PageRef, p.implemented = true) :=
  ⟨⟨pScl 3, 7, by decide +kernel⟩,
    ⟨pScl 3, by decide +kernel⟩⟩

/-- The premises of RegisterAccesses are met. -/
theorem witness_RegisterAccesses :
    (∃ s : State, ∃ p : PageRef, s.open_ ∧ s.block.Canonical ∧ p.implemented = true ∧ Quiet s.block pGlb) ∧
    (∃ s : State, s.open_ ∧ s.block.Canonical) ∧
    (∃ s : State, ∃ off : BitVec 26, ∃ size : Nat, s.open_ ∧ s.block.Canonical ∧ validAccess off.toNat size = false) ∧
    (∃ off : BitVec 26, ∃ size : Nat, validAccess off.toNat size = true) ∧
    (∃ s : State, s.block.reachable = false) ∧
    (∃ s : State, ∃ off : BitVec 26, ∃ wide : Bool, s.open_ ∧ s.block.Canonical ∧ Quiet s.block pGlb ∧ ∃ (t : Target), locate
     off.toNat wide = some t ∧ t.upper = false ∧ t.page.at t.off ≠ pGlb.at 288) ∧
    (∃ s : State, ∃ off : BitVec 26, s.open_ ∧ s.block.Canonical ∧ Quiet s.block pGlb ∧ ∃ (t : Target), locate off.toNat false =
     some t ∧ t.upper = true) :=
  ⟨⟨⟨[], fxDone⟩, (pScl 3), met inferInstance (by decide +kernel)⟩,
    ⟨⟨[], fxDone⟩, met inferInstance (by decide +kernel)⟩,
    ⟨⟨[], fxDone⟩, 1, 0, met inferInstance (by decide +kernel)⟩,
    ⟨0, 4, met inferInstance (by decide +kernel)⟩,
    ⟨⟨[], fxBoot⟩, met inferInstance (by decide +kernel)⟩,
    ⟨⟨[], fxDone⟩, 0x200110, false, met inferInstance (by decide +kernel)⟩,
    ⟨⟨[], fxDone⟩, 0x200114, met inferInstance (by decide +kernel)⟩⟩

/-- The premises of PageStateChanges are met. -/
theorem witness_PageStateChanges :
    (∃ s : State, ∃ p : PageRef, ∃ v : BitVec 32, s.open_ ∧ s.block.Canonical ∧ p.implemented = true ∧ Quiet s.block p ∧
     fixedPage p.type = false ∧ p.type ≠ PageType.bay ∧ (¬p ∈ s.block.resetting) ∧ s.block.pageState p = 0 ∧ v.getLsbD 2 = false
     ∧ v.getLsbD 0 = true) ∧
    (∃ s : State, ∃ p : PageRef, ∃ v : BitVec 32, s.open_ ∧ s.block.Canonical ∧ p.implemented = true ∧ Quiet s.block p ∧
     fixedPage p.type = false ∧ p.type ≠ PageType.bay ∧ (¬p ∈ s.block.resetting) ∧ s.block.pageState p = 2 ∧ Calm s.block p ∧
     v.getLsbD 2 = false ∧ v.getLsbD 1 = false ∧ v.getLsbD 0 = false) ∧
    (∃ s : State, ∃ p : PageRef, ∃ v : BitVec 32, s.open_ ∧ s.block.Canonical ∧ p.implemented = true ∧ Quiet s.block p ∧
     fixedPage p.type = false ∧ p.type ≠ PageType.bay ∧ (¬p ∈ s.block.resetting) ∧ s.block.pageState p = 2 ∧ v.getLsbD 2 = false
     ∧ v.getLsbD 0 = true) ∧
    (∃ s : State, ∃ p : PageRef, ∃ v : BitVec 32, s.open_ ∧ s.block.Canonical ∧ p.implemented = true ∧ Quiet s.block p ∧
     fixedPage p.type = false ∧ p.type ≠ PageType.bay ∧ (¬p ∈ s.block.resetting) ∧ s.block.pageState p = 3 ∧ p.type =
     PageType.mem ∧ (s.block.stack p.inst).sweeps = [] ∧ (∀ (r : DramReq), r ∈ (s.block.stack p.inst).waiting → r.cmd = none) ∧
     v.getLsbD 2 = false ∧ v.getLsbD 1 = true ∧ v.getLsbD 0 = false) ∧
    (∃ s : State, ∃ p : PageRef, ∃ v : BitVec 32, s.open_ ∧ s.block.Canonical ∧ p.implemented = true ∧ Quiet s.block p ∧
     fixedPage p.type = false ∧ p.type ≠ PageType.bay ∧ (¬p ∈ s.block.resetting) ∧ (s.block.pageState p = 3 ∨ s.block.pageState
     p = 4) ∧ v.getLsbD 2 = false ∧ v.getLsbD 0 = true) ∧
    (∃ s : State, ∃ p : PageRef, s.awake ∧ s.block.Canonical ∧ p.implemented = true ∧ p.type ≠ PageType.bay ∧ s.block.pageState
     p = 1 ∧ Calm s.block p ∧ (p.type = PageType.pim → s.block.pageState (pMem p.inst) = 2)) ∧
    (∃ s : State, ∃ p : PageRef, s.awake ∧ s.block.Canonical ∧ p.implemented = true ∧ p.type ≠ PageType.bay ∧ s.block.pageState
     p = 3 ∧ s.block.inflight p = 0 ∧ p.type ≠ PageType.kwf ∧ (p.type = PageType.kwt → s.block.rope.jstate ≠ 3)) ∧
    (∃ s : State, ∃ p : PageRef, ∃ v : BitVec 32, s.open_ ∧ s.block.Canonical ∧ p.implemented = true ∧ Quiet s.block p ∧
     fixedPage p.type = false ∧ p.type ≠ PageType.bay ∧ (¬p ∈ s.block.resetting) ∧ v.getLsbD 2 = true ∧ (s.block.pageState p = 0
     ∨ s.block.pageState p = 4) ∧ s.block.resetBound p = false ∧ (p.type = PageType.kwt → s.block.rope.jstate ≠ 3)) ∧
    (∃ s : State, ∃ p : PageRef, ∃ v : BitVec 32, s.open_ ∧ s.block.Canonical ∧ p.implemented = true ∧ Quiet s.block p ∧
     fixedPage p.type = false ∧ p.type ≠ PageType.bay ∧ (¬p ∈ s.block.resetting) ∧ v.getLsbD 2 = true ∧ (s.block.pageState p ≠ 0
     ∧ s.block.pageState p ≠ 4 ∨ s.block.resetBound p = true)) ∧
    (∃ s : State, ∃ p : PageRef, ∃ v : BitVec 32, s.open_ ∧ s.block.Canonical ∧ p.implemented = true ∧ Quiet s.block p ∧ (p ∈
     s.block.resetting ∨ fixedPage p.type = true ∧ (v.getLsbD 2 = true ∨ v.getLsbD 0 = false)) ∧ ∃ (c : Instr), c ∈
     [Instr.enableWrite p v, Instr.drainAbortWrite p v, Instr.softResetWrite p v] ∧ True) ∧
    (∃ s : State, s.awake ∧ s.block.Canonical ∧ ∃ (p : PageRef), p ∈ s.block.resetting ∧ p.type ≠ PageType.kwt ∧ p.type ≠
     PageType.bay) ∧
    (∃ s : State, ∃ p : PageRef, (¬p ∈ s.block.resetting)) :=
  ⟨⟨⟨[], fxScl 1⟩, pGlb, 1, met inferInstance (by decide +kernel)⟩,
    ⟨⟨[], fxScl 2⟩, (pScl 3), 0, met inferInstance (by decide +kernel)⟩,
    ⟨⟨[], fxScl 2⟩, pScl 3, 1, met inferInstance (by decide +kernel)⟩,
    ⟨⟨[], fxWith fxDone [((pMem 0).at 0x0C, 3)]⟩, pMem 0, 2, met inferInstance (by decide +kernel)⟩,
    ⟨⟨[], fxScl 3⟩, pScl 3, 1, met inferInstance (by decide +kernel)⟩,
    ⟨⟨[], fxScl 1⟩, (pScl 3), met inferInstance (by decide +kernel)⟩,
    ⟨⟨[], fxScl 3⟩, (pScl 3), met inferInstance (by decide +kernel)⟩,
    ⟨⟨[], fxScl 1⟩, pGlb, 4, met inferInstance (by decide +kernel)⟩,
    ⟨⟨[], fxScl 2⟩, pScl 3, 4, met inferInstance (by decide +kernel)⟩,
    ⟨⟨[], fxScl 1⟩, pRop, 4, met inferInstance (by decide +kernel)⟩,
    ⟨⟨[], fxResetting⟩, met inferInstance (by decide +kernel)⟩,
    ⟨⟨[], fxDone⟩, pScl 3, met inferInstance (by decide +kernel)⟩⟩

/-- The premises of ErrorsOfPages are met. -/
theorem witness_ErrorsOfPages :
    (∃ s : State, ∃ p : PageRef, ∃ n : Fin 32, s.awake ∧ s.block.Canonical ∧ p.implemented = true ∧ p.type ∈ [PageType.glb,
     PageType.rop, PageType.hlt, PageType.dbg] ∧ p.errBits.getLsbD ↑n = true ∧ (s.block.pageState p = 1 ∨ s.block.pageState p =
     2 ∨ s.block.pageState p = 3)) ∧
    (∃ s : State, ∃ p : PageRef, ∃ n : Fin 32, s.awake ∧ s.block.Canonical ∧ p.implemented = true ∧ (p.type = PageType.pwr ∨
     p.errBits.getLsbD ↑n = false ∨ s.block.pageState p = 0 ∨ s.block.pageState p = 4)) ∧
    (∃ s : State, ∃ p : PageRef, ∃ n : Fin 32, s.awake ∧ s.block.Canonical ∧ p.implemented = true ∧ p.errBits.getLsbD ↑n = true
     ∧ (p.type = PageType.scl → ↑n ≠ 17)) ∧
    (∃ s : State, ∃ p : PageRef, ∃ n : Fin 32, s.awake ∧ s.block.Canonical ∧ p.implemented = true ∧ p.errBits.getLsbD ↑n =
     false) ∧
    (∃ s : State, ∃ p : PageRef, s.open_ ∧ s.block.Canonical ∧ p.implemented = true) ∧
    (∃ s : State, ∃ n : Fin 9, ∃ r : DramReq, s.awake ∧ s.block.Canonical ∧ s.block.pageState (pMem ↑n) = 2 ∧ r.cmd = none ∧
     sget 0 s.block.injected (pMem ↑n).base = 2#32) :=
  ⟨⟨⟨[], fxDbg⟩, pDbg, 0, met inferInstance (by decide +kernel)⟩,
    ⟨⟨[], fxDbg⟩, pDbg, 31, met inferInstance (by decide +kernel)⟩,
    ⟨⟨[], fxDbg⟩, pDbg, 0, met inferInstance (by decide +kernel)⟩,
    ⟨⟨[], fxDbg⟩, pDbg, 31, met inferInstance (by decide +kernel)⟩,
    ⟨⟨[], fxDbg⟩, (pScl 3), met inferInstance (by decide +kernel)⟩,
    ⟨⟨[], { fxStack .queued [] 512 with injected := [((pMem 0).base, 2)] }⟩, 0, fxReq 1 none true, met inferInstance
     (by decide +kernel)⟩⟩

/-- The premises of ResetWrites are met. -/
theorem witness_ResetWrites :
    (∃ s : State, ∃ v : BitVec 32, s.open_ ∧ s.block.Canonical ∧ v.toNat / 65536 = 46277 ∧ v.getLsbD 1 = false ∧ v.getLsbD 0 =
     true) ∧
    (∃ s : State, ∃ v : BitVec 32, s.open_ ∧ s.block.Canonical ∧ v.toNat / 65536 = 46277 ∧ v.getLsbD 1 = true) ∧
    (∃ s : State, ∃ v : BitVec 32, s.open_ ∧ s.block.Canonical ∧ v.toNat / 65536 ≠ 46277) :=
  ⟨⟨⟨[], fxDone⟩, 0xB4C50001, met inferInstance (by decide +kernel)⟩,
    ⟨⟨[], fxDone⟩, 0xB4C50002, met inferInstance (by decide +kernel)⟩,
    ⟨⟨[], fxDone⟩, 0, met inferInstance (by decide +kernel)⟩⟩

/-- The premises of ConfigurationLock are met. -/
theorem witness_ConfigurationLock :
    (∃ s : State, ∃ v : BitVec 32, s.open_ ∧ s.block.Canonical ∧ v.getLsbD 0 = true) ∧
    (∃ s : State, ∃ v : BitVec 32, s.open_ ∧ s.block.Canonical ∧ v.getLsbD 0 = false) ∧
    (∃ s : State, ∃ v : BitVec 32, s.open_ ∧ s.block.Canonical ∧ s.block.locked = true ∧ v.toNat / 65536 = 46277 ∧ v.getLsbD 1 =
     true) ∧
    (∃ s : State, ∃ v : BitVec 32, s.open_ ∧ s.block.Canonical ∧ s.block.locked = true ∧ v.toNat / 65536 = 46277 ∧ v.getLsbD 1 =
     false ∧ v.getLsbD 0 = true) ∧
    (∃ s : State, ∃ off : BitVec 26, ∃ wide : Bool, s.open_ ∧ s.block.Canonical ∧ s.block.locked = true ∧ ∃ (t : Target), locate
     off.toNat wide = some t ∧ t.desc.hasRwl = true ∧ Quiet s.block pGlb ∧ Quiet s.block t.page) ∧
    (∃ (s : State) (_ : BitVec 64), s.open_ ∧ s.block.Canonical ∧ s.block.locked = true) ∧
    (∃ s t : State, s.block.Canonical ∧ s.block.locked = true ∧ step s = .next t) :=
  ⟨⟨⟨[], fxDone⟩, 1, met inferInstance (by decide +kernel)⟩,
    ⟨⟨[], fxDone⟩, 0, met inferInstance (by decide +kernel)⟩,
    ⟨⟨[], fxLocked⟩, 0xB4C50002, met inferInstance (by decide +kernel)⟩,
    ⟨⟨[], fxLocked⟩, 0xB4C50001, met inferInstance (by decide +kernel)⟩,
    ⟨⟨[], fxLocked⟩, (BitVec.ofNat 26 (pHlk.at 0x110)), false, met inferInstance (by decide +kernel)⟩,
    ⟨⟨[], fxLocked⟩, 5, met inferInstance (by decide +kernel)⟩,
    ⟨⟨[.cfgLock 0], fxLocked⟩, _, canonical_iff.mp (by decide +kernel), by decide +kernel, rfl⟩⟩

/-- The premises of StartUpStages are met. -/
theorem witness_StartUpStages :
    (∃ s : State, s.awake ∧ s.block.Canonical ∧ s.block.stuck = false ∧ s.block.fatal = false ∧ s.block.stage = Stage.rails) ∧
    (∃ s : State, ∃ f : StageFindings, s.awake ∧ s.block.Canonical ∧ s.block.stuck = false ∧ s.block.fatal = false ∧
     s.block.stage = Stage.boot ∧ f.badImages = [] ∧ s.block.resetKind ≠ ResetKind.warm) ∧
    (∃ s : State, ∃ f : StageFindings, s.awake ∧ s.block.Canonical ∧ s.block.stuck = false ∧ s.block.fatal = false ∧
     s.block.stage = Stage.boot ∧ f.badImages = [] ∧ s.block.resetKind = ResetKind.warm) ∧
    (∃ s : State, ∃ f : StageFindings, s.awake ∧ s.block.Canonical ∧ s.block.stuck = false ∧ s.block.fatal = false ∧
     s.block.stage = Stage.dieLinks ∧ f.hostLinkModules ≠ 0 ∧ f.dieLinkLost = false) ∧
    (∃ s : State, s.awake ∧ s.block.Canonical ∧ s.block.stuck = false ∧ s.block.fatal = false ∧ s.block.stage = Stage.memory) ∧
    (∃ s : State, ∃ f : StageFindings, s.awake ∧ s.block.Canonical ∧ s.block.stuck = false ∧ s.block.fatal = false ∧
     s.block.stage = Stage.blocks ∧ (¬1 ∈ f.badImages)) ∧
    (∃ s : State, s.awake ∧ s.block.Canonical ∧ s.block.stuck = false ∧ s.block.fatal = false ∧ s.block.stage = Stage.restore ∧
     s.block.kept = none ∧ s.block.tstate ≠ 2 ∧ s.block.resetKind = ResetKind.warm) :=
  ⟨⟨⟨[], fxStage .rails .power⟩, met inferInstance (by decide +kernel)⟩,
    ⟨⟨[], fxStage .boot .cold⟩, (⟨2, false, [], [], [], []⟩), met inferInstance (by decide +kernel)⟩,
    ⟨⟨[], fxStage .boot .warm⟩, (⟨2, false, [], [], [], []⟩), met inferInstance (by decide +kernel)⟩,
    ⟨⟨[], fxStage .dieLinks .cold⟩, (⟨2, false, [], [], [], []⟩), met inferInstance (by decide +kernel)⟩,
    ⟨⟨[], fxStage .memory .cold⟩, met inferInstance (by decide +kernel)⟩,
    ⟨⟨[], fxStage .blocks .cold⟩, (⟨2, false, [], [], [], []⟩), met inferInstance (by decide +kernel)⟩,
    ⟨⟨[], fxStage .restore .warm⟩, met inferInstance (by decide +kernel)⟩⟩

/-- The premises of ModuleFatalErrors are met. -/
theorem witness_ModuleFatalErrors :
    (∃ s : State, ∃ cause : Fin 16, s.awake ∧ 1 ≤ ↑cause ∧ ↑cause ≤ 7 ∧ s.block.fatal = false) ∧
    (∃ s : State, s.awake ∧ s.block.stage ≠ Stage.done ∧ s.block.stuck = false ∧ s.block.fatal = false) :=
  ⟨⟨⟨[], fxDone⟩, 1, met inferInstance (by decide +kernel)⟩,
    ⟨⟨[], fxBoot⟩, met inferInstance (by decide +kernel)⟩⟩

/-- The premises of PowerTrips are met. -/
theorem witness_PowerTrips :
    (∃ s : State, s.block.sled.power = Power.off) ∧
    (∃ s : State, s.block.sled.power = Power.on) ∧
    (∃ s : State, ∃ c : Nat, s.block.sled.power = Power.tripped c ∧ c ≠ 4) ∧
    (∃ s : State, s.block.sled.power = Power.tripped 4) :=
  ⟨⟨⟨[], fxOff⟩, met inferInstance (by decide +kernel)⟩,
    ⟨⟨[], fxDone⟩, met inferInstance (by decide +kernel)⟩,
    ⟨⟨[], fxTripped 1⟩, 1, met inferInstance (by decide +kernel)⟩,
    ⟨⟨[], fxTripped 4⟩, met inferInstance (by decide +kernel)⟩⟩

/-- The premises of ReferenceLoss are met. -/
theorem witness_ReferenceLoss :
    ∃ s : State, s.block.sled.power = Power.on :=
  ⟨⟨[], fxDone⟩, met inferInstance (by decide +kernel)⟩

/-- The premises of SmbusTransactions are met. -/
theorem witness_SmbusTransactions :
    (∃ s : State, s.block.sled.power = Power.on) ∧
    (∃ s : State, s.block.sled.power ≠ Power.on ∧ s.block.sled.mateOpen = false) ∧
    (∃ s : State, s.awake ∧ s.block.sled.poweringOff = true) ∧
    (∃ s : State, s.block.sled.poweringOff = false) ∧
    (∃ s : State, ∃ d : BitVec 8, s.block.sled.power = Power.on ∧ s.block.joined = true ∧ d.getLsbD 0 = false) ∧
    (∃ s : State, ∃ d : BitVec 8, s.block.sled.power = Power.on ∧ (s.block.joined = true → d.getLsbD 0 = true) ∧
     s.block.sled.poweringOff = false ∧ s.block.stage ≠ Stage.done) ∧
    (∃ s : State, ∃ d : BitVec 8, s.awake ∧ (s.block.joined = true → d.getLsbD 0 = true) ∧ s.block.sled.poweringOff = false ∧
     s.block.stage = Stage.done) ∧
    (∃ s : State, s.block.sled.power ≠ Power.on) ∧
    (∃ d : BitVec 8, ∃ v : BitVec 16, ∃ (c : Instr), c ∈ [Instr.smbusStatus false, Instr.smbusTripLast false, Instr.smbusFatal
     false, Instr.powerRead false, Instr.powerOn false, Instr.powerOff false d, Instr.smbusColdReset false, Instr.locate false
     d, Instr.ident false, Instr.setModuleId false v] ∧ True) :=
  ⟨⟨⟨[], fxDone⟩, met inferInstance (by decide +kernel)⟩,
    ⟨⟨[], fxOff⟩, met inferInstance (by decide +kernel)⟩,
    ⟨⟨[], fxPoweringOff⟩, met inferInstance (by decide +kernel)⟩,
    ⟨⟨[], fxDone⟩, met inferInstance (by decide +kernel)⟩,
    ⟨⟨[], fxWith fxDone [(pGlb.at 0x110, 2^26)]⟩, 0, met inferInstance (by decide +kernel)⟩,
    ⟨⟨[], fxBoot⟩, 0, met inferInstance (by decide +kernel)⟩,
    ⟨⟨[], fxDone⟩, 0, met inferInstance (by decide +kernel)⟩,
    ⟨⟨[], fxOff⟩, met inferInstance (by decide +kernel)⟩,
    ⟨0, 0, met inferInstance (by decide +kernel)⟩⟩

/-- The premises of ButtonsAndSensors are met. -/
theorem witness_ButtonsAndSensors :
    (∃ ms : Nat, 50 ≤ ms) ∧
    (∃ ms : Nat, ms < 50) ∧
    (∃ ms : Nat, ms < 4000) ∧
    (∃ s : State, ∃ ms : Nat, 4000 ≤ ms ∧ ms < 12000 ∧ s.block.sled.power = Power.on) ∧
    (∃ s : State, ∃ ms : Nat, 12000 ≤ ms ∧ s.block.sled.power = Power.on) :=
  ⟨⟨50, met inferInstance (by decide +kernel)⟩,
    ⟨0, met inferInstance (by decide +kernel)⟩,
    ⟨0, met inferInstance (by decide +kernel)⟩,
    ⟨⟨[], fxDone⟩, 4000, met inferInstance (by decide +kernel)⟩,
    ⟨⟨[], fxDone⟩, 12000, met inferInstance (by decide +kernel)⟩⟩

/-- The premises of PaceLevels are met. -/
theorem witness_PaceLevels :
    (∃ s : State, ∃ d : Fin 12, ∃ k : Fin 4, ∃ v : BitVec 12, s.awake ∧ s.block.Canonical ∧ s.block.CanonicalParts ∧ (¬↑k ∈
     (s.block.domain ↑d).asserted) ∧ s.block.fld pPwr 268 0 8 ≤ v.toNat) ∧
    (∃ s : State, ∃ v : BitVec 12, s.awake ∧ s.block.Canonical ∧ s.block.CanonicalParts ∧ v.toNat < s.block.fld pPwr 268 0 8) ∧
    (∃ s : State, ∃ v : BitVec 12, s.awake ∧ s.block.Canonical ∧ s.block.CanonicalParts ∧ s.block.fld pPwr 268 0 8 ≤ v.toNat) ∧
    (∃ s : State, ∃ d : Fin 12, ∃ k : Fin 4, ∃ v : BitVec 12, s.awake ∧ s.block.Canonical ∧ s.block.CanonicalParts ∧ ↑k ∈
     (s.block.domain ↑d).asserted ∧ v.toNat < s.block.fld pPwr 268 0 8) ∧
    (∃ s : State, ∃ d : Fin 12, s.awake ∧ s.block.Canonical ∧ s.block.CanonicalParts ∧ ∃ (t : Nat), (s.block.domain
     ↑d).holdStart = some t ∧ t + s.block.sagHold ≤ s.block.meter ∧ 0 < (s.block.domain ↑d).sag) ∧
    (∃ s : State, ∃ d : Fin 12, s.awake ∧ s.block.Canonical ∧ s.block.CanonicalParts ∧ ∃ (t : Nat), (s.block.domain
     ↑d).holdStart = some t ∧ s.block.meter < t + s.block.sagHold) ∧
    (∃ s : State, ∃ t : BitVec 11, s.awake ∧ s.block.Canonical ∧ s.block.CanonicalParts ∧ Quiet s.block pPwr ∧ t.toNat < 236) ∧
    (∃ s : State, ∃ t : BitVec 11, s.awake ∧ s.block.Canonical ∧ s.block.CanonicalParts ∧ Quiet s.block pPwr ∧ 236 ≤ t.toNat) ∧
    (∃ s : State, s.awake ∧ s.block.Canonical ∧ s.block.CanonicalParts ∧ Quiet s.block pPwr) ∧
    (∃ s : State, s.awake ∧ s.block.Canonical ∧ s.block.governor.capLast + 10000 ≤ s.block.meter ∧ ∃ (cap1 : Nat), cap1 = 4 *
     s.block.fld pPwr 276 0 16 ∧ ∃ (cap2 : Nat), cap2 = 4 * s.block.fld pPwr 276 16 16 ∧ ∃ (hyst : Nat), hyst = 4 * s.block.fld
     pPwr 280 16 8 ∧ ∃ (hold : Nat), hold = 100 * s.block.fld pPwr 280 0 16 ∧ ∃ (g : Governor), g = s.block.governor ∧ True) :=
  ⟨⟨⟨[], fxSag⟩, 0, 0, 4095, met inferInstance (by decide +kernel)⟩,
    ⟨⟨[], fxSag⟩, 0, met inferInstance (by decide +kernel)⟩,
    ⟨⟨[], fxSag⟩, 4095, met inferInstance (by decide +kernel)⟩,
    ⟨⟨[], fxSag⟩, 0, 1, 0, met inferInstance (by decide +kernel)⟩,
    ⟨⟨[], fxSag⟩, 1, met inferInstance (by decide +kernel)⟩,
    ⟨⟨[], fxHold⟩, 1, met inferInstance (by decide +kernel)⟩,
    ⟨⟨[], fxSag⟩, 0, met inferInstance (by decide +kernel)⟩,
    ⟨⟨[], fxSag⟩, 236, met inferInstance (by decide +kernel)⟩,
    ⟨⟨[], fxSag⟩, met inferInstance (by decide +kernel)⟩,
    ⟨⟨[], fxCaps none⟩, met inferInstance (by decide +kernel)⟩⟩

/-- The premises of TenantAcceptedAndReleased are met. -/
theorem witness_TenantAcceptedAndReleased :
    (∃ s : State, ∃ v : BitVec 32, s.open_ ∧ s.block.Canonical ∧ Quiet s.block pSec ∧ s.block.tstate = 0 ∧ v ≠ 0) ∧
    (∃ s : State, s.open_ ∧ s.block.Canonical ∧ Quiet s.block pSec ∧ s.block.tstate = 0 ∧ ∃ (v : BitVec 32), v = 0 ∧ True) ∧
    (∃ s : State, s.open_ ∧ s.block.Canonical ∧ Quiet s.block pSec ∧ s.block.tstate ≠ 0) ∧
    (∃ s : State, ∃ v : BitVec 32, s.open_ ∧ s.block.Canonical ∧ Quiet s.block pSec ∧ v.toNat / 65536 = 32346 ∧ v.getLsbD 0 =
     true ∧ s.block.joined = false ∧ s.block.tstate = 1) ∧
    (∃ s : State, ∃ v : BitVec 32, s.open_ ∧ s.block.Canonical ∧ Quiet s.block pSec ∧ v.toNat / 65536 = 32346 ∧ v.getLsbD 0 =
     true ∧ (s.block.joined = true ∨ s.block.tstate ≠ 1)) ∧
    (∃ s : State, s.awake ∧ s.block.Canonical ∧ s.block.tstate = 2) ∧
    (∃ s : State, s.awake ∧ s.block.tstate ≠ 2) :=
  ⟨⟨⟨[], fxDone⟩, 1, met inferInstance (by decide +kernel)⟩,
    ⟨⟨[], fxDone⟩, met inferInstance (by decide +kernel)⟩,
    ⟨⟨[], fxTenancy 1⟩, met inferInstance (by decide +kernel)⟩,
    ⟨⟨[], fxTenancy 1⟩, 0x7E5A0001, met inferInstance (by decide +kernel)⟩,
    ⟨⟨[], fxDone⟩, 0x7E5A0001, met inferInstance (by decide +kernel)⟩,
    ⟨⟨[], fxTenancy 2⟩, met inferInstance (by decide +kernel)⟩,
    ⟨⟨[], fxDone⟩, met inferInstance (by decide +kernel)⟩⟩

/-- The premises of FirmwareAndAttestation are met. -/
theorem witness_FirmwareAndAttestation :
    (∃ s : State, ∃ v : BitVec 32, s.open_ ∧ s.block.Canonical ∧ s.block.CanonicalParts ∧ v.getLsbD 0 = true ∧ v.getLsbD 1 =
     false ∧ v.getLsbD 12 = false ∧ s.block.fld pSec 332 8 4 ≠ 1) ∧
    (∃ s : State, ∃ v : BitVec 32, s.open_ ∧ s.block.Canonical ∧ s.block.CanonicalParts ∧ v.getLsbD 0 = true ∧ v.getLsbD 1 =
     false ∧ v.getLsbD 12 = false ∧ s.block.fld pSec 332 8 4 = 1) ∧
    (∃ s : State, ∃ v : BitVec 32, s.open_ ∧ s.block.Canonical ∧ s.block.CanonicalParts ∧ v.getLsbD 0 = false ∧ v.getLsbD 1 =
     true ∧ v.getLsbD 12 = false) ∧
    (∃ s : State, s.awake ∧ s.block.Canonical ∧ s.block.CanonicalParts ∧ Quiet s.block pSec ∧ ∃ (i : Bytes),
     s.block.sec.verifying = some i ∧ True) ∧
    (∃ s : State, ∃ v : BitVec 32, s.open_ ∧ s.block.Canonical ∧ v.getLsbD 0 = true) ∧
    (∃ s : State, s.awake ∧ s.block.Canonical ∧ s.block.fld pSec 340 1 1 = 1) ∧
    (∃ s : State, s.awake ∧ s.block.fld pSec 340 1 1 = 0) :=
  ⟨⟨⟨[], fxDone⟩, 1, met inferInstance (by decide +kernel)⟩,
    ⟨⟨[], fxVerifying⟩, 1, met inferInstance (by decide +kernel)⟩,
    ⟨⟨[], fxDone⟩, 2, met inferInstance (by decide +kernel)⟩,
    ⟨⟨[], fxVerifying⟩, met inferInstance (by decide +kernel)⟩,
    ⟨⟨[], fxDone⟩, 1, met inferInstance (by decide +kernel)⟩,
    ⟨⟨[], fxReport⟩, met inferInstance (by decide +kernel)⟩,
    ⟨⟨[], fxDone⟩, met inferInstance (by decide +kernel)⟩⟩

/-- The premises of DebugGrants are met. -/
theorem witness_DebugGrants :
    (∃ s : State, ∃ v : BitVec 32, s.open_ ∧ s.block.Canonical ∧ Quiet s.block pDbg ∧ v.getLsbD 0 = true ∧ v.getLsbD 1 = false)
     ∧
    (∃ s : State, ∃ v : BitVec 32, s.open_ ∧ s.block.Canonical ∧ Quiet s.block pDbg ∧ v.getLsbD 0 = false ∧ v.getLsbD 1 = true)
     ∧
    (∃ s : State, ∃ v : BitVec 32, s.open_ ∧ s.block.Canonical ∧ Quiet s.block pDbg ∧ v.toNat / 65536 = 45552 ∧ v.getLsbD 0 =
     true ∧ s.block.granted 0 = true) ∧
    (∃ s : State, ∃ v : BitVec 32, s.open_ ∧ s.block.Canonical ∧ Quiet s.block pDbg ∧ v.toNat / 65536 = 45552 ∧ v.getLsbD 0 =
     true ∧ s.block.granted 0 = false ∧ s.block.fieldLock = false) ∧
    (∃ s : State, ∃ v : BitVec 32, s.open_ ∧ Quiet s.block pDbg ∧ v.toNat / 65536 ≠ 45552) ∧
    (∃ s : State, ∃ ns : Nat, s.awake ∧ s.block.granted 0 = true ∧ 1000 ≤ ns) ∧
    (∃ s : State, ∃ ns : Nat, s.awake ∧ s.block.granted 0 = true ∧ ns < 1000) ∧
    (∃ s : State, s.awake ∧ s.block.fieldLock = false ∧ s.block.tap.reset = false ∧ s.block.granted 0 = true) ∧
    (∃ s : State, ∃ v : BitVec 32, s.open_ ∧ s.block.Canonical ∧ v.toNat / 65536 = 61708 ∧ v.getLsbD 0 = true ∧ s.block.tstate ≠
     2) :=
  ⟨⟨⟨[], fxDone⟩, 1, met inferInstance (by decide +kernel)⟩,
    ⟨⟨[], fxDone⟩, 2, met inferInstance (by decide +kernel)⟩,
    ⟨⟨[], fxGranted false⟩, 0xB1F00001, met inferInstance (by decide +kernel)⟩,
    ⟨⟨[], fxDone⟩, 0xB1F00001, met inferInstance (by decide +kernel)⟩,
    ⟨⟨[], fxDone⟩, 0, met inferInstance (by decide +kernel)⟩,
    ⟨⟨[], fxGranted false⟩, 1000, met inferInstance (by decide +kernel)⟩,
    ⟨⟨[], fxGranted false⟩, 0, met inferInstance (by decide +kernel)⟩,
    ⟨⟨[], fxGranted false⟩, met inferInstance (by decide +kernel)⟩,
    ⟨⟨[], fxDone⟩, 0xF10C0001, met inferInstance (by decide +kernel)⟩⟩

/-- The premises of TestAccessPort are met. -/
theorem witness_TestAccessPort :
    (∃ s : State, s.block.sled.power = Power.on ∧ s.block.fieldLock = false ∧ s.block.tap.reset = false ∧ s.block.bivouac =
     true) ∧
    (∃ s : State, s.block.sled.power = Power.on ∧ s.block.fieldLock = false ∧ s.block.tap.reset = false ∧ s.block.bivouac =
     false) ∧
    (∃ s : State, s.block.sled.power = Power.on ∧ s.block.fieldLock = false ∧ s.block.tap.reset = false ∧ List.length
     s.block.sec.challenge = 64) ∧
    (∃ s : State, ∃ t : Bytes, s.block.sled.power = Power.on ∧ s.block.fieldLock = false ∧ s.block.tap.reset = false ∧
     List.length t = 1152 ∧ s.block.bivouac = false ∧ s.block.Canonical) ∧
    (∃ s : State, s.block.sled.power = Power.on ∧ s.block.fieldLock = false ∧ s.block.tap.reset = false ∧ s.block.bivouac = true
     ∧ s.block.granted 1 = true) ∧
    (∃ s : State, s.block.sled.power = Power.on ∧ s.block.fieldLock = false ∧ s.block.tap.reset = false ∧ (s.block.bivouac =
     false ∨ s.block.granted 1 = false)) ∧
    (∃ s : State, s.block.sled.power = Power.on ∧ s.block.fieldLock = false ∧ s.block.tap.reset = false ∧ s.block.bivouac = true
     ∧ s.block.granted 2 = true) ∧
    (∃ s : State, s.block.sled.power = Power.on ∧ s.block.fieldLock = false ∧ s.block.tap.reset = false ∧ (s.block.bivouac =
     false ∨ s.block.granted 2 = false)) ∧
    (∃ s : State, s.block.sled.power = Power.on ∧ s.block.fieldLock = false ∧ s.block.tap.reset = false) ∧
    (∃ s : State, ∃ tdi : Bits, ∃ pins : Bits, ∃ d : Bits, ∃ t : Bytes, ∃ c : BitVec 16, s.block.sled.power = Power.on ∧
     (s.block.fieldLock = true ∨ s.block.tap.reset = true) ∧ ∃ (i : Instr), i ∈ [Instr.bypass tdi, Instr.idcode,
     Instr.samplePreload tdi pins, Instr.extest tdi, Instr.challenge, Instr.token t, Instr.freeze, Instr.chainSel c,
     Instr.chainLen, Instr.chainRead, Instr.chainWrite d] ∧ True) :=
  ⟨⟨⟨[], fxGranted true⟩, met inferInstance (by decide +kernel)⟩,
    ⟨⟨[], fxTap⟩, met inferInstance (by decide +kernel)⟩,
    ⟨⟨[], fxTap⟩, met inferInstance (by decide +kernel)⟩,
    ⟨⟨[], fxTap⟩, (List.replicate 1152 5), met inferInstance (by decide +kernel)⟩,
    ⟨⟨[], fxGranted true⟩, met inferInstance (by decide +kernel)⟩,
    ⟨⟨[], fxTap⟩, met inferInstance (by decide +kernel)⟩,
    ⟨⟨[], fxGranted true⟩, met inferInstance (by decide +kernel)⟩,
    ⟨⟨[], fxTap⟩, met inferInstance (by decide +kernel)⟩,
    ⟨⟨[], fxTap⟩, met inferInstance (by decide +kernel)⟩,
    ⟨⟨[], fxDone⟩, [], [], [], [], 0, met inferInstance (by decide +kernel)⟩⟩

/-- The premises of KeySlots are met. -/
theorem witness_KeySlots :
    (∃ s : State, ∃ v : BitVec 32, s.open_ ∧ s.block.Canonical ∧ s.block.CanonicalParts ∧ Quiet s.block pSec ∧ ∃ (n : Nat),
     s.block.fld pSec 268 0 12 = n ∧ v.toNat % 8 = 1 ∧ (s.block.slot n).st = 0 ∧ s.block.tstate = 1) ∧
    (∃ s : State, ∃ v : BitVec 32, s.open_ ∧ s.block.Canonical ∧ s.block.CanonicalParts ∧ Quiet s.block pSec ∧ ∃ (n : Nat),
     s.block.fld pSec 268 0 12 = n ∧ v.toNat % 8 = 1 ∧ ((s.block.slot n).st ≠ 0 ∨ s.block.tstate ≠ 1)) ∧
    (∃ s : State, ∃ v : BitVec 32, s.open_ ∧ s.block.Canonical ∧ s.block.CanonicalParts ∧ Quiet s.block pSec ∧ ∃ (n : Nat),
     s.block.fld pSec 268 0 12 = n ∧ v.toNat % 8 = 2 ∧ (s.block.slot n).st = 1) ∧
    (∃ s : State, ∃ v : BitVec 32, s.open_ ∧ s.block.Canonical ∧ s.block.CanonicalParts ∧ Quiet s.block pSec ∧ ∃ (n : Nat),
     s.block.fld pSec 268 0 12 = n ∧ v.toNat % 8 = 2 ∧ (s.block.slot n).st ≠ 1) ∧
    (∃ s : State, ∃ v : BitVec 32, s.open_ ∧ s.block.Canonical ∧ s.block.CanonicalParts ∧ Quiet s.block pSec ∧ ∃ (n : Nat),
     s.block.fld pSec 268 0 12 = n ∧ v.toNat % 8 = 4 ∧ (s.block.slot n).st = 1) ∧
    (∃ s : State, ∃ v : BitVec 32, s.open_ ∧ s.block.Canonical ∧ s.block.CanonicalParts ∧ Quiet s.block pSec ∧ ∃ (n : Nat),
     s.block.fld pSec 268 0 12 = n ∧ v.toNat % 8 = 4 ∧ (s.block.slot n).st ≠ 1) :=
  ⟨⟨⟨[], fxTenancy 1⟩, 1, met inferInstance (by decide +kernel)⟩,
    ⟨⟨[], fxDone⟩, 1, met inferInstance (by decide +kernel)⟩,
    ⟨⟨[], fxSlot .closed 0⟩, 2, met inferInstance (by decide +kernel)⟩,
    ⟨⟨[], fxDone⟩, 2, met inferInstance (by decide +kernel)⟩,
    ⟨⟨[], fxSlot .closed 0⟩, 4, met inferInstance (by decide +kernel)⟩,
    ⟨⟨[], fxDone⟩, 4, met inferInstance (by decide +kernel)⟩⟩

/-- The premises of SessionsOpenAndClose are met. -/
theorem witness_SessionsOpenAndClose :
    (∃ s : State, ∃ m : OpenMsg, s.awake ∧ s.block.Canonical ∧ s.block.pageState pKwt = 2 ∧ badOpen s.block m 112 64 = false ∧
     s.block.tstate = 1 ∧ (s.block.slot m.session.toNat).st = 1 ∧ (s.block.slot m.session.toNat).peer = m.endpoint.toNat ∧
     (s.block.session m.session.toNat).state = SessState.closed) ∧
    (∃ s : State, ∃ m : OpenMsg, s.awake ∧ s.block.Canonical ∧ s.block.pageState pKwt = 2 ∧ badOpen s.block m 112 64 = false ∧
     (s.block.tstate ≠ 1 ∨ (s.block.slot m.session.toNat).st ≠ 1 ∨ (s.block.slot m.session.toNat).peer ≠ m.endpoint.toNat ∨
     (s.block.session m.session.toNat).state ≠ SessState.closed)) ∧
    (∃ s : State, ∃ n : BitVec 12, s.awake ∧ s.block.Canonical ∧ (s.block.session n.toNat).state = SessState.opening ∧
     (s.block.session n.toNat).since + 100000 ≤ s.block.meter) ∧
    (∃ s : State, ∃ n : BitVec 12, s.awake ∧ s.block.Canonical ∧ (s.block.session n.toNat).state = SessState.opening ∧
     s.block.meter < (s.block.session n.toNat).since + 100000) ∧
    (∃ s : State, ∃ m : OpenMsg, s.awake ∧ Quiet s.block pSec ∧ s.block.Canonical ∧ s.block.CanonicalParts ∧ s.block.pageState
     pKwt = 2 ∧ badOpen s.block m 113 128 = false ∧ ∃ (n : Nat), m.session.toNat = n ∧ ∃ (x : Session), s.block.session n = x ∧
     ∃ (k : KeySlot), s.block.slot n = k ∧ s.block.tstate = 1 ∧ x.state = SessState.opening ∧ x.endpoint = m.endpoint.toNat) ∧
    (∃ s : State, ∃ id : Nat, ∃ n : Nat, ∃ k : Nat, s.awake ∧ s.block.Canonical ∧ ∃ (c : Cmd), s.block.cmd id = some c ∧ c.phase
     = Phase.handed ∧ c.opcode = 114 ∧ s.block.passed c.deadline = false ∧ s.block.recheck c = Verdict.pass ∧ c.payValid = false
     ∧ c.src = Source.session n k ∧ (s.block.session n).state = SessState.opened) ∧
    (∃ s : State, ∃ n : BitVec 12, s.awake ∧ s.block.Canonical ∧ ∃ (id : Nat), (s.block.session n.toNat).closing = some id ∧
     (s.block.session n.toNat).state = SessState.closing ∧ (∀ (i : Nat), i ∈ s.block.sessionCmds n.toNat → i = id)) ∧
    (∃ s : State, ∃ n : BitVec 12, s.awake ∧ s.block.Canonical ∧ ∃ (id : Nat), (s.block.session n.toNat).closing = some id ∧
     (s.block.session n.toNat).state = SessState.closing ∧ (∃ i, i ∈ s.block.sessionCmds n.toNat ∧ i ≠ id)) :=
  ⟨⟨⟨[], fxSlot .closed 0⟩, fxOpen, met inferInstance (by decide +kernel)⟩,
    ⟨⟨[], fxSlot .opened 0⟩, fxOpen, met inferInstance (by decide +kernel)⟩,
    ⟨⟨[], fxSlot .opening 2⟩, 0, met inferInstance (by decide +kernel)⟩,
    ⟨⟨[], { fxSlot .opening 0 with meter := 99999 }⟩, 0, met inferInstance (by decide +kernel)⟩,
    ⟨⟨[], fxSlot .opening 2⟩, fxProve, met inferInstance (by decide +kernel)⟩,
    ⟨⟨[], fxClose⟩, 0, 0, 1, met inferInstance (by decide +kernel)⟩,
    ⟨⟨[], fxClosing false⟩, 0, met inferInstance (by decide +kernel)⟩,
    ⟨⟨[], fxClosing true⟩, 0, met inferInstance (by decide +kernel)⟩⟩

/-- The premises of NoticesAndSamples are met. -/
theorem witness_NoticesAndSamples :
    (∃ s : State, s.awake ∧ s.block.Canonical ∧ s.block.sec.lastTel + s.block.fld pSec 416 0 16 * 100000 ≤ s.block.meter) ∧
    (∃ s : State, s.awake ∧ s.block.Canonical ∧ s.block.meter < s.block.sec.lastTel + s.block.fld pSec 416 0 16 * 100000) ∧
    (∃ s : State, s.block.Canonical ∧ ∃ (base : Nat), base = s.block.get pTrf 280 ∧ ∃ (wr : Nat), wr = s.block.get pTrf 292 ∧ ∃
     (n : Nat), n = s.block.get pTrf 288 ∧ ∃ (used : Nat), used = (wr + 2 ^ 32 - s.block.get pTrf 296) % 2 ^ 32 ∧ s.awake ∧
     Quiet s.block pTrf ∧ s.block.fld pTrf 272 0 1 = 1 ∧ s.block.trf.roundBase + s.block.get pTrf 276 * 100 * s.block.trf.round
     ≤ s.block.meter ∧ used + s.block.sampled.length ≤ n) ∧
    (∃ s : State, s.block.Canonical ∧ ∃ (base : Nat), base = s.block.get pTrf 280 ∧ ∃ (wr : Nat), wr = s.block.get pTrf 292 ∧ ∃
     (n : Nat), n = s.block.get pTrf 288 ∧ ∃ (used : Nat), used = (wr + 2 ^ 32 - s.block.get pTrf 296) % 2 ^ 32 ∧ s.awake ∧
     Quiet s.block pTrf ∧ s.block.fld pTrf 272 0 1 = 1 ∧ s.block.trf.roundBase + s.block.get pTrf 276 * 100 * s.block.trf.round
     ≤ s.block.meter ∧ n < used + s.block.sampled.length) ∧
    (∃ s : State, ∃ v : BitVec 32, s.block.Canonical ∧ ∃ (base : Nat), base = s.block.get pTrf 280 ∧ ∃ (wr : Nat), wr =
     s.block.get pTrf 292 ∧ ∃ (n : Nat), n = s.block.get pTrf 288 ∧ ∃ (used : Nat), used = (wr + 2 ^ 32 - s.block.get pTrf 296)
     % 2 ^ 32 ∧ s.open_ ∧ Quiet s.block pTrf ∧ s.block.fld pTrf 272 0 1 = 0 ∧ v.getLsbD 0 = true) ∧
    (∃ s : State, ∃ v : BitVec 32, s.block.Canonical ∧ ∃ (base : Nat), base = s.block.get pTrf 280 ∧ ∃ (wr : Nat), wr =
     s.block.get pTrf 292 ∧ ∃ (n : Nat), n = s.block.get pTrf 288 ∧ ∃ (used : Nat), used = (wr + 2 ^ 32 - s.block.get pTrf 296)
     % 2 ^ 32 ∧ s.open_ ∧ Quiet s.block pTrf ∧ v.getLsbD 0 = false) :=
  ⟨⟨⟨[], {fxSlot .opened 0 with meter := 100000000}⟩, met inferInstance (by decide +kernel)⟩,
    ⟨⟨[], fxDone⟩, met inferInstance (by decide +kernel)⟩,
    ⟨⟨[], fxRing 6⟩, met inferInstance (by decide +kernel)⟩,
    ⟨⟨[], fxRing 7⟩, met inferInstance (by decide +kernel)⟩,
    ⟨⟨[], fxDone⟩, 1, met inferInstance (by decide +kernel)⟩,
    ⟨⟨[], fxDone⟩, 0, met inferInstance (by decide +kernel)⟩⟩

/-- The premises of PortsAndPosts are met. -/
theorem witness_PortsAndPosts :
    (∃ s : State, ∃ p : Fin 64, ∃ v : BitVec 32, s.open_ ∧ s.block.Canonical ∧ v.getLsbD 0 = true ∧ s.block.portIdle ↑p = true)
     ∧
    (∃ s : State, ∃ p : Fin 64, ∃ v : BitVec 32, s.open_ ∧ s.block.Canonical ∧ v.getLsbD 0 = true ∧ s.block.portIdle ↑p = false
     ∧ s.block.fld pHlk (portOff ↑p) 0 1 = 0) ∧
    (∃ s : State, ∃ p : Fin 64, ∃ v : BitVec 32, s.open_ ∧ s.block.Canonical ∧ v.getLsbD 0 = false ∧ s.block.fld pHlk (portOff
     ↑p) 0 1 = 1) ∧
    (∃ s : State, ∃ p : Fin 64, ∃ off : BitVec 12, ∃ data : Bytes, s.open_ ∧ s.block.Canonical ∧ s.block.get pHlk 264 ≠ 0 ∧
     Quiet s.block pHlk ∧ Quiet s.block pTrf ∧ off.toNat % 64 = 0 ∧ List.length data = 64 ∧ s.block.fld pHlk (portOff ↑p) 0 1 =
     1 ∧ (s.block.port ↑p).violated = false ∧ s.block.portInflight ↑p < s.block.credits ↑p ∧ s.block.running pHlk = true ∧ ∃ (c
     : Cmd), c = s.block.newCmd (Source.port ↑p) data [] ∧ badFormat s.block c = false ∧ s.block.running pTrf = true ∧
     s.block.tstate = 1 ∧ s.block.lacksPage c = false ∧ s.block.beyondReach c.accepted c.budget = false ∧ (s.block.flow (4096 +
     ↑p)).en = false ∧ s.block.trf.entries.length < 65536 ∧ s.block.trf.outside = [] ∧ s.block.cmd s.block.nextCmd = none) ∧
    (∃ s : State, ∃ p : Fin 64, ∃ off : BitVec 12, ∃ data : Bytes, s.open_ ∧ s.block.Canonical ∧ s.block.get pHlk 264 ≠ 0 ∧
     (off.toNat % 64 ≠ 0 ∨ List.length data ≠ 64 ∨ s.block.fld pHlk (portOff ↑p) 0 1 = 0 ∨ (s.block.port ↑p).violated = true)) ∧
    (∃ s : State, ∃ p : Fin 64, ∃ off : BitVec 12, ∃ data : Bytes, s.open_ ∧ s.block.Canonical ∧ s.block.get pHlk 264 ≠ 0 ∧
     off.toNat % 64 = 0 ∧ List.length data = 64 ∧ s.block.fld pHlk (portOff ↑p) 0 1 = 1 ∧ (s.block.port ↑p).violated = false ∧
     s.block.credits ↑p ≤ s.block.portInflight ↑p) ∧
    (∃ s : State, s.open_ ∧ s.block.Canonical ∧ s.block.get pHlk 264 ≠ 0) :=
  ⟨⟨⟨[], fxDone⟩, 0, 1, met inferInstance (by decide +kernel)⟩,
    ⟨⟨[], fxPortBusy⟩, 0, 1, met inferInstance (by decide +kernel)⟩,
    ⟨⟨[], fxPort false⟩, 0, 0, met inferInstance (by decide +kernel)⟩,
    ⟨⟨[], fxPort false⟩, 0, 0, fxPost, met inferInstance (by decide +kernel)⟩,
    ⟨⟨[], fxPort false⟩, 0, 0, (fxPost.take 63), met inferInstance (by decide +kernel)⟩,
    ⟨⟨[], fxPortFull⟩, 0, 0, fxPost, met inferInstance (by decide +kernel)⟩,
    ⟨⟨[], fxPort false⟩, met inferInstance (by decide +kernel)⟩⟩

/-- The premises of SchedulersAndMeters are met. -/
theorem witness_SchedulersAndMeters :
    (∃ s : State, s.awake ∧ Quiet s.block pTrf ∧ s.block.Canonical ∧ s.block.trf.entries ≠ [] ∧ s.block.trf.outside = [] ∧ (∀ (e
     : TrfEntry), e ∈ s.block.trf.entries → e.queue < 46 ∧ s.block.passed e.deadline = false)) ∧
    (∃ s : State, s.awake ∧ s.block.trf.entries = [] ∧ s.block.trf.outside = []) ∧
    (∃ s : State, s.awake ∧ s.block.Canonical ∧ s.block.egress ≠ [] ∧ (∀ (e : EgressEntry), e ∈ s.block.egress → 64 ≤ e.queue ∧
     e.queue < 70)) ∧
    (∃ s : State, s.awake ∧ s.block.egress = []) ∧
    (∃ s : State, ∃ v : BitVec 32, s.open_ ∧ Quiet s.block pTrf ∧ s.block.Canonical ∧ s.block.CanonicalParts ∧ v.getLsbD 2 =
     true ∧ ∃ (f : Nat), s.block.fld pTrf 320 0 13 = f ∧ (s.block.flowKind f = 1 ∨ s.block.flowKind f = 2) ∧ (v.getLsbD 0 =
     false ∨ 1 ≤ s.block.get pTrf 328 ∧ s.block.get pTrf 328 ≤ s.block.get pTrf 332 ∧ 1 ≤ s.block.get pTrf 336 ∧ s.block.get
     pTrf 336 ≤ s.block.get pTrf 340)) ∧
    (∃ s : State, ∃ v : BitVec 32, s.open_ ∧ Quiet s.block pTrf ∧ s.block.Canonical ∧ s.block.CanonicalParts ∧ v.getLsbD 2 =
     true ∧ ∃ (f : Nat), s.block.fld pTrf 320 0 13 = f ∧ (s.block.flowKind f = 1 ∨ s.block.flowKind f = 2) ∧ v.getLsbD 0 = true
     ∧ (s.block.get pTrf 328 = 0 ∨ s.block.get pTrf 332 < s.block.get pTrf 328 ∨ s.block.get pTrf 336 = 0 ∨ s.block.get pTrf 340
     < s.block.get pTrf 336)) :=
  ⟨⟨⟨[], fxQueues⟩, met inferInstance (by decide +kernel)⟩,
    ⟨⟨[], fxDone⟩, met inferInstance (by decide +kernel)⟩,
    ⟨⟨[], fxQueues⟩, met inferInstance (by decide +kernel)⟩,
    ⟨⟨[], fxDone⟩, met inferInstance (by decide +kernel)⟩,
    ⟨⟨[], fxMeter true⟩, 4, met inferInstance (by decide +kernel)⟩,
    ⟨⟨[], fxMeter false⟩, 5, met inferInstance (by decide +kernel)⟩⟩

/-- The premises of SearchesAdmitted are met. -/
theorem witness_SearchesAdmitted :
    (∃ s : State, ∃ id : Nat, ∃ ver : Nat, ∃ cairn : Nat, ∃ v : Version, s.awake ∧ s.block.Canonical ∧ ∃ (c : Cmd), s.block.cmd
     id = some c ∧ c.phase = Phase.handed ∧ s.block.passed c.deadline = false ∧ s.block.recheck c = Verdict.pass ∧
     s.block.running (pQpl 0) = true ∧ s.block.admitClosed 0 = false ∧ c.pay.space ≠ 1 ∧ s.block.lacksLease c = false ∧
     s.block.searchOf id = none ∧ ∃ (x : Search), x = s.block.newSearch c ∧ x.encode = false ∧ searchCheck s.block c
     (searchParams c) (queryHeader (s.block.readInput c 0 64)) x.terms = none ∧ ∃ (e : Nat × Instr), e ∈ [(16, Instr.search id),
     (17, Instr.searchBatch id), (18, Instr.searchHybrid id [])] ∧ c.opcode = e.fst ∧ Bindable s.block c 0 x ver cairn v) ∧
    (∃ s : State, ∃ id : Nat, s.awake ∧ s.block.Canonical ∧ ∃ (c : Cmd), s.block.cmd id = some c ∧ c.phase = Phase.handed ∧
     s.block.passed c.deadline = false ∧ s.block.recheck c = Verdict.pass ∧ s.block.running (pQpl 0) = true ∧
     s.block.admitClosed 0 = false ∧ c.pay.space ≠ 1 ∧ s.block.lacksLease c = false ∧ s.block.searchOf id = none ∧ ∃ (x :
     Search), x = s.block.newSearch c ∧ x.encode = false ∧ searchCheck s.block c (searchParams c) (queryHeader
     (s.block.readInput c 0 64)) x.terms = none ∧ ∃ (e : Nat × Instr), e ∈ [(16, Instr.search id), (17, Instr.searchBatch id),
     (18, Instr.searchHybrid id [])] ∧ c.opcode = e.fst ∧ s.block.running pIdx = true ∧ (c.opcode = 18 → s.block.tableHas
     x.table x.tversion = true) ∧ (s.block.index x.index).bind x.version x.cairn = Binding.held) ∧
    (∃ s : State, ∃ id : Nat, ∃ ver : Nat, ∃ cairn : Nat, ∃ v : Version, s.awake ∧ s.block.Canonical ∧ ∃ (c : Cmd), s.block.cmd
     id = some c ∧ Quiet s.block (pQpl c.die) ∧ s.block.running (pQpl c.die) = true ∧ ∃ (x : Search), s.block.searchOf id = some
     x ∧ x.bound = false ∧ Bindable s.block c c.die x ver cairn v) ∧
    (∃ s : State, ∃ id : Nat, s.awake ∧ s.block.Canonical ∧ ∃ (c : Cmd), s.block.cmd id = some c ∧ Quiet s.block (pQpl c.die) ∧
     s.block.running (pQpl c.die) = true ∧ ∃ (x : Search), s.block.searchOf id = some x ∧ x.bound = false ∧ s.block.passed
     c.deadline = true) ∧
    (∃ s : State, ∃ id : Nat, ∃ ver : Nat, ∃ cairn : Nat, s.awake ∧ s.block.Canonical ∧ ∃ (c : Cmd), s.block.cmd id = some c ∧
     Quiet s.block (pQpl c.die) ∧ s.block.running (pQpl c.die) = true ∧ ∃ (x : Search), s.block.searchOf id = some x ∧ x.bound =
     false ∧ s.block.passed c.deadline = false ∧ s.block.running pIdx = true ∧ x.encode = false ∧ c.opcode ≠ 18 ∧ (s.block.index
     x.index).bind x.version x.cairn = Binding.bound ver cairn ∧ ∃ (v : Version), (s.block.index x.index).version ver = some v ∧
     boundCheck v.root x.dim x.terms = false ∧ s.block.ctxUsed c.die + x.queries.length ≤ 131072 ∧ s.block.lanePurging c.pitch =
     false ∧ (∃ p, p ∈ s.block.searchPlaces x.index v ∧ s.block.placeReady p = false)) ∧
    (∃ s : State, ∃ id : Nat, s.awake ∧ s.block.Canonical ∧ ∃ (c : Cmd), s.block.cmd id = some c ∧ Quiet s.block (pQpl c.die) ∧
     s.block.running (pQpl c.die) = true ∧ ∃ (x : Search), s.block.searchOf id = some x ∧ x.bound = false ∧ s.block.passed
     c.deadline = false ∧ s.block.running pIdx = true ∧ c.opcode ≠ 18 ∧ (s.block.index x.index).bind x.version x.cairn =
     Binding.held) :=
  ⟨⟨⟨[], fxSearch 0x10 0⟩, 0, 1, 0, fxVersion, met inferInstance (by decide +kernel)⟩,
    ⟨⟨[], fxSearch 0x10 5⟩, 0, met inferInstance (by decide +kernel)⟩,
    ⟨⟨[], fxWaiting 0x10 0 0⟩, 0, 1, 0, fxVersion, met inferInstance (by decide +kernel)⟩,
    ⟨⟨[], fxWaiting 0x10 0 1000⟩, 0, met inferInstance (by decide +kernel)⟩,
    ⟨⟨[], { fxWaiting 0x10 0 0 with rope := { notReady := [0] } }⟩, 0, 1, 0, met inferInstance (by decide +kernel)⟩,
    ⟨⟨[], fxWaiting 0x10 5 0⟩, 0, met inferInstance (by decide +kernel)⟩⟩

/-- The premises of ShardsSearched are met. -/
theorem witness_ShardsSearched :
    (∃ s : State, ∃ r : ShardReq, s.awake ∧ s.block.Canonical ∧ r.shards ≠ [] ∧ (∀ (k : Nat), k ∈ r.shards →
     s.block.placeOfShard r.index k = s.block.place ∧ s.block.shardMoving r.index k = false) ∧ s.block.running (pQpl 0) = true ∧
     s.block.running pIdx = true ∧ ∃ (v : Version), (s.block.index r.index).version r.version = some v ∧ v.state ≠
     VState.mounting ∧ s.block.ctxUsed 0 < 131072 ∧ s.block.lanePurging (some (s.block.pitchAt (s.block.meter + 10 *
     r.budget.toNat))) = false ∧ (r.side = true → (s.block.index r.index).side ≠ [] → s.block.anySlu = true) ∧ s.block.ctx
     s.block.qpl.nextCtx = none) ∧
    (∃ s : State, ∃ r : ShardReq, s.awake ∧ (r.shards ≠ [] ∨ r.side = true) ∧ (∀ (k : Nat), k ∈ r.shards → s.block.placeOfShard
     r.index k = s.block.place ∧ s.block.shardMoving r.index k = false) ∧ s.block.running (pQpl 0) = false ∧ s.block.running
     (pQpl 1) = false) ∧
    (∃ s : State, ∃ r : ShardReq, ∃ k : Nat, s.awake ∧ r.shards = [k] ∧ r.side = false ∧ s.block.placeOfShard r.index k ≠
     s.block.place ∧ ∃ (n : Nat), n = shardBudget r.budget.toNat (s.block.fld (pQpl 0) 264 0 16) ∧ n ≠ 0) ∧
    (∃ s : State, ∃ ctx : Nat, ∃ shard : Nat, ∃ r : ShardReq, s.awake ∧ ∃ (x : Ctx), s.block.ctx ctx = some x ∧ x.work =
     CtxWork.shard r ∧ ∃ (h : ShardRun), List.find? (fun h => decide (h.shard = shard)) x.shards = some h ∧ ∃ (v : Version),
     (s.block.index x.index).version x.version = some v ∧ h.ranked = none ∧ 0 < r.waves ∧ 0 < r.width ∧ (s.block.unstarted ctx
     fun y => decide (y = SearchRole.walk shard)) = false ∧ rankedParts v (List.map bf16 r.query) shard r.width r.waves ≠ []) ∧
    (∃ s : State, ∃ ctx : Nat, ∃ shard : Nat, ∃ r : ShardReq, s.awake ∧ ∃ (x : Ctx), s.block.ctx ctx = some x ∧ x.work =
     CtxWork.shard r ∧ ∃ (h : ShardRun), List.find? (fun h => decide (h.shard = shard)) x.shards = some h ∧ ∃ (l : List Nat),
     h.ranked = some l ∧ h.ended = false ∧ h.merged = true ∧ h.awaiting = [] ∧ (r.noSkip = true ∨ h.wave = 0 ∨ h.full = false ∨
     h.added = true) ∧ h.wave + 1 < r.waves ∧ waveOf l r.width (h.wave + 1) ≠ []) ∧
    (∃ s : State, ∃ ctx : Nat, ∃ shard : Nat, ∃ r : ShardReq, s.awake ∧ ∃ (x : Ctx), s.block.ctx ctx = some x ∧ x.work =
     CtxWork.shard r ∧ ∃ (h : ShardRun), List.find? (fun h => decide (h.shard = shard)) x.shards = some h ∧ ∃ (l : List Nat),
     h.ranked = some l ∧ h.ended = false ∧ h.merged = true ∧ h.awaiting = [] ∧ r.noSkip = false ∧ 1 ≤ h.wave ∧ h.full = true ∧
     h.added = false ∧ (∃ g, g ∈ x.shards ∧ g.shard ≠ shard ∧ g.ended = false)) ∧
    (∃ s : State, ∃ ctx : Nat, ∃ shard : Nat, ∃ r : ShardReq, s.awake ∧ ∃ (x : Ctx), s.block.ctx ctx = some x ∧ x.work =
     CtxWork.shard r ∧ ∃ (h : ShardRun), List.find? (fun h => decide (h.shard = shard)) x.shards = some h ∧ (h.ranked = none ∨
     h.ended = true ∨ h.merged = false ∨ h.awaiting ≠ [])) ∧
    (∃ s : State, ∃ ctx : Nat, ∃ id : Nat, ∃ qn : Nat, ∃ place : Nat, ∃ ls : List (Nat × List Entry), ∃ side : Option (List
     Entry), s.awake ∧ ∃ (x : Ctx), s.block.ctx ctx = some x ∧ Quiet s.block (pQpl x.die) ∧ x.work = CtxWork.admitted id qn ∧ ∃
     (y : Search), s.block.searchOf id = some y ∧ ∃ (q : QueryRun), y.queries[qn]? = some q ∧ q.result = none ∧ ∃ (new : List
     (Nat × List Entry)), new = List.filter (fun l => decide (l.fst ∈ q.shards)) ls ∧ (place ∈ q.places ∧ side.isSome = true ∨
     new ≠ []) ∧ ∃ (p : QueryRun), (p =
     { vector := q.vector, lists := q.lists ++ List.map (fun x => x.snd) new ++ if place ∈ q.places then side.toList else [], pool := q.pool, filtered := q.filtered, refined := q.refined, places := if side.isSome = true then q.places.erase place else q.places, shards := List.filter (fun k => !new.any fun l => decide (l.fst = k)) q.shards, asked := q.asked, result := q.result })
     ∧ (p.places ≠ [] ∨ p.shards ≠ [])) ∧
    (∃ s : State, ∃ ctx : Nat, ∃ id : Nat, ∃ qn : Nat, ∃ place : Nat, ∃ ls : List (Nat × List Entry), ∃ side : Option (List
     Entry), s.awake ∧ ∃ (x : Ctx), s.block.ctx ctx = some x ∧ Quiet s.block (pQpl x.die) ∧ x.work = CtxWork.admitted id qn ∧ ∃
     (y : Search), s.block.searchOf id = some y ∧ ∃ (q : QueryRun), y.queries[qn]? = some q ∧ q.result = none ∧ ∃ (new : List
     (Nat × List Entry)), new = List.filter (fun l => decide (l.fst ∈ q.shards)) ls ∧ (place ∈ q.places ∧ side.isSome = true ∨
     new ≠ []) ∧ ∃ (p : QueryRun), (p =
     { vector := q.vector, lists := q.lists ++ List.map (fun x => x.snd) new ++ if place ∈ q.places then side.toList else [], pool := q.pool, filtered := q.filtered, refined := q.refined, places := if side.isSome = true then q.places.erase place else q.places, shards := List.filter (fun k => !new.any fun l => decide (l.fst = k)) q.shards, asked := q.asked, result := q.result })
     ∧ p.places = [] ∧ p.shards = [] ∧ s.block.anySlu = true) ∧
    (∃ s : State, ∃ ctx : Nat, ∃ id : Nat, ∃ qn : Nat, ∃ place : Nat, ∃ ls : List (Nat × List Entry), ∃ side : Option (List
     Entry), s.awake ∧ ∃ (x : Ctx), s.block.ctx ctx = some x ∧ Quiet s.block (pQpl x.die) ∧ x.work = CtxWork.admitted id qn ∧ ∃
     (y : Search), s.block.searchOf id = some y ∧ ∃ (q : QueryRun), y.queries[qn]? = some q ∧ q.result = none ∧ ∃ (new : List
     (Nat × List Entry)), new = List.filter (fun l => decide (l.fst ∈ q.shards)) ls ∧ (place ∈ q.places ∧ side.isSome = true ∨
     new ≠ []) ∧ ∃ (p : QueryRun), (p =
     { vector := q.vector, lists := q.lists ++ List.map (fun x => x.snd) new ++ if place ∈ q.places then side.toList else [], pool := q.pool, filtered := q.filtered, refined := q.refined, places := if side.isSome = true then q.places.erase place else q.places, shards := List.filter (fun k => !new.any fun l => decide (l.fst = k)) q.shards, asked := q.asked, result := q.result })
     ∧ p.places = [] ∧ p.shards = [] ∧ s.block.anySlu = false ∧ (s.block.cmd id).isSome = true) ∧
    (∃ s : State, ∃ ctx : Nat, ∃ id : Nat, ∃ qn : Nat, ∃ place : Nat, ∃ ls : List (Nat × List Entry), ∃ side : Option (List
     Entry), s.awake ∧ ∃ (x : Ctx), s.block.ctx ctx = some x ∧ Quiet s.block (pQpl x.die) ∧ x.work = CtxWork.admitted id qn ∧ ∃
     (y : Search), s.block.searchOf id = some y ∧ ∃ (q : QueryRun), y.queries[qn]? = some q ∧ q.result = none ∧ ∃ (new : List
     (Nat × List Entry)), new = List.filter (fun l => decide (l.fst ∈ q.shards)) ls ∧ (¬(place ∈ q.places ∧ side.isSome = true))
     ∧ new = []) :=
  ⟨⟨⟨[], fxServing false⟩, (fxShardReq 1), met inferInstance (by decide +kernel)⟩,
    ⟨⟨[], { fxDone with shardMap := [((0, 0), 0)] }⟩, fxShardReq 1, met inferInstance (by decide +kernel)⟩,
    ⟨⟨[], { fxTables fxTbl with shardMap := [((0, 0), 1)] }⟩, { fxShardReq 1 with budget := 1000 }, 0, met inferInstance
     (by decide +kernel)⟩,
    ⟨⟨[], fxShardCtx { shard := 0 }⟩, 0, 0, (fxShardReq 3), met inferInstance (by decide +kernel)⟩,
    ⟨⟨[], fxShardCtx { shard := 0, ranked := some [0, 0, 0], merged := true }⟩, 0, 0, (fxShardReq 3), met inferInstance
     (by decide +kernel)⟩,
    ⟨⟨[], fxShardCtx { shard := 0, ranked := some [0, 0, 0], merged := true, wave := 1, full := true, pool := [fxEntry 1 7] }⟩,
     0, 0, (fxShardReq 3), met inferInstance (by decide +kernel)⟩,
    ⟨⟨[], fxShardCtx { shard := 0 }⟩, 0, 0, (fxShardReq 3), met inferInstance (by decide +kernel)⟩,
    ⟨⟨[], fxQuery 0x10 0 { vector := [], places := [0, 1] } []⟩, 0, 0, 0, 0, [], some [], met inferInstance
     (by decide +kernel)⟩,
    ⟨⟨[], fxQuery 0x10 0 { vector := [], places := [0] } []⟩, 0, 0, 0, 0, [], some [], met inferInstance (by decide +kernel)⟩,
    ⟨⟨[], fxWith (fxQuery 0x10 0 { vector := [], places := [0] } []) [((pSlu 0).at 0x0C, 0)]⟩, 0, 0, 0, 0, [], some [],
     met inferInstance (by decide +kernel)⟩,
    ⟨⟨[], fxQuery 0x10 0 { vector := [], places := [0] } []⟩, 0, 0, 0, 1, [], none, met inferInstance (by decide +kernel)⟩⟩

/-- The premises of SelectionMerges are met. -/
theorem witness_SelectionMerges :
    (∃ s : State, ∃ ctx : Nat, ∃ shard : Nat, ∃ r : ShardReq, s.awake ∧ ∃ (u : Nat) (o : SluOp), s.block.opInSlot
     (OpWork.shardMerge ctx (some shard)) = some (u, o) ∧ Quiet s.block (pSlu u) ∧ ∃ (x : Ctx), s.block.ctx ctx = some x ∧
     x.work = CtxWork.shard r ∧ ∃ (h : ShardRun), List.find? (fun h => decide (h.shard = shard)) x.shards = some h ∧ listsOk
     firstPassLt h.returns = true) ∧
    (∃ s : State, ∃ id : Nat, ∃ qn : Nat, s.awake ∧ ∃ (u : Nat) (o : SluOp), s.block.opInSlot (OpWork.poolMerge id qn) = some
     (u, o) ∧ Quiet s.block (pSlu u) ∧ s.block.anySlu = true ∧ ∃ (c : Cmd), s.block.cmd id = some c ∧ ∃ (x : Search),
     s.block.searchOf id = some x ∧ ∃ (q : QueryRun), x.queries[qn]? = some q ∧ listsOk firstPassLt q.lists = true) ∧
    (∃ s : State, ∃ id : Nat, ∃ q : QueryRun, s.awake ∧ ∃ (u : Nat) (o : SluOp), s.block.opInSlot (OpWork.final id 0) = some (u,
     o) ∧ Quiet s.block (pSlu u) ∧ ∃ (c : Cmd), s.block.cmd id = some c ∧ c.opcode ≠ 17 ∧ ∃ (x : Search), s.block.searchOf id =
     some x ∧ x.queries = [q] ∧ ∃ (pool : List Entry), q.pool = some pool ∧ q.result = none ∧ x.refine = 0) ∧
    (∃ s : State, ∃ u : Fin 64, s.awake ∧ s.block.running (pSlu ↑u) = true ∧ s.block.slotsUsed ↑u < 4 ∧ ∃ (o : SluOp), o ∈
     s.block.ops ∧ o.unit = none ∧ (∀ (x : SluOp), x ∈ s.block.ops → x.unit = none → x.id ≠ o.id → opBefore o x = true)) ∧
    (∃ s : State, ∃ u : Fin 64, s.awake ∧ s.block.slotsUsed ↑u = 4) :=
  ⟨⟨⟨[], fxMerge⟩, 0, 0, (fxShardReq 3), met inferInstance (by decide +kernel)⟩,
    ⟨⟨[], fxQuery 0x10 0 { vector := [], lists := [[fxEntry 1 7], [fxEntry 2 7]] } [fxOp (.poolMerge 0 0) (some 0)]⟩, 0, 0,
     met inferInstance (by decide +kernel)⟩,
    ⟨⟨[], fxQuery 0x10 0 { vector := [], pool := some [fxEntry 1 7] } [fxOp (.final 0 0) (some 0)]⟩, 0,
     ({ vector := [], pool := some [fxEntry 1 7] }), met inferInstance (by decide +kernel)⟩,
    ⟨⟨[], fxOps false⟩, 0, met inferInstance (by decide +kernel)⟩,
    ⟨⟨[], fxOps true⟩, 0, met inferInstance (by decide +kernel)⟩⟩

/-- The premises of DeadlinesAndPitches are met. -/
theorem witness_DeadlinesAndPitches :
    (∃ s : State, ∃ id : Nat, s.awake ∧ ∃ (c : Cmd), s.block.cmd id = some c ∧ s.block.passed c.deadline = false) ∧
    (∃ s : State, ∃ id : Nat, s.awake ∧ ∃ (c : Cmd), s.block.cmd id = some c ∧ s.block.deadlineFree id = true) ∧
    (∃ s : State, ∃ id : Nat, s.awake ∧ ∃ (c : Cmd), s.block.cmd id = some c ∧ s.block.passed c.deadline = true ∧
     s.block.deadlineFree id = false ∧ s.block.versionOf id = none ∧ (∀ (e : Nat × Job), e ∈ s.block.jobList → e.snd.loadCmd ≠
     some id ∧ e.snd.runCmd ≠ some id)) ∧
    (∃ s : State, ∃ id : Nat, ∃ r : ShardReq, s.awake ∧ ∃ (x : Ctx), s.block.ctx id = some x ∧ x.work = CtxWork.shard r ∧
     s.block.passed x.deadline = true) ∧
    (∃ s : State, s.awake ∧ s.block.pitches = true ∧ s.block.get (pQpl 0) 272 + (s.block.qpl.closed + 1) * s.block.pitchLen ≤
     s.block.meter) ∧
    (∃ s : State, s.awake ∧ s.block.meter < s.block.get (pQpl 0) 272 + (s.block.qpl.closed + 1) * s.block.pitchLen) ∧
    (∃ s : State, ∃ lane : Fin 8, s.awake ∧ ↑lane ∈ s.block.qpl.purging) ∧
    (∃ s : State, ∃ lane : Fin 8, s.awake ∧ (¬↑lane ∈ s.block.qpl.purging)) :=
  ⟨⟨⟨[], fxSearch 0x10 0⟩, 0, met inferInstance (by decide +kernel)⟩,
    ⟨⟨[], fxUpdate⟩, 0, met inferInstance (by decide +kernel)⟩,
    ⟨⟨[], fxWaiting 0x10 0 1000⟩, 0, met inferInstance (by decide +kernel)⟩,
    ⟨⟨[], { fxShardCtx { shard := 0 } with meter := 1000 }⟩, 0, (fxShardReq 3), met inferInstance (by decide +kernel)⟩,
    ⟨⟨[], fxPitch 100000000⟩, met inferInstance (by decide +kernel)⟩,
    ⟨⟨[], fxDone⟩, met inferInstance (by decide +kernel)⟩,
    ⟨⟨[], fxPitch 0⟩, 3, met inferInstance (by decide +kernel)⟩,
    ⟨⟨[], fxDone⟩, 0, met inferInstance (by decide +kernel)⟩⟩

/-- The premises of TopkResults are met. -/
theorem witness_TopkResults :
    (∃ s : State, ∃ id : Nat, s.awake ∧ ∃ (c : Cmd), s.block.cmd id = some c ∧ c.phase = Phase.handed ∧ c.opcode = 19 ∧
     s.block.passed c.deadline = false ∧ s.block.recheck c = Verdict.pass ∧ s.block.admitClosed 0 = false ∧ c.pay.space ≠ 1 ∧
     topkCheck c = none ∧ s.block.lacksLease c = false ∧ s.block.anySlu = true ∧ (∀ (t : Topk), t ∈ s.block.topks → t.cmd ≠ id)
     ∧ (∀ (o : SluOp), o ∈ s.block.ops → SluOp.serves [id] [] o = false)) ∧
    (∃ s : State, ∃ r : Nat, ∃ o : SluOp, ∃ t : Topk, s.awake ∧ s.block.Canonical ∧ s.block.anySlu = true ∧ ∃ (id : Nat), t.cmd
     = id ∧ ∃ (c : Cmd), s.block.cmd id = some c ∧ c.phase = Phase.working ∧ c.opcode = 19 ∧ s.block.passed c.deadline = false ∧
     c.resValid = true ∧ c.res.space = 0 ∧ s.block.ops = [o] ∧ o.work = OpWork.topkRow id r ∧ ∃ (u : Nat), o.unit = some u ∧
     s.block.topks = [t] ∧ t.done + 1 ≠ t.rows) :=
  ⟨⟨⟨[], fxTopk⟩, 0, met inferInstance (by decide +kernel)⟩,
    ⟨⟨[], fxTopkRow⟩, 0, fxOp (.topkRow 0 0) (some 0), { cmd := 0, rows := 2, next := 1 }, met inferInstance
     (by decide +kernel)⟩⟩

/-- The premises of SweepsRun are met. -/
theorem witness_SweepsRun :
    (∃ s : State, ∃ n : Fin 9, ∃ id : Nat, s.awake ∧ s.block.Canonical ∧ ∃ (w : Sweep), s.block.sweep (↑n) id = some w ∧ w.state
     = SweepState.queued ∧ s.block.pageState (pPim ↑n) = 2 ∧ (s.block.stack ↑n).held w.unit < 2 ∧ (∀ (v : Sweep), v ∈
     (s.block.stack ↑n).sweeps → v.state = SweepState.queued → (s.block.stack ↑n).held v.unit < 2 → v.id ≠ id → sweepBefore w v
     = true) ∧ (sget 0 s.block.injected (pPim ↑n).base).getLsbD 16 = false) ∧
    (∃ s : State, ∃ n : Fin 9, ∃ id : Nat, s.awake ∧ ∃ (w : Sweep), s.block.sweep (↑n) id = some w ∧ w.state ≠
     SweepState.queued) ∧
    (∃ s : State, ∃ n : Fin 9, ∃ u : Fin 1024, s.awake ∧ s.block.Canonical ∧ (¬↑u ∈ (s.block.stack ↑n).fenced) ∧ (∀ (w : Sweep),
     w ∈ (s.block.stack ↑n).sweeps → w.unit ≠ ↑u)) ∧
    (∃ s : State, ∃ n : Fin 9, ∃ u : Fin 1024, s.awake ∧ ↑u ∈ (s.block.stack ↑n).fenced ∧ (∀ (w : Sweep), w ∈ (s.block.stack
     ↑n).sweeps → w.unit ≠ ↑u)) ∧
    (∃ s : State, ∃ n : Fin 9, ∃ id : Nat, s.awake ∧ s.block.Canonical ∧ Quiet s.block (pPim ↑n) ∧ ∃ (w : Sweep), s.block.sweep
     (↑n) id = some w ∧ w.state = SweepState.loaded ∧ (s.block.stack ↑n).computing w.unit = none ∧ (s.block.stack ↑n).returning
     w.unit < 2 ∧ (∀ (v : Sweep), v ∈ (s.block.stack ↑n).sweeps → v.state = SweepState.loaded → (s.block.stack ↑n).computing
     v.unit = none → (s.block.stack ↑n).returning v.unit < 2 → v.id ≠ id → sweepBefore w v = true) ∧ (s.block.stack ↑n).active <
     s.block.quota ↑n) ∧
    (∃ s : State, ∃ n : Fin 9, ∃ id : Nat, s.awake ∧ s.block.Canonical ∧ Quiet s.block (pPim ↑n) ∧ ∃ (w : Sweep), s.block.sweep
     (↑n) id = some w ∧ w.state = SweepState.loaded ∧ (s.block.stack ↑n).computing w.unit = none ∧ (s.block.stack ↑n).returning
     w.unit < 2 ∧ (∀ (v : Sweep), v ∈ (s.block.stack ↑n).sweeps → v.state = SweepState.loaded → (s.block.stack ↑n).computing
     v.unit = none → (s.block.stack ↑n).returning v.unit < 2 → v.id ≠ id → sweepBefore w v = true) ∧ s.block.quota ↑n ≤
     (s.block.stack ↑n).active ∧ w.waited = false) ∧
    (∃ s : State, ∃ n : Fin 9, ∃ id : Nat, s.awake ∧ s.block.Canonical ∧ Quiet s.block (pPim ↑n) ∧ ∃ (w : Sweep), s.block.sweep
     (↑n) id = some w ∧ w.state = SweepState.stepping ∧ w.stopAt s.block.free < w.seg.steps ∧ (∃ r, r ∈ (s.block.stack
     ↑n).waiting ∧ pairOf r = w.unit)) ∧
    (∃ s : State, ∃ n : Fin 9, ∃ id : Nat, s.awake ∧ s.block.Canonical ∧ Quiet s.block (pPim ↑n) ∧ ∃ (w : Sweep), s.block.sweep
     (↑n) id = some w ∧ w.state = SweepState.yielded) ∧
    (∃ s : State, ∃ n : Fin 9, ∃ id : Nat, s.awake ∧ s.block.Canonical ∧ Quiet s.block (pPim ↑n) ∧ ∃ (w : Sweep), s.block.sweep
     (↑n) id = some w ∧ w.state = SweepState.stepping ∧ ∃ (t : Nat), w.yieldAt = some t ∧ t < w.seg.steps) ∧
    (∃ s : State, ∃ n : Fin 9, ∃ id : Nat, s.awake ∧ s.block.Canonical ∧ Quiet s.block (pPim ↑n) ∧ ∃ (w : Sweep), s.block.sweep
     (↑n) id = some w ∧ w.state = SweepState.stepping ∧ (∀ (t : Nat), w.yieldAt = some t → w.seg.steps ≤ t)) ∧
    (∃ s : State, ∃ n : Fin 9, ∃ id : Nat, ∃ d : Fin 8, ∃ k : Fin 256, ∃ row : Nat, s.awake ∧ s.block.Canonical ∧ Quiet s.block
     (pPim ↑n) ∧ ∃ (w : Sweep), s.block.sweep (↑n) id = some w ∧ (s.block.stack ↑n).computing (↑d * 128 + ↑k / 2) = some w ∧
     w.state = SweepState.stepping ∧ w.seg.bank = ↑k ∧ w.stopAt s.block.free < w.seg.steps ∧ ∃ (m : Nat), m = (List.filter (fun
     r => decide (pairOf r = w.unit)) (s.block.stack ↑n).waiting).length ∧ row < 4096 ∧ scrubNumber (↑d) (↑k) row =
     (s.block.stack ↑n).scrubbed ∧ (0 < (s.block.stack ↑n).scrubbed ∨ (s.block.stack ↑n).scrubFrom ≤ s.block.meter)) ∧
    (∃ s : State, ∃ n : Fin 9, ∃ id : Nat, ∃ d : Fin 8, ∃ k : Fin 256, s.awake ∧ s.block.Canonical ∧ Quiet s.block (pPim ↑n) ∧ ∃
     (w : Sweep), s.block.sweep (↑n) id = some w ∧ (s.block.stack ↑n).computing (↑d * 128 + ↑k / 2) = some w ∧ w.state =
     SweepState.stepping ∧ w.seg.bank = ↑k ∧ w.stopAt s.block.free < w.seg.steps ∧ ∃ (m : Nat), m = (List.filter (fun r =>
     decide (pairOf r = w.unit)) (s.block.stack ↑n).waiting).length ∧ True) ∧
    (∃ s : State, ∃ n : Fin 9, ∃ id : Nat, ∃ d : Fin 8, ∃ k : Fin 256, ∃ row : Nat, s.awake ∧ s.block.Canonical ∧ Quiet s.block
     (pPim ↑n) ∧ ∃ (w : Sweep), s.block.sweep (↑n) id = some w ∧ scrubNumber (↑d) (↑k) row ≠ (s.block.stack ↑n).scrubbed) :=
  ⟨⟨⟨[], fxStack .queued [] 512⟩, 0, 5, met inferInstance (by decide +kernel)⟩,
    ⟨⟨[], fxStack .loaded [] 512⟩, 0, 5, met inferInstance (by decide +kernel)⟩,
    ⟨⟨[], fxDone⟩, 0, 0, met inferInstance (by decide +kernel)⟩,
    ⟨⟨[], fxFenced⟩, 0, 3, met inferInstance (by decide +kernel)⟩,
    ⟨⟨[], fxStack .loaded [] 512⟩, 0, 5, met inferInstance (by decide +kernel)⟩,
    ⟨⟨[], fxStack .loaded [] 0⟩, 0, 5, met inferInstance (by decide +kernel)⟩,
    ⟨⟨[], fxYielding [fxReq 1 none false]⟩, 0, 5, met inferInstance (by decide +kernel)⟩,
    ⟨⟨[], fxStack .yielded [fxReq 1 none false] 512⟩, 0, 5, met inferInstance (by decide +kernel)⟩,
    ⟨⟨[], fxYielding []⟩, 0, 5, met inferInstance (by decide +kernel)⟩,
    ⟨⟨[], fxStack .stepping [] 512⟩, 0, 5, met inferInstance (by decide +kernel)⟩,
    ⟨⟨[], fxYielding []⟩, 0, 5, 0, 0, 0, met inferInstance (by decide +kernel)⟩,
    ⟨⟨[], fxYielding []⟩, 0, 5, 0, 0, met inferInstance (by decide +kernel)⟩,
    ⟨⟨[], fxStack .loaded [] 512⟩, 0, 5, 0, 0, 1, met inferInstance (by decide +kernel)⟩⟩

/-- The premises of StackRequests are met. -/
theorem witness_StackRequests :
    (∃ s : State, ∃ n : Fin 9, ∃ id : Nat, ∃ r : ShardReq, s.awake ∧ s.block.Canonical ∧ s.block.anySlu = true ∧ ∃ (w : Sweep),
     s.block.sweep (↑n) id = some w ∧ w.state = SweepState.returning ∧ (sget 0 s.block.injected (pPim ↑n).base).getLsbD 17 =
     false ∧ ∃ (x : Ctx), s.block.ctx w.ctx = some x ∧ x.work = CtxWork.shard r ∧ ∃ (v : Version), (s.block.index
     x.index).version x.version = some v ∧ ∃ (p : Part), v.part w.part = some p ∧ ∃ (h : ShardRun), List.find? (fun h => decide
     (h.shard = shardOf w.part)) x.shards = some h ∧ w.part ∈ h.awaiting) ∧
    (∃ s : State, ∃ n : Fin 9, ∃ r : DramReq, s.awake ∧ s.block.Canonical ∧ Quiet s.block (pMem ↑n) ∧ s.block.pageState (pMem
     ↑n) = 2 ∧ ∃ (bs : Bytes), r.write = some bs ∧ (↑r.die, ↑r.bank, r.row) ∈ s.block.indexRows ↑n ∧ r.cmd = none) ∧
    (∃ s : State, ∃ n : Fin 9, ∃ r : DramReq, s.awake ∧ s.block.Canonical ∧ Quiet s.block (pMem ↑n) ∧ s.block.pageState (pMem
     ↑n) = 2 ∧ ∃ (bs : Bytes), r.write = some bs ∧ (¬(↑r.die, ↑r.bank, r.row) ∈ s.block.indexRows ↑n) ∧ (s.block.stack
     ↑n).computing (pairOf r) = none) ∧
    (∃ s : State, ∃ n : Fin 9, ∃ r : DramReq, s.awake ∧ s.block.Canonical ∧ Quiet s.block (pMem ↑n) ∧ s.block.pageState (pMem
     ↑n) = 2 ∧ r.write = none ∧ r.uncorrectable = false ∧ (s.block.stack ↑n).computing (pairOf r) = none) ∧
    (∃ s : State, ∃ n : Fin 9, ∃ r : DramReq, s.awake ∧ s.block.Canonical ∧ Quiet s.block (pMem ↑n) ∧ s.block.pageState (pMem
     ↑n) = 2 ∧ r.write = none ∧ r.uncorrectable = true ∧ r.cmd = none) ∧
    (∃ s : State, ∃ n : Fin 9, ∃ r : DramReq, s.awake ∧ s.block.Canonical ∧ Quiet s.block (pMem ↑n) ∧ s.block.pageState (pMem
     ↑n) = 2 ∧ (¬(↑r.die, ↑r.bank, r.row) ∈ s.block.indexRows ↑n) ∧ (∃ bs, r.write = some bs) ∧ (s.block.stack ↑n).computing
     (pairOf r) ≠ none) :=
  ⟨⟨⟨[], fxStack .returning [] 512⟩, 0, 5, fxShardReq 3, met inferInstance (by decide +kernel)⟩,
    ⟨⟨[], fxStack .queued [] 512⟩, 0, (fxReq 9 (some [7]) false), met inferInstance (by decide +kernel)⟩,
    ⟨⟨[], fxStack .queued [] 512⟩, 0, (fxReq 1 (some [7]) false), met inferInstance (by decide +kernel)⟩,
    ⟨⟨[], fxStack .queued [] 512⟩, 0, (fxReq 1 none false), met inferInstance (by decide +kernel)⟩,
    ⟨⟨[], fxStack .queued [] 512⟩, 0, (fxReq 1 none true), met inferInstance (by decide +kernel)⟩,
    ⟨⟨[], fxStack .stepping [] 512⟩, 0, (fxReq 1 (some [7]) false), met inferInstance (by decide +kernel)⟩⟩

/-- The premises of ChannelItems are met. -/
theorem witness_ChannelItems :
    (∃ s : State, ∃ c : Fin 64, ∃ r : RefineItem, s.awake ∧ s.block.Canonical ∧ ∃ (e : Nat), s.block.engineFor ↑c = some e ∧
     s.block.refineOk r = true ∧ s.block.atHome (↑c) (s.block.itemRuns (ItemWork.refine r)) = true ∧ ∃ (i : Item), i =
     { id := s.block.nextId, work := ItemWork.refine r, channel := ↑c, deadline := some r.deadline, state := ItemState.waiting }
     ∧ (s.block.engine e).credit ↑r.qpl ≠ 0) ∧
    (∃ s : State, ∃ c : Fin 64, ∃ r : RefineItem, s.awake ∧ s.block.Canonical ∧ ∃ (e : Nat), s.block.engineFor ↑c = some e ∧
     s.block.refineOk r = true ∧ s.block.atHome (↑c) (s.block.itemRuns (ItemWork.refine r)) = true ∧ ∃ (i : Item), i =
     { id := s.block.nextId, work := ItemWork.refine r, channel := ↑c, deadline := some r.deadline, state := ItemState.waiting }
     ∧ (s.block.engine e).credit ↑r.qpl = 0) ∧
    (∃ s : State, ∃ c : Fin 64, ∃ ctx : Nat, ∃ part : Nat, ∃ q : ShardReq, s.awake ∧ s.block.Canonical ∧ ∃ (e : Nat),
     s.block.engineFor ↑c = some e ∧ ∃ (r : ColdItem), s.block.coldItem ctx part = some r ∧ s.block.atHome (↑c) (List.take 1
     (s.block.itemRuns (ItemWork.cold r))) = true ∧ ∃ (x : Ctx), s.block.ctx ctx = some x ∧ x.work = CtxWork.shard q ∧ ∃ (v :
     Version), (s.block.index x.index).version x.version = some v ∧ ∃ (p : Part), v.part part = some p ∧ True) ∧
    (∃ s : State, ∃ c : Fin 64, ∃ ctx : Nat, ∃ part : Nat, s.awake ∧ s.block.Canonical ∧ ∃ (e : Nat), s.block.engineFor ↑c =
     some e ∧ ∃ (r : ColdItem), s.block.coldItem ctx part = some r ∧ s.block.atHome (↑c) (List.take 1 (s.block.itemRuns
     (ItemWork.cold r))) = true ∧ (s.block.engine e).credit ↑r.qpl ≠ 0) ∧
    (∃ s : State, ∃ c : Fin 64, ∃ r : RefineItem, s.awake ∧ (s.block.refineOk r = false ∨ s.block.atHome (↑c) (s.block.itemRuns
     (ItemWork.refine r)) = false)) ∧
    (∃ s : State, ∃ ctx : Nat, ∃ part : Nat, s.awake ∧ s.block.coldItem ctx part = none) ∧
    (∃ s : State, ∃ c : Fin 64, s.awake ∧ s.block.Canonical ∧ s.block.pageState (pFlc ↑c) = 2 ∧ (∀ (i : SlowItem), i ∈
     (s.block.engine ↑c).slow ++ (s.block.engine ↑c).kept → i.served = true → ∀ (r : BlockRef) (x : Bool), i.work ≠
     SlowWork.erase r x) ∧ ∃ (n : Nat), s.block.nextClass ↑c = some n ∧ n ≤ 1 ∧ ∃ (i : Item), i ∈ (s.block.engine ↑c).items ∧
     i.cls = n ∧ i.state = ItemState.waiting ∧ (∀ (j : Item), j ∈ (s.block.engine ↑c).items → j.cls = n → j.state =
     ItemState.waiting → j.id ≠ i.id → itemBefore i j = true)) ∧
    (∃ s : State, ∃ c : Fin 64, ∃ p : FlashPage, s.awake ∧ s.block.Canonical ∧ s.block.pageState (pFlc ↑c) = 2 ∧ (∀ (i :
     SlowItem), i ∈ (s.block.engine ↑c).slow ++ (s.block.engine ↑c).kept → i.served = true → ∀ (r : BlockRef) (x : Bool), i.work
     ≠ SlowWork.erase r x) ∧ ∃ (n : Nat), s.block.nextClass ↑c = some n ∧ n = 2 ∧ ∃ (i : SlowItem), s.block.nextSlow (↑c) 2 =
     some i ∧ i.work = SlowWork.tile p none ∧ p.channel = ↑c ∧ ∃ (x : StripeRow × Member), s.block.pageAt p = some x ∧
     (s.block.engine ↑c).kept = [] ∧ (∀ (k : Nat), k < 4 → s.block.readFrom true x k = some [x.snd]) ∧ (∀ (a : BlockRef × Nat),
     s.block.siteAddress x = some a → s.block.readCount a.fst + 1 < 1000 * s.block.fld pFtl 292 0 16)) ∧
    (∃ s : State, ∃ c : Fin 64, ∃ p : FlashPage, s.awake ∧ s.block.Canonical ∧ s.block.pageState (pFlc ↑c) = 2 ∧ (∀ (i :
     SlowItem), i ∈ (s.block.engine ↑c).slow ++ (s.block.engine ↑c).kept → i.served = true → ∀ (r : BlockRef) (x : Bool), i.work
     ≠ SlowWork.erase r x) ∧ ∃ (n : Nat), s.block.nextClass ↑c = some n ∧ n = 2 ∧ ∃ (i : SlowItem), s.block.nextSlow (↑c) 2 =
     some i ∧ i.work = SlowWork.tile p none ∧ p.channel = ↑c ∧ ∃ (x : StripeRow × Member), s.block.pageAt p = some x ∧
     (s.block.engine ↑c).kept = [] ∧ (∀ (k : Nat), k < 4 → s.block.readFrom true x k = none) ∧ s.block.siteAddress x = none) ∧
    (∃ s : State, ∃ c : Fin 64, s.awake ∧ s.block.Canonical ∧ s.block.pageState (pFlc ↑c) = 2 ∧ (∀ (i : SlowItem), i ∈
     (s.block.engine ↑c).slow ++ (s.block.engine ↑c).kept → i.served = true → ∀ (r : BlockRef) (x : Bool), i.work ≠
     SlowWork.erase r x) ∧ ∃ (n : Nat), s.block.nextClass ↑c = some n ∧ n = 3 ∧ ∃ (q : Program), List.find? (fun p => decide
     (↑p.lun.channel = ↑c) && !p.sent) s.block.ftl.programs = some q ∧ True) ∧
    (∃ s : State, ∃ c : Fin 64, s.awake ∧ s.block.Canonical ∧ s.block.pageState (pFlc ↑c) = 2 ∧ (∀ (i : SlowItem), i ∈
     (s.block.engine ↑c).slow ++ (s.block.engine ↑c).kept → i.served = true → ∀ (r : BlockRef) (x : Bool), i.work ≠
     SlowWork.erase r x) ∧ ∃ (n : Nat), s.block.nextClass ↑c = some n ∧ n = 4 ∧ ∃ (i : SlowItem), s.block.nextSlow (↑c) 4 = some
     i ∧ True) ∧
    (∃ s : State, ∃ c : Fin 64, ∃ r : BlockRef, ∃ secure : Bool, s.awake ∧ s.block.Canonical ∧ s.block.pageState (pFlc ↑c) = 2 ∧
     (s.block.engine ↑c).slow = [{ work := SlowWork.erase r secure, served := true }] ∧ (s.block.engine ↑c).kept = [] ∧
     (s.block.engine ↑c).items = [] ∧ (∀ (p : Program), p ∈ s.block.ftl.programs → p.lun.channel ≠ c) ∧ s.block.readsLun r.lun =
     false) ∧
    (∃ s : State, ∃ c : Fin 64, s.awake ∧ s.block.Canonical ∧ s.block.meter / 100000 ≠ (s.block.engine ↑c).window) ∧
    (∃ s : State, ∃ c : Fin 64, s.awake ∧ s.block.Canonical ∧ s.block.meter / 100000 = (s.block.engine ↑c).window) :=
  ⟨⟨⟨[], fxAsked 96⟩, 0, { fxRefine 0 with vector := [0] }, met inferInstance (by decide +kernel)⟩,
    ⟨⟨[], fxAsked 0⟩, 0, { fxRefine 0 with vector := [0] }, met inferInstance (by decide +kernel)⟩,
    ⟨⟨[], fxColdCtx []⟩, 0, 0, 0, fxShardReq 3, met inferInstance (by decide +kernel)⟩,
    ⟨⟨[], fxColdCtx []⟩, 0, 0, 0, met inferInstance (by decide +kernel)⟩,
    ⟨⟨[], fxDone⟩, 0, fxRefine 0, met inferInstance (by decide +kernel)⟩,
    ⟨⟨[], fxEngine 96 [] 0 2⟩, 0, 0, met inferInstance (by decide +kernel)⟩,
    ⟨⟨[], fxEngine 95 [fxItem (.refine (fxRefine 0)) .waiting 5, fxItem (.cold fxCold) .waiting 1] 100000 2⟩, 0,
     met inferInstance (by decide +kernel)⟩,
    ⟨⟨[], fxWith (fxClass 2 false) [(pFtl.at 0x124, 2)]⟩, 0, ⟨0, 5, 0, 0⟩, met inferInstance (by decide +kernel)⟩,
    ⟨⟨[], fxClass 2 true⟩, 0, ⟨0, 5, 0, 0⟩, met inferInstance (by decide +kernel)⟩,
    ⟨⟨[], fxClass 3 false⟩, 0, met inferInstance (by decide +kernel)⟩,
    ⟨⟨[], fxMoving⟩, 0, met inferInstance (by decide +kernel)⟩,
    ⟨⟨[], fxErased⟩, 0, fxBlk 0, false, met inferInstance (by decide +kernel)⟩,
    ⟨⟨[], fxEngine 95 [fxItem (.refine (fxRefine 0)) .waiting 5, fxItem (.cold fxCold) .waiting 1] 100000 2⟩, 0,
     met inferInstance (by decide +kernel)⟩,
    ⟨⟨[], fxDone⟩, 0, met inferInstance (by decide +kernel)⟩⟩

/-- The premises of ChannelReads are met. -/
theorem witness_ChannelReads :
    (∃ s : State, ∃ c : Fin 64, ∃ id : Nat, ∃ r : RefineItem, ∃ retries : Nat, s.awake ∧ s.block.Canonical ∧ Quiet s.block (pFlc
     ↑c) ∧ ∃ (l : List Run), l = s.block.itemRuns (ItemWork.refine r) ∧ (s.block.lunBusy (↑c) l = true → s.block.suspends ↑c =
     true) ∧ ∃ (i : Item), s.block.item (↑c) id = some i ∧ i.state = ItemState.reading ∧ i.work = ItemWork.refine r ∧
     s.block.runsLost (↑c) l = false ∧ retries ≤ s.block.fld (pFlc ↑c) 276 0 4 ∧ ∃ (v : Version), (s.block.index
     r.index).version r.version = some v ∧ (∀ (e : Entry), e ∈ r.cands → (fullVector (s.block.index r.index) v e).isSome = true)
     ∧ (s.block.engine ↑c).room (32 * (r.cands.length + i.entries.length)) = true) ∧
    (∃ s : State, ∃ c : Fin 64, ∃ id : Nat, ∃ r : RefineItem, s.awake ∧ s.block.Canonical ∧ Quiet s.block (pFlc ↑c) ∧ ∃ (l :
     List Run), l = s.block.itemRuns (ItemWork.refine r) ∧ (s.block.lunBusy (↑c) l = true → s.block.suspends ↑c = true) ∧ ∃ (i :
     Item), s.block.item (↑c) id = some i ∧ i.state = ItemState.reading ∧ i.work = ItemWork.refine r ∧ s.block.runsLost (↑c) l =
     false ∧ r.fromPlace ≠ s.block.place ∧ (s.block.engine ↑c).held = []) ∧
    (∃ s : State, ∃ c : Fin 64, ∃ id : Nat, ∃ r : RefineItem, s.awake ∧ s.block.Canonical ∧ Quiet s.block (pFlc ↑c) ∧ ∃ (l :
     List Run), l = s.block.itemRuns (ItemWork.refine r) ∧ (s.block.lunBusy (↑c) l = true → s.block.suspends ↑c = true) ∧ ∃ (i :
     Item), s.block.item (↑c) id = some i ∧ i.state = ItemState.reading ∧ i.work = ItemWork.refine r ∧ i.issued + 100 * i.limit
     ≤ s.block.meter ∧ r.fromPlace ≠ s.block.place ∧ (s.block.engine ↑c).held = []) ∧
    (∃ s : State, ∃ c : Fin 64, ∃ id : Nat, ∃ r : RefineItem, s.awake ∧ s.block.Canonical ∧ Quiet s.block (pFlc ↑c) ∧ ∃ (l :
     List Run), l = s.block.itemRuns (ItemWork.refine r) ∧ (s.block.lunBusy (↑c) l = true → s.block.suspends ↑c = true) ∧ ∃ (i :
     Item), s.block.item (↑c) id = some i ∧ i.state = ItemState.reading ∧ i.work = ItemWork.refine r ∧ s.block.meter < i.issued
     + 100 * i.limit) ∧
    (∃ s : State, ∃ c : Fin 64, ∃ id : Nat, ∃ w : ItemWork, s.awake ∧ s.block.Canonical ∧ ∃ (l : List Run), l = s.block.itemRuns
     w ∧ (s.block.lunBusy (↑c) l = true → s.block.suspends ↑c = true) ∧ ∃ (i : Item), s.block.item (↑c) id = some i ∧ i.state =
     ItemState.reading ∧ i.work = w ∧ (s.block.engine ↑c).held = [] ∧ (s.block.runsLost (↑c) l = true ∨ ∃ e, e ∈ flashWords l ∧
     ∃ x, e.snd = some x ∧ s.block.wordBad x e.fst.snd = true) ∧ Quiet s.block (pFlc ↑c)) ∧
    (∃ s : State, ∃ c : Fin 64, ∃ r : RefineItem, s.awake ∧ s.block.Canonical ∧ ∃ (i : Item), List.find? (fun i => decide
     (i.state = ItemState.returning) && decide (i.resultCredits ≤ s.block.returnCredit (↑c) i.sender)) (s.block.engine ↑c).items
     = some i ∧ i.work = ItemWork.refine r ∧ (s.block.engine ↑c).held = [] ∧ r.fromPlace = s.block.place) ∧
    (∃ s : State, ∃ c : Fin 64, ∃ r : RefineItem, s.awake ∧ s.block.Canonical ∧ ∃ (i : Item), List.find? (fun i => decide
     (i.state = ItemState.returning) && decide (i.resultCredits ≤ s.block.returnCredit (↑c) i.sender)) (s.block.engine ↑c).items
     = some i ∧ i.work = ItemWork.refine r ∧ (s.block.engine ↑c).held = [] ∧ r.fromPlace ≠ s.block.place) :=
  ⟨⟨⟨[], fxEngine 95 [fxItem (.refine (fxRefine 0)) .reading 5] 0 2⟩, 0, 5, (fxRefine 0), 0, met inferInstance
     (by decide +kernel)⟩,
    ⟨⟨[], fxEngine 95 [fxItem (.refine (fxRefine 1)) .reading 5] 100000000 2⟩, 0, 5, (fxRefine 1), met inferInstance
     (by decide +kernel)⟩,
    ⟨⟨[], fxEngine 95 [fxItem (.refine (fxRefine 1)) .reading 5] 100000000 2⟩, 0, 5, (fxRefine 1), met inferInstance
     (by decide +kernel)⟩,
    ⟨⟨[], fxEngine 95 [{ fxItem (.refine (fxRefine 0)) .reading 5 with limit := 5 }] 0 2⟩, 0, 5, fxRefine 0, met inferInstance
     (by decide +kernel)⟩,
    ⟨⟨[], fxLost⟩, 0, 5, .cold fxCold, met inferInstance (by decide +kernel)⟩,
    ⟨⟨[], fxEngine 95 [fxItem (.refine (fxRefine 0)) .returning 5] 0 2⟩, 0, (fxRefine 0), met inferInstance
     (by decide +kernel)⟩,
    ⟨⟨[], fxEngine 95 [fxItem (.refine (fxRefine 1)) .returning 5] 0 2⟩, 0, (fxRefine 1), met inferInstance
     (by decide +kernel)⟩⟩

/-- The premises of ThreadsCompute are met. -/
theorem witness_ThreadsCompute :
    (∃ s : State, ∃ t : ThreadRef, ∃ op : IntOp, s.awake ∧ s.block.Canonical ∧ s.block.CanonicalParts ∧ ∃ (j : Nat) (x : Job) (y
     : Thread), Ready s.block t j x y ∧ ∃ (z : Thread), intOp op y.past x.codeLen = some z ∧ True) ∧
    (∃ s : State, ∃ t : ThreadRef, ∃ c : Fin 32, s.awake ∧ s.block.Canonical ∧ s.block.CanonicalParts ∧ ∃ (j : Nat) (x : Job) (y
     : Thread), Ready s.block t j x y ∧ 32 ≤ (y.sreg c).toNat) ∧
    (∃ s : State, ∃ t : ThreadRef, ∃ a : Fin 32, ∃ target : Nat, s.awake ∧ s.block.Canonical ∧ s.block.CanonicalParts ∧ ∃ (j :
     Nat) (x : Job) (y : Thread), Ready s.block t j x y ∧ y.sreg a ≠ 0 ∧ (target % 4 ≠ 0 ∨ x.codeLen < target + 4) ∧ j < 64) ∧
    (∃ s : State, ∃ t : ThreadRef, ∃ a : Fin 32, ∃ target : Nat, ∃ r : ShardReq, s.awake ∧ s.block.Canonical ∧
     s.block.CanonicalParts ∧ ∃ (j : Nat) (x : Job) (y : Thread), Ready s.block t j x y ∧ y.sreg a ≠ 0 ∧ (target % 4 ≠ 0 ∨
     x.codeLen < target + 4) ∧ 64 ≤ j ∧ ∃ (z : Ctx), s.block.ctx (j - 64) = some z ∧ z.work = CtxWork.shard r) ∧
    (∃ s : State, ∃ t : ThreadRef, ∃ op : FloatOp, s.awake ∧ s.block.Canonical ∧ s.block.CanonicalParts ∧ ∃ (j : Nat) (x : Job)
     (y : Thread), Ready s.block t j x y ∧ floatOpKnown op = true) ∧
    (∃ s : State, ∃ t : ThreadRef, s.awake ∧ s.block.Canonical ∧ s.block.CanonicalParts ∧ ∃ (j : Nat) (x : Job) (y : Thread),
     Ready s.block t j x y ∧ j < 64) ∧
    (∃ s : State, ∃ t : ThreadRef, ∃ table : Nat, s.awake ∧ s.block.Canonical ∧ s.block.CanonicalParts ∧ ∃ (j : Nat) (x : Job)
     (y : Thread), Ready s.block t j x y ∧ table + 64 ≤ x.frame) ∧
    (∃ s : State, ∃ t : ThreadRef, ∃ a : Nat, s.awake ∧ s.block.Canonical ∧ s.block.CanonicalParts ∧ ∃ (j : Nat) (x : Job) (y :
     Thread), Ready s.block t j x y ∧ ∃ (n : Nat), n ∈ [1, 2, 4, 8] ∧ a + n ≤ x.frame ∧ a % n = 0) ∧
    (∃ s : State, ∃ t : ThreadRef, ∃ a : Nat, s.awake ∧ s.block.Canonical ∧ s.block.CanonicalParts ∧ ∃ (j : Nat) (x : Job) (y :
     Thread), Ready s.block t j x y ∧ a + 16 ≤ x.frame ∧ a % 16 = 0) ∧
    (∃ s : State, ∃ t : ThreadRef, ∃ c : Fin 48, s.awake ∧ s.block.Canonical ∧ s.block.CanonicalParts ∧ ∃ (j : Nat) (x : Job) (y
     : Thread), Ready s.block t j x y ∧ ∃ (i : CtrInfo), s.block.ctrInfo (ownCtr t c) = some i ∧ True) ∧
    (∃ s : State, ∃ t : ThreadRef, s.awake ∧ s.block.Canonical ∧ s.block.CanonicalParts ∧ ∃ (j : Nat) (x : Job) (y : Thread),
     Ready s.block t j x y ∧ True) :=
  ⟨⟨⟨[], fxRun (fxJobOf false 0) []⟩, fxRef, (.add 1 2 3), met inferInstance (by decide +kernel)⟩,
    ⟨⟨[], fxRun (fxJobOf false 0) [fxThread [1,2,3,4,5,6,7,8,9]]⟩, fxRef, 1, met inferInstance (by decide +kernel)⟩,
    ⟨⟨[], fxRun (fxJobOf false 0) []⟩, (⟨3, 1, 0⟩), 0, 5, met inferInstance (by decide +kernel)⟩,
    ⟨⟨[], fxWalk⟩, fxRef, 1, 5, fxShardReq 3, met inferInstance (by decide +kernel)⟩,
    ⟨⟨[], fxRun (fxJobOf false 0) []⟩, fxRef, .add 1 2 3, met inferInstance (by decide +kernel)⟩,
    ⟨⟨[], fxRun (fxJobOf false 0) []⟩, fxRef, met inferInstance (by decide +kernel)⟩,
    ⟨⟨[], fxRun (fxJobOf false 0) []⟩, fxRef, 0, met inferInstance (by decide +kernel)⟩,
    ⟨⟨[], fxRun (fxJobOf false 0) []⟩, fxRef, 0, met inferInstance (by decide +kernel)⟩,
    ⟨⟨[], fxRun (fxJobOf false 0) []⟩, fxRef, 0, met inferInstance (by decide +kernel)⟩,
    ⟨⟨[], fxRun (fxJobOf false 0) []⟩, fxRef, 0, met inferInstance (by decide +kernel)⟩,
    ⟨⟨[], fxRun (fxJobOf false 0) []⟩, fxRef, met inferInstance (by decide +kernel)⟩⟩

/-- The premises of CountersSignal are met. -/
theorem witness_CountersSignal :
    (∃ s : State, ∃ t : ThreadRef, ∃ n : Nat, ∃ target : CounterRef, s.awake ∧ s.block.Canonical ∧ ∃ (j : Nat) (x : Job) (y :
     Thread), Ready s.block t j x y ∧ 1 ≤ n ∧ n ≤ 65535 ∧ ∃ (i : CtrInfo), s.block.ctrInfo target = some i ∧ i.job = j) ∧
    (∃ s : State, ∃ t : ThreadRef, ∃ n : Nat, ∃ c : Fin 48, s.awake ∧ s.block.Canonical ∧ ∃ (j : Nat) (x : Job) (y : Thread),
     Ready s.block t j x y ∧ 1 ≤ n ∧ n ≤ 65535 ∧ ∃ (i : CtrInfo), s.block.ctrInfo (ownCtr t c) = some i ∧ n ≤ i.bound ∧ n ≤
     (s.block.ctr (ownCtr t c) i.init).value ∧ s.block.waiters t ↑c = []) ∧
    (∃ s : State, ∃ t : ThreadRef, ∃ n : Nat, ∃ c : Fin 48, s.awake ∧ s.block.Canonical ∧ ∃ (j : Nat) (x : Job) (y : Thread),
     Ready s.block t j x y ∧ 1 ≤ n ∧ n ≤ 65535 ∧ ∃ (i : CtrInfo), s.block.ctrInfo (ownCtr t c) = some i ∧ n ≤ i.bound ∧
     ((s.block.ctr (ownCtr t c) i.init).value < n ∨ s.block.waiters t ↑c ≠ [])) ∧
    (∃ s : State, ∃ t : ThreadRef, ∃ n : Nat, ∃ c : Fin 48, s.awake ∧ s.block.Canonical ∧ ∃ (j : Nat) (x : Job) (y : Thread),
     Ready s.block t j x y ∧ 1 ≤ n ∧ n ≤ 65535 ∧ ∃ (i : CtrInfo), s.block.ctrInfo (ownCtr t c) = some i ∧ i.bound < n ∧
     i.realign = false ∧ s.block.CanonicalParts ∧ j < 64) ∧
    (∃ s : State, ∃ t : ThreadRef, ∃ n : Nat, ∃ c : Fin 48, s.awake ∧ s.block.Canonical ∧ ∃ (j : Nat) (x : Job) (y : Thread),
     Ready s.block t j x y ∧ 1 ≤ n ∧ n ≤ 65535 ∧ ∃ (i : CtrInfo), s.block.ctrInfo (ownCtr t c) = some i ∧ n ≤ (s.block.ctr
     (ownCtr t c) i.init).value) ∧
    (∃ s : State, ∃ t : ThreadRef, ∃ n : Nat, ∃ c : Fin 48, s.awake ∧ s.block.Canonical ∧ ∃ (j : Nat) (x : Job) (y : Thread),
     Ready s.block t j x y ∧ 1 ≤ n ∧ n ≤ 65535 ∧ ∃ (i : CtrInfo), s.block.ctrInfo (ownCtr t c) = some i ∧ (s.block.ctr (ownCtr t
     c) i.init).value < n ∧ i.realign = true) ∧
    (∃ s : State, ∃ t : ThreadRef, ∃ n : Nat, ∃ c : Fin 48, s.awake ∧ s.block.Canonical ∧ ∃ (j : Nat) (x : Job) (y : Thread),
     Ready s.block t j x y ∧ 1 ≤ n ∧ n ≤ 65535 ∧ ∃ (i : CtrInfo), s.block.ctrInfo (ownCtr t c) = some i ∧ (s.block.ctr (ownCtr t
     c) i.init).value < n ∧ i.realign = false ∧ s.block.CanonicalParts ∧ j < 64) ∧
    (∃ s : State, ∃ t : ThreadRef, ∃ c : Nat, ∃ n : Nat, s.awake ∧ s.block.Canonical ∧ ∃ (j : Nat) (x : Job) (y : Thread),
     s.block.thread t = some (j, x, y) ∧ s.block.coreRuns ↑t.cluster = true ∧ y.waiting = some (Waiting.ctr c n) ∧ ∃ (i :
     CtrInfo), s.block.ctrInfo (coreCtr t c) = some i ∧ (∀ (z : Thread), z ∈ s.block.waiters t c → y.order ≤ z.order) ∧ n ≤
     (s.block.ctr (coreCtr t c) i.init).value) ∧
    (∃ s : State, ∃ t : ThreadRef, ∃ c : Nat, ∃ n : Nat, s.awake ∧ s.block.Canonical ∧ ∃ (j : Nat) (x : Job) (y : Thread),
     s.block.thread t = some (j, x, y) ∧ s.block.coreRuns ↑t.cluster = true ∧ y.waiting = some (Waiting.ctr c n) ∧ ∃ (i :
     CtrInfo), s.block.ctrInfo (coreCtr t c) = some i ∧ (s.block.ctr (coreCtr t c) i.init).value < n) ∧
    (∃ s : State, ∃ id : Nat, s.awake ∧ s.block.Canonical ∧ s.block.CanonicalParts ∧ ∃ (g : Signal), List.find? (fun g => decide
     (g.id = id)) s.block.cores.signals = some g ∧ ∃ (i : CtrInfo), s.block.ctrInfo g.target = some i ∧ i.job = g.job ∧
     (s.block.cores.holds g = false ∨ firstSignal s.block.cores.signals g = false) ∧ firstSignal s.block.cores.signals g = true
     ∧ (s.block.ctr g.target i.init).value + g.n ≤ i.bound ∧ ((∃ c u k, g.target = CounterRef.core c u k) ∨ (s.block.ctr
     g.target i.init).value + g.n ≠ i.init)) ∧
    (∃ s : State, ∃ id : Nat, s.awake ∧ s.block.Canonical ∧ s.block.CanonicalParts ∧ ∃ (g : Signal), List.find? (fun g => decide
     (g.id = id)) s.block.cores.signals = some g ∧ ∃ (i : CtrInfo), s.block.ctrInfo g.target = some i ∧ i.job = g.job ∧
     (s.block.cores.holds g = false ∨ firstSignal s.block.cores.signals g = false) ∧ firstSignal s.block.cores.signals g = true
     ∧ i.bound < (s.block.ctr g.target i.init).value + g.n ∧ i.realign = true) ∧
    (∃ s : State, ∃ id : Nat, s.awake ∧ s.block.Canonical ∧ s.block.CanonicalParts ∧ ∃ (g : Signal), List.find? (fun g => decide
     (g.id = id)) s.block.cores.signals = some g ∧ ∃ (i : CtrInfo), s.block.ctrInfo g.target = some i ∧ i.job = g.job ∧
     (s.block.cores.holds g = false ∨ firstSignal s.block.cores.signals g = false) ∧ firstSignal s.block.cores.signals g = true
     ∧ i.bound < (s.block.ctr g.target i.init).value + g.n ∧ i.realign = false ∧ i.job < 64 ∧ s.block.jobRunning i.job = true) ∧
    (∃ s : State, ∃ id : Nat, s.awake ∧ s.block.Canonical ∧ s.block.CanonicalParts ∧ ∃ (g : Signal), List.find? (fun g => decide
     (g.id = id)) s.block.cores.signals = some g ∧ ∃ (i : CtrInfo), s.block.ctrInfo g.target = some i ∧ i.job = g.job ∧
     (s.block.cores.holds g = false ∨ firstSignal s.block.cores.signals g = false) ∧ firstSignal s.block.cores.signals g =
     false) ∧
    (∃ s : State, ∃ id : Nat, s.awake ∧ ∃ (g : Signal), List.find? (fun g => decide (g.id = id)) s.block.cores.signals = some g
     ∧ s.block.cores.holds g = true) :=
  ⟨⟨⟨[], fxRun (fxJobOf false 0) []⟩, fxRef, 5, (.core 3 0 0), met inferInstance (by decide +kernel)⟩,
    ⟨⟨[], fxRun (fxJobOf false 0) []⟩, fxRef, 5, 0, met inferInstance (by decide +kernel)⟩,
    ⟨⟨[], fxRun (fxJobOf false 0) []⟩, fxRef, 50, 0, met inferInstance (by decide +kernel)⟩,
    ⟨⟨[], fxRun (fxJobOf false 0) []⟩, fxRef, 101, 0, met inferInstance (by decide +kernel)⟩,
    ⟨⟨[], fxRun (fxJobOf false 0) []⟩, fxRef, 5, 0, met inferInstance (by decide +kernel)⟩,
    ⟨⟨[], fxRun (fxJobOf false 63) []⟩, fxRef, 50, 0, met inferInstance (by decide +kernel)⟩,
    ⟨⟨[], fxRun (fxJobOf false 0) []⟩, fxRef, 50, 0, met inferInstance (by decide +kernel)⟩,
    ⟨⟨[], fxParked 2⟩, fxRef, 0, 2, met inferInstance (by decide +kernel)⟩,
    ⟨⟨[], fxParked 50⟩, fxRef, 0, 50, met inferInstance (by decide +kernel)⟩,
    ⟨⟨[], fxSignals 0 5⟩, 0, met inferInstance (by decide +kernel)⟩,
    ⟨⟨[], fxSignals 63 99⟩, 0, met inferInstance (by decide +kernel)⟩,
    ⟨⟨[], fxSignals 0 99⟩, 0, met inferInstance (by decide +kernel)⟩,
    ⟨⟨[], fxSignals 0 5⟩, 1, met inferInstance (by decide +kernel)⟩,
    ⟨⟨[], fxSigHeld⟩, 9, met inferInstance (by decide +kernel)⟩⟩

/-- The premises of ThreadTransfers are met. -/
theorem witness_ThreadTransfers :
    (∃ s : State, ∃ t : ThreadRef, ∃ toFrame : Bool, ∃ addr : Nat, ∃ place : MovePlace, ∃ len : Nat, s.awake ∧ s.block.Canonical
     ∧ s.block.CanonicalParts ∧ ∃ (j : Nat) (x : Job) (y : Thread), Ready s.block t j x y ∧ 64 ≤ len ∧ len ≤ 4096 ∧ len % 64 = 0
     ∧ (∀ (a : Nat), place = MovePlace.staging a → a % 64 = 0 ∧ a + len ≤ 2 ^ 27) ∧ (∀ (o : Nat), place = MovePlace.result o →
     toFrame = false ∧ x.service = false ∧ o % 64 = 0 ∧ ∃ id d, x.runCmd = some id ∧ s.block.cmd id = some d ∧ d.resValid = true
     ∧ o + len ≤ d.res.len) ∧ addr % 64 = 0 ∧ addr + len ≤ x.frame) ∧
    (∃ s : State, ∃ t : ThreadRef, ∃ addr : Nat, ∃ staging : Nat, s.awake ∧ s.block.Canonical ∧ s.block.CanonicalParts ∧ ∃ (j :
     Nat) (x : Job) (y : Thread), Ready s.block t j x y ∧ addr + 32 ≤ x.frame ∧ staging % 64 = 0 ∧ staging + tileBytes ≤ 2 ^ 27
     ∧ (s.block.keyTile j (s.block.job j) (y.frame.read addr 32)).isSome = true ∧ ∃ (home : Option (CacheKey × StripeRow ×
     Member)), home = s.block.keyHome j (s.block.job j) (y.frame.read addr 32) ∧ True) ∧
    (∃ s : State, ∃ t : ThreadRef, s.awake ∧ s.block.Canonical ∧ s.block.CanonicalParts ∧ ∃ (j : Nat) (x : Job) (y : Thread),
     Ready s.block t j x y ∧ j < 64) ∧
    (∃ s : State, ∃ t : ThreadRef, s.awake ∧ s.block.Canonical ∧ s.block.CanonicalParts ∧ ∃ (j : Nat) (x : Job) (y : Thread),
     Ready s.block t j x y ∧ s.block.clusterJob ↑t.cluster = none) ∧
    (∃ s : State, ∃ id : Nat, s.awake ∧ s.block.Canonical ∧ s.block.CanonicalParts ∧ ∃ (m : MoveRun), List.find? (fun m =>
     decide (m.id = id)) s.block.cores.moves = some m ∧ m.killed = true) ∧
    (∃ s : State, ∃ id : Nat, ∃ a : Nat, s.awake ∧ s.block.Canonical ∧ s.block.CanonicalParts ∧ ∃ (m : MoveRun), List.find? (fun
     m => decide (m.id = id)) s.block.cores.moves = some m ∧ m.killed = false ∧ m.quiet = false ∧ m.after = none ∧ m.place =
     MovePlace.staging a ∧ ∃ (j : Nat) (x : Job) (y : Thread), s.block.thread m.thread = some (j, x, y) ∧ (j < 64 ∨
     s.block.searchThread ↑m.thread.cluster ↑m.thread.core = some y) ∧ Takes s.block (coreCtr m.thread m.ctr)) ∧
    (∃ s : State, ∃ id : Nat, ∃ a : Nat, s.awake ∧ s.block.Canonical ∧ s.block.CanonicalParts ∧ ∃ (m : MoveRun), List.find? (fun
     m => decide (m.id = id)) s.block.cores.moves = some m ∧ m.killed = false ∧ m.quiet = false ∧ ∃ (data : Bytes), m.after =
     some data ∧ m.place = MovePlace.staging a ∧ m.toFrame = false ∧ Takes s.block (coreCtr m.thread m.ctr)) ∧
    (∃ s : State, ∃ id : Nat, ∃ o : Nat, s.awake ∧ s.block.Canonical ∧ s.block.CanonicalParts ∧ ∃ (m : MoveRun), List.find? (fun
     m => decide (m.id = id)) s.block.cores.moves = some m ∧ m.killed = false ∧ m.quiet = false ∧ m.after = none ∧ m.place =
     MovePlace.result o ∧ m.toFrame = false ∧ 0 < m.len ∧ ∃ (j : Nat) (x : Job) (y : Thread), s.block.thread m.thread = some (j,
     x, y) ∧ j < 64 ∧ ∃ (r : Nat), ((s.block.job m.job).bind fun x => x.runCmd) = some r ∧ ∃ (c : Cmd), s.block.cmd r = some c ∧
     c.resValid = true ∧ c.res.space = 0 ∧ Takes s.block (coreCtr m.thread m.ctr)) ∧
    (∃ s : State, ∃ id : Nat, s.awake ∧ s.block.Canonical ∧ s.block.CanonicalParts ∧ ∃ (m : TileReq), List.find? (fun m =>
     decide (m.id = id)) s.block.cores.tiles = some m ∧ m.killed = false ∧ m.quiet = false ∧ ∃ (bs : Bytes), s.block.keyTile
     m.job (s.block.job m.job) m.key = some bs ∧ bs ≠ [] ∧ s.block.keyLost m.job m.key = false ∧ Takes s.block (coreCtr m.thread
     m.ctr)) ∧
    (∃ s : State, ∃ id : Nat, s.awake ∧ s.block.Canonical ∧ s.block.CanonicalParts ∧ ∃ (m : TileReq), List.find? (fun m =>
     decide (m.id = id)) s.block.cores.tiles = some m ∧ m.killed = false ∧ m.job < 64 ∧ s.block.jobRunning m.job = true ∧
     s.block.keyLost m.job m.key = true) ∧
    (∃ s : State, ∃ id : Nat, s.awake ∧ s.block.Canonical ∧ s.block.CanonicalParts ∧ ∃ (m : TileReq), List.find? (fun m =>
     decide (m.id = id)) s.block.cores.tiles = some m ∧ m.killed = false ∧ m.job < 64 ∧ s.block.jobRunning m.job = true) :=
  ⟨⟨⟨[], fxRun (fxJobOf false 0) []⟩, fxRef, false, 0, .staging 0, 64, met inferInstance (by decide +kernel)⟩,
    ⟨⟨[], fxMoves true false⟩, fxRef, 0, 0, met inferInstance (by decide +kernel)⟩,
    ⟨⟨[], fxRun (fxJobOf false 0) []⟩, fxRef, met inferInstance (by decide +kernel)⟩,
    ⟨⟨[], fxWalk⟩, fxRef, met inferInstance (by decide +kernel)⟩,
    ⟨⟨[], fxMoves true true⟩, 0, met inferInstance (by decide +kernel)⟩,
    ⟨⟨[], fxMoveTo (.staging 128) none⟩, 0, 128, met inferInstance (by decide +kernel)⟩,
    ⟨⟨[], fxMoveTo (.staging 128) (some [1])⟩, 0, 128, met inferInstance (by decide +kernel)⟩,
    ⟨⟨[], fxMoveTo (.result 0) none⟩, 0, 0, met inferInstance (by decide +kernel)⟩,
    ⟨⟨[], fxMoves true false⟩, 5, met inferInstance (by decide +kernel)⟩,
    ⟨⟨[], fxTileLost⟩, 5, met inferInstance (by decide +kernel)⟩,
    ⟨⟨[], fxMoves true false⟩, 5, met inferInstance (by decide +kernel)⟩⟩

/-- The premises of JobsRun are met. -/
theorem witness_JobsRun :
    (∃ s : State, ∃ t : ThreadRef, s.awake ∧ s.block.Canonical ∧ s.block.CanonicalParts ∧ ∃ (j : Nat) (x : Job) (y : Thread),
     Ready s.block t j x y ∧ x.service = true ∧ (∀ (k : Invocation), k ∈ x.queue → k.slot.isSome = true) ∧ ∃ (i : Invocation),
     x.nextInvocation = some i ∧ ∃ (n : Nat), i.slot = some n ∧ True) ∧
    (∃ s : State, ∃ t : ThreadRef, s.awake ∧ s.block.Canonical ∧ s.block.CanonicalParts ∧ ∃ (j : Nat) (x : Job) (y : Thread),
     Ready s.block t j x y ∧ x.service = true ∧ x.queue = []) ∧
    (∃ s : State, ∃ t : ThreadRef, ∃ number : Nat, ∃ count : Nat, s.awake ∧ s.block.Canonical ∧ s.block.CanonicalParts ∧ ∃ (j :
     Nat) (x : Job) (y : Thread), Ready s.block t j x y ∧ x.service = true ∧ ∃ (i : Invocation), List.find? (fun i => i.taken &&
     decide (i.number = number)) x.queue = some i ∧ count ≤ x.invOut ∧ i.ended = true) ∧
    (∃ s : State, ∃ t : ThreadRef, ∃ number : Nat, ∃ count : Nat, s.awake ∧ s.block.Canonical ∧ s.block.CanonicalParts ∧ ∃ (j :
     Nat) (x : Job) (y : Thread), Ready s.block t j x y ∧ x.service = true ∧ ∃ (i : Invocation), List.find? (fun i => i.taken &&
     decide (i.number = number)) x.queue = some i ∧ count ≤ x.invOut ∧ i.ended = false ∧ j < 64 ∧ ∃ (id : Nat), i.cmd = some id
     ∧ True) ∧
    (∃ s : Block, ∃ id : Nat, ∃ q : List Instr, ∃ (c : Cmd) (b : Block), Handed { pending := q, block := s } id 64 [0, 1] c b ∧
     ∃ (h : Image), h = readImage (b.readInput c 0 512) ∧ ∃ (img : Bytes), img = b.readInput c 0 (min h.len c.pay.len) ∧
     b.noWrites = false) ∧
    (∃ s : State, ∃ j : Fin 64, s.awake ∧ s.block.Canonical ∧ s.block.CanonicalParts ∧ ∃ (x : Job), s.block.job ↑j = some x ∧
     x.st = JobState.loading ∧ ∃ (id : Nat), x.loadCmd = some id ∧ ∃ (c : Cmd), s.block.cmd id = some c ∧ s.block.homeSealed
     ZoneOwner.job (↑j) 0 = true ∧ s.block.passed c.deadline = false) ∧
    (∃ s : State, ∃ j : Fin 64, s.awake ∧ s.block.Canonical ∧ s.block.CanonicalParts ∧ ∃ (x : Job), s.block.job ↑j = some x ∧
     x.st = JobState.loading ∧ ∃ (id : Nat), x.loadCmd = some id ∧ ∃ (c : Cmd), s.block.cmd id = some c ∧ s.block.homeSealed
     ZoneOwner.job (↑j) 0 = false) ∧
    (∃ s : State, ∃ j : Fin 64, s.awake ∧ s.block.Canonical ∧ s.block.CanonicalParts ∧ ∃ (x : Job), s.block.job ↑j = some x ∧
     x.st = JobState.loading ∧ ∃ (id : Nat), x.loadCmd = some id ∧ ∃ (c : Cmd), s.block.cmd id = some c ∧ True) ∧
    (∃ s : Block, ∃ id : Nat, ∃ q : List Instr, ∃ (c : Cmd) (b : Block), Handed { pending := q, block := s } id 65 (s.jobDies
     c.object) c b ∧ ∃ (x : Job), b.job c.object = some x ∧ b.lacksLease c = false ∧ jobRunCheck b c false = none ∧ c.param 0 1
     = 0 ∧ (∀ (n : Nat), n ∈ x.clusters → b.unitRuns (pScl n) = true ∧ b.fencedCores n = []) ∧ (∀ (m : Nat), m ∈ x.mxcs →
     b.unitRuns (pMxc m) = true) ∧ (∀ (th : Thread), th ∈ b.cores.threads → ¬↑th.ref.cluster ∈ x.clusters) ∧ (∀ (n : Nat), n ∈
     x.clusters → b.clusterJob n = some (c.object, x))) ∧
    (∃ s : Block, ∃ id : Nat, ∃ q : List Instr, ∃ (c : Cmd) (b : Block), Handed { pending := q, block := s } id 65 (s.jobDies
     c.object) c b ∧ ∃ (x : Job), b.job c.object = some x ∧ b.lacksLease c = false ∧ jobRunCheck b c true = none ∧ c.param 0 1 =
     1) ∧
    (∃ s : Block, ∃ id : Nat, ∃ q : List Instr, ∃ (c : Cmd) (b : Block), Handed { pending := q, block := s } id 66 (s.jobDies
     c.object) c b ∧ ∃ (x : Job), b.job c.object = some x ∧ c.param 1 127 = 0 ∧ x.st = JobState.running) ∧
    (∃ s : Block, ∃ id : Nat, ∃ q : List Instr, ∃ (c : Cmd) (b : Block), Handed { pending := q, block := s } id 66 (s.jobDies
     c.object) c b ∧ ∃ (x : Job), b.job c.object = some x ∧ c.param 1 127 = 0 ∧ x.st = JobState.loaded ∧ c.param 0 1 = 0) ∧
    (∃ s : Block, ∃ id : Nat, ∃ q : List Instr, ∃ (c : Cmd) (b : Block), Handed { pending := q, block := s } id 66 (s.jobDies
     c.object) c b ∧ ∃ (x : Job), b.job c.object = some x ∧ c.param 1 127 = 0 ∧ x.st = JobState.loaded ∧ c.param 0 1 = 1) ∧
    (∃ b : Block, ∃ j : Nat, b.sled.power = Power.on ∧ b.bivouac = false ∧ b.sled.poweringOff = false ∧ b.Canonical ∧
     b.CanonicalParts ∧ b.transport.cut = [] ∧ j < 64 ∧ ∃ (x : Job), b.job j = some x ∧ x.st = JobState.stopping ∧ (∀ (e : Nat ×
     Job), e ∈ b.jobList → e.snd.st = JobState.stopping → e.fst = j)) ∧
    (∃ s : State, ∃ j : Fin 64, s.awake ∧ s.block.Canonical ∧ s.block.CanonicalParts ∧ ∃ (x : Job), s.block.job ↑j = some x ∧
     x.st = JobState.running ∧ (∀ (c : Nat), c ∈ x.clusters → x.threadsOn c = 0) ∧ (∀ (m : MoveRun), m ∈ s.block.cores.moves →
     m.job = ↑j → m.killed = false → m.place.isResult = false)) ∧
    (∃ s : State, ∃ j : Fin 64, s.awake ∧ s.block.Canonical ∧ s.block.CanonicalParts ∧ ∃ (x : Job), s.block.job ↑j = some x ∧ ∃
     (m : MoveRun), m ∈ s.block.cores.moves ∧ m.job = ↑j ∧ m.killed = false ∧ m.place.isResult = true) ∧
    (∃ s : State, ∃ j : Fin 64, s.awake ∧ s.block.Canonical ∧ s.block.CanonicalParts ∧ ∃ (x : Job), s.block.job ↑j = some x ∧ ∃
     (c : Nat), c ∈ x.clusters ∧ x.threadsOn c ≠ 0) :=
  ⟨⟨⟨[], fxService [fxInv (some 0) false false]⟩, fxRef, met inferInstance (by decide +kernel)⟩,
    ⟨⟨[], fxService []⟩, fxRef, met inferInstance (by decide +kernel)⟩,
    ⟨⟨[], fxService [fxInv (some 0) true true]⟩, fxRef, 0, 0, met inferInstance (by decide +kernel)⟩,
    ⟨⟨[], fxService [fxInv (some 0) true false]⟩, fxRef, 0, 0, met inferInstance (by decide +kernel)⟩,
    ⟨fxLoad, 0, [], met inferInstance (by decide +kernel)⟩,
    ⟨⟨[], fxJobCmd .loading false 0x40 2 0⟩, 0, met inferInstance (by decide +kernel)⟩,
    ⟨⟨[], { fxJobCmd .loading false 0x40 2 0 with ftl := { nextZone := 1, zones := [{ number := 0, owner := .job }] } }⟩, 0,
     met inferInstance (by decide +kernel)⟩,
    ⟨⟨[], fxJobCmd .loading false 0x40 2 0⟩, 0, met inferInstance (by decide +kernel)⟩,
    ⟨(fxJobCmd .loaded false 0x41 0 0), 0, [], met inferInstance (by decide +kernel)⟩,
    ⟨(fxJobCmd .running true 0x41 3 1), 0, [], met inferInstance (by decide +kernel)⟩,
    ⟨(fxJobCmd .running false 0x42 0 0), 0, [], met inferInstance (by decide +kernel)⟩,
    ⟨(fxJobCmd .loaded false 0x42 0 0), 0, [], met inferInstance (by decide +kernel)⟩,
    ⟨(fxJobCmd .loaded false 0x42 0 1), 0, [], met inferInstance (by decide +kernel)⟩,
    ⟨fxStopping true, 0, met inferInstance (by decide +kernel)⟩,
    ⟨⟨[], fxEnded⟩, 0, met inferInstance (by decide +kernel)⟩,
    ⟨⟨[], fxMoveTo (.result 0) none⟩, 0, met inferInstance (by decide +kernel)⟩,
    ⟨⟨[], fxService []⟩, 0, met inferInstance (by decide +kernel)⟩⟩

/-- The premises of MatrixCores are met. -/
theorem witness_MatrixCores :
    (∃ s : State, ∃ t : ThreadRef, ∃ addr : Nat, ∃ n : Fin 64, s.awake ∧ s.block.Canonical ∧ s.block.CanonicalParts ∧ ∃ (j :
     Nat) (x : Job) (y : Thread), Ready s.block t j x y ∧ addr + 64 ≤ x.frame ∧ ∃ (m : Nat), x.mxc? j ↑n = some m ∧ (readStep
     (y.frame.read addr 64)).ok = true ∧ (s.block.mxc m).steps.length < 16) ∧
    (∃ s : State, ∃ t : ThreadRef, ∃ addr : Nat, ∃ n : Fin 64, s.awake ∧ s.block.Canonical ∧ s.block.CanonicalParts ∧ ∃ (j :
     Nat) (x : Job) (y : Thread), Ready s.block t j x y ∧ addr + 64 ≤ x.frame ∧ ∃ (m : Nat), x.mxc? j ↑n = some m ∧ (readStep
     (y.frame.read addr 64)).ok = true ∧ 16 ≤ (s.block.mxc m).steps.length) ∧
    (∃ s : State, ∃ t : ThreadRef, ∃ addr : Nat, s.awake ∧ s.block.Canonical ∧ s.block.CanonicalParts ∧ ∃ (j : Nat) (x : Job) (y
     : Thread), Ready s.block t j x y ∧ addr + 64 ≤ x.frame ∧ (readRoute (y.frame.read addr 64)).ok = true ∧ s.block.anySlu =
     true ∧ (∀ (o : SluOp), o ∈ s.block.ops → o.id < s.block.nextId)) ∧
    (∃ s : State, ∃ m : Fin 64, ∃ x : Step, ∃ rest : List Step, s.awake ∧ s.block.Canonical ∧ s.block.CanonicalParts ∧
     (s.block.mxc ↑m).steps = x :: rest ∧ ∃ (d : StepDesc), d = readStep x.desc ∧ s.block.running (pMxc ↑m) = true ∧
     s.block.issuerRuns x.job = true ∧ Quiet s.block (pMxc ↑m) ∧ ∃ (e : Nat × Instr), e ∈ [(0, Instr.matmul m), (1, Instr.dist
     m), (2, Instr.table m)] ∧ d.kind = e.fst ∧ WaitHolds s.block m d.waitEn d.waitCtr d.waitN ∧ ∃ (o : StepOut), stepOut
     (s.block.weights ↑m) (s.block.staging (↑m / 32)) d = some o ∧ True) ∧
    (∃ s : State, ∃ m : Fin 64, ∃ x : Step, ∃ rest : List Step, s.awake ∧ s.block.Canonical ∧ s.block.CanonicalParts ∧
     (s.block.mxc ↑m).steps = x :: rest ∧ ∃ (d : StepDesc), d = readStep x.desc ∧ s.block.running (pMxc ↑m) = true ∧
     s.block.issuerRuns x.job = true ∧ Quiet s.block (pMxc ↑m) ∧ ∃ (e : Nat × Instr), e ∈ [(0, Instr.matmul m), (1, Instr.dist
     m), (2, Instr.table m)] ∧ d.kind ≠ e.fst) ∧
    (∃ s : State, ∃ m : Fin 64, s.awake ∧ s.block.Canonical ∧ s.block.CanonicalParts ∧ ∃ (j : Nat) (x : Job), s.block.mxcJob ↑m
     = some (j, x) ∧ x.st = JobState.running ∧ s.block.running (pMxc ↑m) = true ∧ Quiet s.block (pMxc ↑m) ∧ ∃ (i : Nat) (e :
     SchedEntry), (x.schedOf (List.idxOf (↑m) x.mxcs))[(s.block.mxc ↑m).next]? = some (i, e) ∧ WaitHolds s.block m e.waitEn
     e.waitCtr e.waitN ∧ (e.sigEn = true → Takes s.block (CounterRef.matrix m (Fin.ofNat 64 e.sigCtr))) ∧ (¬(s.block.mxc
     ↑m).next ∈ (s.block.mxc ↑m).copies) ∧ s.block.entryReadable j x i e = false ∧ j < 64) ∧
    (∃ s : State, ∃ m : Fin 64, s.awake ∧ s.block.Canonical ∧ s.block.CanonicalParts ∧ ∃ (j : Nat) (x : Job), s.block.mxcJob ↑m
     = some (j, x) ∧ x.st = JobState.running ∧ s.block.running (pMxc ↑m) = true ∧ Quiet s.block (pMxc ↑m) ∧ ∃ (i : Nat) (e :
     SchedEntry), (x.schedOf (List.idxOf (↑m) x.mxcs))[(s.block.mxc ↑m).next]? = some (i, e) ∧ WaitHolds s.block m e.waitEn
     e.waitCtr e.waitN ∧ (e.sigEn = true → Takes s.block (CounterRef.matrix m (Fin.ofNat 64 e.sigCtr))) ∧ ((s.block.mxc ↑m).next
     ∈ (s.block.mxc ↑m).copies ∨ s.block.entryReadable j x i e = true) ∧ ∃ (ts : List Bytes), allTiles e.tiles (s.block.jobTile
     j x i) = some ts ∧ (∀ (g : Nat × Bytes), g ∈ granules e.granule ts → landOk g.snd = true ∧ g.fst + tileGran g.snd ≤ 512)) ∧
    (∃ s : State, ∃ m : Fin 64, s.awake ∧ s.block.Canonical ∧ s.block.CanonicalParts ∧ ∃ (j : Nat) (x : Job), s.block.mxcJob ↑m
     = some (j, x) ∧ x.st = JobState.running ∧ s.block.running (pMxc ↑m) = true ∧ Quiet s.block (pMxc ↑m) ∧ ∃ (i : Nat) (e :
     SchedEntry), (x.schedOf (List.idxOf (↑m) x.mxcs))[(s.block.mxc ↑m).next]? = some (i, e) ∧ WaitHolds s.block m e.waitEn
     e.waitCtr e.waitN ∧ (e.sigEn = true → Takes s.block (CounterRef.matrix m (Fin.ofNat 64 e.sigCtr))) ∧ j < 64) ∧
    (∃ s : State, ∃ id : Nat, ∃ j : Nat, ∃ t : ThreadRef, ∃ d : Bytes, ∃ c : Nat, s.awake ∧ s.block.Canonical ∧
     s.block.CanonicalParts ∧ ∃ (o : SluOp), List.find? (fun o => decide (o.id = id)) s.block.ops = some o ∧ o.work =
     OpWork.route j t d c ∧ ∃ (u : Nat), o.unit = some u ∧ s.block.running (pSlu u) = true ∧ Takes s.block (coreCtr t c) ∧ (∀ (i
     : CtrInfo), s.block.ctrInfo (coreCtr t c) = some i → i.job = j)) :=
  ⟨⟨⟨[], fxStep 0 false⟩, fxRef, 0, 0, met inferInstance (by decide +kernel)⟩,
    ⟨⟨[], fxIssue true⟩, fxRef, 0, 0, met inferInstance (by decide +kernel)⟩,
    ⟨⟨[], fxIssue false⟩, fxRef, 64, met inferInstance (by decide +kernel)⟩,
    ⟨⟨[], fxStep 0 false⟩, 2, ⟨fxRef, 0, fxStepDesc 0 false, 1⟩, [], met inferInstance (by decide +kernel)⟩,
    ⟨⟨[], fxStep 0 false⟩, 2, ⟨fxRef, 0, fxStepDesc 0 false, 1⟩, [], met inferInstance (by decide +kernel)⟩,
    ⟨⟨[], fxUnlandable⟩, 2, met inferInstance (by decide +kernel)⟩,
    ⟨⟨[], fxRun { fxJobOf false 0 with sched := [{ fxEntryOf false with tiles := 0 }] } []⟩, 2, met inferInstance
     (by decide +kernel)⟩,
    ⟨⟨[], fxLanding false⟩, 2, met inferInstance (by decide +kernel)⟩,
    ⟨⟨[], fxRoute⟩, 5, 0, fxRef, fxRouteBlock, 1, met inferInstance (by decide +kernel)⟩⟩

/-- The premises of ProxiedAccesses are met. -/
theorem witness_ProxiedAccesses :
    (∃ s : State, ∃ i : Fin 4, ∃ v : BitVec 32, s.open_ ∧ s.block.Canonical ∧ ∃ (t : Nat), t = s.block.get pHlk (pxyOff ↑i) ∧ ∃
     (id : Nat), id = nbits t 0 12 ∧ ∃ (type : Nat), type = nbits t 12 5 ∧ sget none s.block.proxies ↑i = none ∧ v.getLsbD 0 =
     true ∧ (s.block.lead = false ∨ type = 2 ∨ type = 22)) ∧
    (∃ s : State, ∃ i : Fin 4, ∃ v : BitVec 32, s.open_ ∧ s.block.Canonical ∧ ∃ (t : Nat), t = s.block.get pHlk (pxyOff ↑i) ∧ ∃
     (id : Nat), id = nbits t 0 12 ∧ ∃ (type : Nat), type = nbits t 12 5 ∧ sget none s.block.proxies ↑i = none ∧ v.getLsbD 0 =
     true ∧ s.block.lead = true ∧ type ≠ 2 ∧ type ≠ 22 ∧ (∀ (m : RopeMember), m ∈ s.block.rope.members → m.id = id → m.lost =
     true)) ∧
    (∃ s : State, ∃ i : Fin 4, ∃ v : BitVec 32, s.open_ ∧ s.block.Canonical ∧ ∃ (t : Nat), t = s.block.get pHlk (pxyOff ↑i) ∧ ∃
     (id : Nat), id = nbits t 0 12 ∧ ∃ (type : Nat), type = nbits t 12 5 ∧ sget none s.block.proxies ↑i = none ∧ v.getLsbD 0 =
     true ∧ s.block.lead = true ∧ type ≠ 2 ∧ type ≠ 22 ∧ (∃ m, m ∈ s.block.rope.members ∧ m.id = id ∧ m.lost = false)) ∧
    (∃ s : State, ∃ i : Fin 4, ∃ v : BitVec 32, s.open_ ∧ s.block.Canonical ∧ ∃ (t : Nat), t = s.block.get pHlk (pxyOff ↑i) ∧ ∃
     (id : Nat), id = nbits t 0 12 ∧ ∃ (type : Nat), type = nbits t 12 5 ∧ sget none s.block.proxies ↑i = none ∧ v.getLsbD 0 =
     false) ∧
    (∃ s : State, ∃ i : Fin 4, s.open_ ∧ s.block.proxyBusy ↑i = true) ∧
    (∃ s : State, ∃ i : Fin 4, s.awake ∧ s.block.Canonical ∧ ∃ (r : ProxyRun), sget none s.block.proxies ↑i = some r ∧ r.start +
     10 * s.block.get pHlk (pxyOff ↑i + 24) ≤ s.block.meter) ∧
    (∃ s : State, ∃ i : Fin 4, s.awake ∧ s.block.Canonical ∧ ∃ (r : ProxyRun), sget none s.block.proxies ↑i = some r ∧
     s.block.meter < r.start + 10 * s.block.get pHlk (pxyOff ↑i + 24)) ∧
    (∃ s : State, ∃ i : Fin 4, s.awake ∧ s.block.Canonical ∧ ∃ (r : ProxyRun), sget none s.block.proxies ↑i = some r ∧ True) ∧
    (∃ s : State, ∃ i : Fin 4, s.awake ∧ sget none s.block.proxies ↑i = none) ∧
    (∃ s : State, ∃ m : ProxyMsg, s.awake ∧ s.block.Canonical ∧ s.block.joined = true ∧ ∃ (t : Nat), t = m.target.toNat ∧ nbits
     t 0 12 = s.block.endpoint ∧ s.block.fromLead m.session.toNat = false) ∧
    (∃ s : State, ∃ m : ProxyMsg, s.awake ∧ s.block.Canonical ∧ s.block.joined = true ∧ ∃ (t : Nat), t = m.target.toNat ∧ nbits
     t 0 12 = s.block.endpoint ∧ s.block.fromLead m.session.toNat = true ∧ (nbits t 12 5 = 2 ∨ nbits t 12 5 = 22)) ∧
    (∃ s : State, ∃ m : ProxyMsg, s.awake ∧ s.block.Canonical ∧ s.block.joined = true ∧ ∃ (t : Nat), t = m.target.toNat ∧ nbits
     t 0 12 = s.block.endpoint ∧ s.block.fromLead m.session.toNat = true ∧ nbits t 12 5 ≠ 2 ∧ nbits t 12 5 ≠ 22 ∧ m.ctrl.getLsbD
     1 = false) ∧
    (∃ s : State, ∃ m : ProxyMsg, s.awake ∧ s.block.Canonical ∧ s.block.joined = true ∧ ∃ (t : Nat), t = m.target.toNat ∧ nbits
     t 0 12 = s.block.endpoint ∧ s.block.fromLead m.session.toNat = true ∧ nbits t 12 5 ≠ 2 ∧ nbits t 12 5 ≠ 22 ∧ m.ctrl.getLsbD
     1 = true) :=
  ⟨⟨⟨[], fxDone⟩, 1, 1, met inferInstance (by decide +kernel)⟩,
    ⟨⟨[], fxRope true false⟩, 1, 1, met inferInstance (by decide +kernel)⟩,
    ⟨⟨[], fxPxy true (8 + 0x1000) false 0 5⟩, 1, 1, met inferInstance (by decide +kernel)⟩,
    ⟨⟨[], fxDone⟩, 1, 0, met inferInstance (by decide +kernel)⟩,
    ⟨⟨[], fxPxy true (8 + 0x1000) true 0 5⟩, 1, met inferInstance (by decide +kernel)⟩,
    ⟨⟨[], fxPxy true (8 + 0x1000) true 2 5000⟩, 1, met inferInstance (by decide +kernel)⟩,
    ⟨⟨[], fxPxy true (8 + 0x1000) true 0 5⟩, 1, met inferInstance (by decide +kernel)⟩,
    ⟨⟨[], fxPxy true (8 + 0x1000) true 0 5⟩, 1, met inferInstance (by decide +kernel)⟩,
    ⟨⟨[], fxDone⟩, 1, met inferInstance (by decide +kernel)⟩,
    ⟨⟨[], fxRope false false⟩, ⟨3, 9 + 0x02 * 4096, 0x104, 2, 5⟩, met inferInstance (by decide +kernel)⟩,
    ⟨⟨[], fxRope true false⟩, (⟨3, 9 + 0x02 * 4096, 0x104, 2, 5⟩), met inferInstance (by decide +kernel)⟩,
    ⟨⟨[], fxRope true false⟩, (⟨3, 9 + 0x01 * 4096, 0x104, 0, 5⟩), met inferInstance (by decide +kernel)⟩,
    ⟨⟨[], fxRope true false⟩, (⟨3, 9 + 0x01 * 4096, 0x104, 2, 5⟩), met inferInstance (by decide +kernel)⟩⟩

/-- The premises of LinksRun are met. -/
theorem witness_LinksRun :
    (∃ s : State, ∃ n : Fin 8, s.awake ∧ s.block.Canonical ∧ s.block.portLit ↑n = true ∧ ∃ (x : LinkPort), x = s.block.link ↑n ∧
     s.block.linkMode ↑n = false) ∧
    (∃ s : State, ∃ n : Fin 8, s.awake ∧ s.block.Canonical ∧ s.block.portLit ↑n = true ∧ ∃ (x : LinkPort), x = s.block.link ↑n ∧
     s.block.linkMode ↑n = true ∧ x.hello = false) ∧
    (∃ s : State, ∃ n : Fin 8, s.awake ∧ s.block.Canonical ∧ s.block.portLit ↑n = true ∧ ∃ (x : LinkPort), x = s.block.link ↑n ∧
     s.block.linkMode ↑n = true ∧ x.pcs = true ∧ x.waiting = []) ∧
    (∃ s : State, ∃ n : Fin 8, s.awake ∧ s.block.Canonical ∧ s.block.portLit ↑n = true ∧ ∃ (x : LinkPort), x = s.block.link ↑n ∧
     x.pcs = false) ∧
    (∃ s : State, ∃ n : Fin 8, s.awake ∧ s.block.Canonical ∧ s.block.portLit ↑n = true ∧ ∃ (x : LinkPort), x = s.block.link ↑n ∧
     s.block.linkMode ↑n = true ∧ x.pcs = true ∧ x.hello = false ∧ ∃ (t : Nat), x.lockAt = some t ∧ t + 1000000 ≤ s.block.meter)
     ∧
    (∃ s : State, ∃ n : Fin 8, s.awake ∧ s.block.Canonical ∧ s.block.portLit ↑n = true ∧ ∃ (x : LinkPort), x = s.block.link ↑n ∧
     s.block.linkMode ↑n = true ∧ x.pcs = true ∧ x.hello = false ∧ ∃ (t : Nat), x.lockAt = some t ∧ s.block.meter < t + 1000000)
     ∧
    (∃ s : State, ∃ n : Fin 8, s.awake ∧ s.block.Canonical ∧ s.block.portLit ↑n = true ∧ ∃ (x : LinkPort), x = s.block.link ↑n ∧
     s.block.linkMode ↑n = true ∧ x.pcs = true ∧ ∃ (t : Nat), x.downAt = some t ∧ t + 10000000 ≤ s.block.meter) ∧
    (∃ s : State, ∃ n : Fin 8, s.awake ∧ s.block.Canonical ∧ s.block.portLit ↑n = true ∧ ∃ (x : LinkPort), x = s.block.link ↑n ∧
     s.block.linkMode ↑n = true ∧ x.pcs = true ∧ ∃ (t : Nat), x.downAt = some t ∧ s.block.meter < t + 10000000) ∧
    (∃ s : State, ∃ n : Fin 8, s.awake ∧ s.block.Canonical ∧ s.block.portLit ↑n = true ∧ ∃ (x : LinkPort), x = s.block.link ↑n ∧
     True) ∧
    (∃ s : State, ∃ n : Fin 8, ∃ f : Bytes, s.awake ∧ s.block.Canonical ∧ Quiet s.block (pKwf ↑n) ∧ Quiet s.block pKwt ∧ ∃ (x :
     LinkPort), x = s.block.link ↑n ∧ x.up = true ∧ s.block.linkMode ↑n = true ∧ List.length f = 256 ∧ le f 252 4 = (crc32
     (slice f 0 252)).toNat ∧ nbits (le f 0 1) 0 4 = 1 ∧ le f 4 2 = x.expect ∧ sget 0 x.inUse (nbits (le f 0 1) 4 3) < 1024 ∧
     nbits (le f 1 1) 0 1 = 0 ∧ 0 < le f 2 1 ∧ x.unacked + 1 < s.block.fld (pKwf ↑n) 276 0 8) ∧
    (∃ s : State, ∃ n : Fin 8, ∃ f : Bytes, s.awake ∧ s.block.Canonical ∧ Quiet s.block (pKwf ↑n) ∧ Quiet s.block pKwt ∧ ∃ (x :
     LinkPort), x = s.block.link ↑n ∧ x.up = true ∧ s.block.linkMode ↑n = true ∧ List.length f = 256 ∧ le f 252 4 = (crc32
     (slice f 0 252)).toNat ∧ nbits (le f 0 1) 0 4 = 1 ∧ le f 4 2 = x.expect ∧ sget 0 x.inUse (nbits (le f 0 1) 4 3) < 1024 ∧
     nbits (le f 1 1) 0 1 = 1) ∧
    (∃ s : State, ∃ n : Fin 8, ∃ f : Bytes, s.awake ∧ s.block.Canonical ∧ Quiet s.block (pKwf ↑n) ∧ Quiet s.block pKwt ∧ ∃ (x :
     LinkPort), x = s.block.link ↑n ∧ x.up = true ∧ s.block.linkMode ↑n = true ∧ List.length f = 256 ∧ le f 252 4 = (crc32
     (slice f 0 252)).toNat ∧ nbits (le f 0 1) 0 4 = 1 ∧ le f 4 2 ≠ x.expect ∧ x.nakAt = none) ∧
    (∃ s : State, ∃ n : Fin 8, s.awake ∧ s.block.Canonical ∧ Quiet s.block (pKwf ↑n) ∧ Quiet s.block pKwt ∧ ∃ (x : LinkPort), x
     = s.block.link ↑n ∧ x.up = true ∧ s.block.linkMode ↑n = true ∧ x.waiting = [] ∧ swf 0 x.credits = true) ∧
    (∃ s : State, ∃ n : Fin 8, ∃ a : BitVec 16, s.awake ∧ s.block.Canonical ∧ Quiet s.block (pKwf ↑n) ∧ Quiet s.block pKwt ∧ ∃
     (x : LinkPort), x = s.block.link ↑n ∧ x.up = true ∧ s.block.linkMode ↑n = true ∧ ∃ (y : LinkPort), y = x.ackUpTo a.toNat
     s.block.meter ∧ y.waiting = [] ∧ y.replay ≠ [] ∧ ((if y.replayed = true then y.fails + 1 else y.fails) < s.block.replayMax
     ↑n)) ∧
    (∃ s : State, ∃ n : Fin 8, s.awake ∧ s.block.Canonical ∧ Quiet s.block (pKwf ↑n) ∧ Quiet s.block pKwt ∧ ∃ (x : LinkPort), x
     = s.block.link ↑n ∧ x.up = true ∧ s.block.linkMode ↑n = true ∧ x.replay ≠ [] ∧ ((if x.replayed = true then x.fails + 1 else
     x.fails) < s.block.replayMax ↑n) ∧ 4 * x.progress + 3 * s.block.linkGiveup ↑n ≤ 4 * s.block.meter ∧ x.fails <
     s.block.replayMax ↑n) ∧
    (∃ s : State, ∃ n : Fin 8, s.awake ∧ s.block.Canonical ∧ Quiet s.block (pKwf ↑n) ∧ Quiet s.block pKwt ∧ ∃ (x : LinkPort), x
     = s.block.link ↑n ∧ x.up = true ∧ s.block.linkMode ↑n = true ∧ x.replay ≠ [] ∧ ((if x.replayed = true then x.fails + 1 else
     x.fails) < s.block.replayMax ↑n) ∧ 4 * s.block.meter < 4 * x.progress + 3 * s.block.linkGiveup ↑n) ∧
    (∃ s : State, ∃ n : Fin 8, s.awake ∧ s.block.Canonical ∧ Quiet s.block (pKwf ↑n) ∧ Quiet s.block pKwt ∧ ∃ (x : LinkPort), x
     = s.block.link ↑n ∧ x.up = true ∧ s.block.linkMode ↑n = true) ∧
    (∃ s : State, ∃ n : Fin 8, ∃ f : HeldFlit, ∃ rest : List HeldFlit, s.awake ∧ s.block.Canonical ∧ Quiet s.block (pKwf ↑n) ∧
     Quiet s.block pKwt ∧ ∃ (x : LinkPort), x = s.block.link ↑n ∧ x.up = true ∧ x.replay = f :: rest ∧ f.first +
     s.block.linkGiveup ↑n ≤ s.block.meter) ∧
    (∃ s : State, ∃ n : Fin 8, ∃ f : HeldFlit, ∃ rest : List HeldFlit, s.awake ∧ s.block.Canonical ∧ Quiet s.block (pKwf ↑n) ∧
     Quiet s.block pKwt ∧ ∃ (x : LinkPort), x = s.block.link ↑n ∧ x.up = true ∧ x.replay = f :: rest ∧ s.block.meter < f.first +
     s.block.linkGiveup ↑n ∧ x.fails < s.block.replayMax ↑n) ∧
    (∃ s : State, ∃ n : Fin 8, s.awake ∧ s.block.Canonical ∧ Quiet s.block (pKwf ↑n) ∧ Quiet s.block pKwt ∧ ∃ (x : LinkPort), x
     = s.block.link ↑n ∧ x.up = true ∧ ∃ (t : Nat), x.ackAt = some t ∧ t + s.block.ackWait ↑n ≤ s.block.meter) ∧
    (∃ s : State, ∃ n : Fin 8, s.awake ∧ s.block.Canonical ∧ Quiet s.block (pKwf ↑n) ∧ Quiet s.block pKwt ∧ ∃ (x : LinkPort), x
     = s.block.link ↑n ∧ x.up = true ∧ ∃ (t : Nat), x.ackAt = some t ∧ s.block.meter < t + s.block.ackWait ↑n) ∧
    (∃ s : State, ∃ n : Fin 8, ∃ f : Bytes, s.awake ∧ s.block.Canonical ∧ Quiet s.block (pKwf ↑n) ∧ Quiet s.block pKwt ∧ ∃ (x :
     LinkPort), x = s.block.link ↑n ∧ x.up = true ∧ s.block.linkMode ↑n = false ∧ beNat (slice f 12 2) ≠ 33024 ∧ beNat (slice f
     12 2) ≠ 35422) ∧
    (∃ s : State, ∃ n : Fin 8, ∃ f : Bytes, s.awake ∧ s.block.Canonical ∧ Quiet s.block (pKwf ↑n) ∧ Quiet s.block pKwt ∧ ∃ (x :
     LinkPort), x = s.block.link ↑n ∧ x.up = true ∧ s.block.linkMode ↑n = false ∧ beNat (slice f 12 2) = 35422 ∧ 18 ≤
     List.length f ∧ List.length f ≤ 9216 ∧ (∀ (h : SegHead), readSeg (slice f 14 (List.length f - 18)) = some h → h.kind ≠ 6))
     ∧
    (∃ s : State, ∃ n : Fin 8, ∃ f : Bytes, s.awake ∧ s.block.Canonical ∧ Quiet s.block (pKwf ↑n) ∧ Quiet s.block pKwt ∧ ∃ (x :
     LinkPort), x = s.block.link ↑n ∧ x.up = true ∧ s.block.linkMode ↑n = false ∧ ∃ (g : Bytes), g = slice f 14 (List.length f -
     18) ∧ beNat (slice f 12 2) = 35422 ∧ 18 ≤ List.length f ∧ List.length f ≤ 9216 ∧ s.block.fatal = false ∧ s.block.pageState
     pKwt = 2 ∧ ∃ (h : SegHead), readSeg g = some h ∧ h.kind = 6 ∧ h.dst = s.block.endpoint ∧ h.last = false ∧ (List.drop 48
     g).length ≤ h.msgLen ∧ (∀ (r : Reasm), r ∈ s.block.transport.reasm → ¬(r.src = h.src ∧ r.session = h.session ∧ r.msgId =
     h.msgId))) ∧
    (∃ s : State, ∃ n : Fin 8, s.awake ∧ s.block.Canonical ∧ Quiet s.block (pKwf ↑n) ∧ Quiet s.block pKwt ∧ ∃ (x : LinkPort), x
     = s.block.link ↑n ∧ x.up = true ∧ s.block.linkMode ↑n = false) :=
  ⟨⟨⟨[], fxLink true 5 {}⟩, 2, met inferInstance (by decide +kernel)⟩,
    ⟨⟨[], fxLink false 5 {}⟩, 2, met inferInstance (by decide +kernel)⟩,
    ⟨⟨[], fxLink false 5 { pcs := true }⟩, 2, met inferInstance (by decide +kernel)⟩,
    ⟨⟨[], fxLink false 5 {}⟩, 2, met inferInstance (by decide +kernel)⟩,
    ⟨⟨[], fxLink false 1000000 {pcs := true, lockAt := some 0 }⟩, 2, met inferInstance (by decide +kernel)⟩,
    ⟨⟨[], fxLink false 5 {pcs := true, lockAt := some 0 }⟩, 2, met inferInstance (by decide +kernel)⟩,
    ⟨⟨[], fxLink false 10000000 {pcs := true, downAt := some 0 }⟩, 2, met inferInstance (by decide +kernel)⟩,
    ⟨⟨[], fxLink false 1000000 {pcs := true, downAt := some 0 }⟩, 2, met inferInstance (by decide +kernel)⟩,
    ⟨⟨[], fxLink false 5 {}⟩, 2, met inferInstance (by decide +kernel)⟩,
    ⟨⟨[], fxLink false 5 (fxUp [])⟩, 2, (fxFlit 3 false), met inferInstance (by decide +kernel)⟩,
    ⟨⟨[], fxLink false 5 (fxUp [])⟩, 2, (fxFlit 3 true), met inferInstance (by decide +kernel)⟩,
    ⟨⟨[], fxLink false 5 (fxUp [])⟩, 2, (fxFlit 4 false), met inferInstance (by decide +kernel)⟩,
    ⟨⟨[], fxLink false 5 (fxUp [])⟩, 2, met inferInstance (by decide +kernel)⟩,
    ⟨⟨[], fxLink false 5 (fxUp [fxHeld 2, fxHeld 3])⟩, 2, 0, met inferInstance (by decide +kernel)⟩,
    ⟨⟨[], fxLink false 100000 (fxUp [fxHeld 2, fxHeld 3])⟩, 2, met inferInstance (by decide +kernel)⟩,
    ⟨⟨[], fxLink false 5 (fxUp [fxHeld 2, fxHeld 3])⟩, 2, met inferInstance (by decide +kernel)⟩,
    ⟨⟨[], fxLink false 5 (fxUp [])⟩, 2, met inferInstance (by decide +kernel)⟩,
    ⟨⟨[], fxLink false 100000 (fxUp [fxHeld 2, fxHeld 3])⟩, 2,
     ({ fseq := 2, part := { vc := 0, som := true, eom := true, payload := [0x01#8, 0x02#8], msg := (0, 1) }, first := 0 }),
     ([{ fseq := 3, part := { vc := 0, som := true, eom := true, payload := [0x01#8, 0x02#8], msg := (0, 1) }, first := 0 }]),
     met inferInstance (by decide +kernel)⟩,
    ⟨⟨[], fxLink false 5 (fxUp [fxHeld 2, fxHeld 3])⟩, 2,
     ({ fseq := 2, part := { vc := 0, som := true, eom := true, payload := [0x01#8, 0x02#8], msg := (0, 1) }, first := 0 }),
     ([{ fseq := 3, part := { vc := 0, som := true, eom := true, payload := [0x01#8, 0x02#8], msg := (0, 1) }, first := 0 }]),
     met inferInstance (by decide +kernel)⟩,
    ⟨⟨[], fxLink false 100000 (fxUp [fxHeld 2, fxHeld 3])⟩, 2, met inferInstance (by decide +kernel)⟩,
    ⟨⟨[], fxLink false 5 (fxUp [])⟩, 2, met inferInstance (by decide +kernel)⟩,
    ⟨⟨[], fxLink true 5 { pcs := true, up := true }⟩, 2, (fxFlit 3 false), met inferInstance (by decide +kernel)⟩,
    ⟨⟨[], fxLink true 5 { pcs := true, up := true }⟩, 2, (fxFrame [0x8A, 0x5E] [1,2]), met inferInstance (by decide +kernel)⟩,
    ⟨⟨[], fxLink true 5 { pcs := true, up := true }⟩, 2, fxFrame [0x8A, 0x5E] ((fxSeg 6 3 false 0 100 0 9).take 52),
     met inferInstance (by decide +kernel)⟩,
    ⟨⟨[], fxLink true 5 { pcs := true, up := true }⟩, 2, met inferInstance (by decide +kernel)⟩⟩

/-- The premises of MessagesCarried are met. -/
theorem witness_MessagesCarried :
    (∃ s : State, ∃ g : Bytes, s.awake ∧ readSeg g = none) ∧
    (∃ s : State, ∃ g : Bytes, s.awake ∧ s.block.Canonical ∧ s.block.CanonicalParts ∧ s.block.fatal = false ∧ Quiet s.block pKwt
     ∧ s.block.pageState pKwt = 2 ∧ ∃ (h : SegHead), readSeg g = some h ∧ ∃ (n : Nat), n = h.session ∧ ∃ (x : Session), x =
     s.block.session n ∧ h.dst ≠ s.block.endpoint) ∧
    (∃ s : State, ∃ g : Bytes, s.awake ∧ s.block.Canonical ∧ s.block.CanonicalParts ∧ s.block.fatal = false ∧ Quiet s.block pKwt
     ∧ s.block.pageState pKwt = 2 ∧ ∃ (h : SegHead), readSeg g = some h ∧ ∃ (n : Nat), n = h.session ∧ ∃ (x : Session), x =
     s.block.session n ∧ h.dst = s.block.endpoint ∧ h.kind ≠ 6 ∧ x.state = SessState.closed) ∧
    (∃ s : State, ∃ g : Bytes, s.awake ∧ s.block.Canonical ∧ s.block.CanonicalParts ∧ s.block.fatal = false ∧ Quiet s.block pKwt
     ∧ s.block.pageState pKwt = 2 ∧ ∃ (h : SegHead), readSeg g = some h ∧ ∃ (n : Nat), n = h.session ∧ ∃ (x : Session), x =
     s.block.session n ∧ h.dst = s.block.endpoint ∧ h.kind ≠ 6 ∧ x.state = SessState.opened ∧ x.endpoint = h.src ∧ x.rope =
     false ∧ h.epoch = 0 ∧ (s.block.rx n).discards < 15 ∧ (s.block.rx n).stale h.nonce = true) ∧
    (∃ s : State, ∃ g : Bytes, s.awake ∧ s.block.Canonical ∧ s.block.CanonicalParts ∧ s.block.fatal = false ∧ Quiet s.block pKwt
     ∧ s.block.pageState pKwt = 2 ∧ ∃ (h : SegHead), readSeg g = some h ∧ ∃ (n : Nat), n = h.session ∧ ∃ (x : Session), x =
     s.block.session n ∧ h.dst = s.block.endpoint ∧ h.kind ≠ 6 ∧ x.state = SessState.opened ∧ x.endpoint = h.src ∧ x.rope =
     false ∧ h.epoch = 0 ∧ (s.block.rx n).discards < 15 ∧ (s.block.rx n).stale h.nonce = false ∧ (∀ (r : Reasm), r ∈
     s.block.transport.reasm → ¬(r.src = h.src ∧ r.session = n ∧ r.msgId = h.msgId))) ∧
    (∃ s : State, ∃ n : BitVec 12, ∃ id : BitVec 32, s.awake ∧ ∃ (r : Reasm), r ∈ s.block.transport.reasm ∧ r.session = n.toNat
     ∧ r.msgId = id.toNat ∧ r.at_ + s.block.fld pKwt 268 8 8 * 1000 ≤ s.block.meter ∧ s.block.Canonical) ∧
    (∃ s : State, ∃ n : BitVec 12, ∃ id : BitVec 32, s.awake ∧ (∀ (r : Reasm), r ∈ s.block.transport.reasm → r.session = n.toNat
     → r.msgId = id.toNat → s.block.meter < r.at_ + s.block.fld pKwt 268 8 8 * 1000)) ∧
    (∃ s : State, s.awake) ∧
    (∃ s : State, ∃ n : BitVec 12, ∃ id : BitVec 32, ∃ body : Bytes, s.awake ∧ s.block.Canonical ∧ ∃ (m : SentMsg), List.find?
     (fun m => decide (m.session = n.toNat ∧ m.msgId = id.toNat ∧ m.kind = 0)) s.block.transport.sent = some m ∧ (¬m.msg.kind ∈
     [MsgKind.logCopy, MsgKind.joinRequest, MsgKind.refineRequest, MsgKind.forwarded] ∨ m.msg.kind = MsgKind.refineRequest ∧ le
     body 2 1 = 0)) ∧
    (∃ s : State, ∃ n : BitVec 12, ∃ id : BitVec 32, ∃ body : Bytes, ∃ q : Nat, ∃ k : Nat, ∃ l : List Nat, s.awake ∧
     s.block.Canonical ∧ ∃ (m : SentMsg), List.find? (fun m => decide (m.session = n.toNat ∧ m.msgId = id.toNat ∧ m.kind = 0))
     s.block.transport.sent = some m ∧ m.msg.kind = MsgKind.refineRequest ∧ m.msg.args = q :: k :: l ∧ le body 2 1 ≠ 0 ∧ le body
     2 1 ≠ stTierFault) ∧
    (∃ s : State, ∃ n : BitVec 12, ∃ id : BitVec 32, ∃ body : Bytes, s.awake ∧ s.block.Canonical ∧ ∃ (m : SentMsg), List.find?
     (fun m => decide (m.session = n.toNat ∧ m.msgId = id.toNat ∧ m.kind = 0)) s.block.transport.sent = some m ∧ m.msg.kind =
     MsgKind.joinRequest ∧ s.block.rope.jstate = 2 ∧ le body 2 1 ≠ 0) ∧
    (∃ s : State, ∃ n : BitVec 12, ∃ id : BitVec 32, s.awake ∧ s.block.Canonical ∧ List.find? (fun m => decide (m.session =
     n.toNat ∧ m.msgId = id.toNat ∧ m.kind = 0)) s.block.transport.sent = none) ∧
    (∃ s : State, ∃ n : BitVec 12, ∃ id : BitVec 32, s.awake ∧ s.block.Canonical ∧ ∃ (m : SentMsg), List.find? (fun m => decide
     (m.session = n.toNat ∧ m.msgId = id.toNat)) s.block.transport.sent = some m ∧ (s.block.meter < m.lastSent + s.block.rto m ∨
     s.block.portHolds (n.toNat, id.toNat) = true)) ∧
    (∃ s : State, ∃ n : BitVec 12, ∃ id : BitVec 32, s.awake ∧ s.block.Canonical ∧ ∃ (m : SentMsg), List.find? (fun m => decide
     (m.session = n.toNat ∧ m.msgId = id.toNat)) s.block.transport.sent = some m ∧ m.lastSent + s.block.rto m ≤ s.block.meter ∧
     s.block.portHolds (n.toNat, id.toNat) = false ∧ (m.msg.deadline = none ∧ m.resends < s.block.fld pKwt 268 0 4 ∨
     m.msg.deadline ≠ none ∧ s.block.mayResend m = true)) ∧
    (∃ s : State, ∃ n : BitVec 12, ∃ id : BitVec 32, s.awake ∧ s.block.Canonical ∧ ∃ (m : SentMsg), List.find? (fun m => decide
     (m.session = n.toNat ∧ m.msgId = id.toNat)) s.block.transport.sent = some m ∧ m.lastSent + s.block.rto m ≤ s.block.meter ∧
     s.block.portHolds (n.toNat, id.toNat) = false ∧ m.msg.deadline ≠ none ∧ s.block.mayResend m = false) ∧
    (∃ s : State, ∃ n : BitVec 12, ∃ id : BitVec 32, s.awake ∧ s.block.Canonical ∧ ∃ (m : SentMsg), List.find? (fun m => decide
     (m.session = n.toNat ∧ m.msgId = id.toNat)) s.block.transport.sent = some m ∧ m.lastSent + s.block.rto m ≤ s.block.meter ∧
     s.block.portHolds (n.toNat, id.toNat) = false ∧ m.msg.deadline = none ∧ s.block.fld pKwt 268 0 4 ≤ m.resends ∧
     (s.block.session n.toNat).rope = false) :=
  ⟨⟨⟨[], fxDone⟩, ([1]), met inferInstance (by decide +kernel)⟩,
    ⟨⟨[], fxCarry .closed {}⟩, (fxSeg 0 3 true 0 4 5 7), met inferInstance (by decide +kernel)⟩,
    ⟨⟨[], fxCarry .closed {}⟩, (fxSeg 0 3 true 0 4 7 6), met inferInstance (by decide +kernel)⟩,
    ⟨⟨[], fxCarry .opened { highest := 6, accepted := [5], delivered := [1] }⟩, (fxSeg 0 3 true 0 4 5 6), met inferInstance
     (by decide +kernel)⟩,
    ⟨⟨[], fxCarry .opened {}⟩, (fxSeg 0 3 true 0 4 7 6), met inferInstance (by decide +kernel)⟩,
    ⟨⟨[], fxReasm 1000000⟩, 3, 1, met inferInstance (by decide +kernel)⟩,
    ⟨⟨[], fxDone⟩, 3, 1, met inferInstance (by decide +kernel)⟩,
    ⟨⟨[], fxDone⟩, met inferInstance (by decide +kernel)⟩,
    ⟨⟨[], fxSent .shardRequest none 0 5⟩, 3, 1, [], met inferInstance (by decide +kernel)⟩,
    ⟨⟨[], fxSentArgs .refineRequest [0, 0] 5⟩, 3, 1, [0, 0, 1, 0], 0, 0, [], met inferInstance (by decide +kernel)⟩,
    ⟨⟨[], fxSent .joinRequest (some 10000000) 0 5⟩, 3, 1, ([0,0,5,0]), met inferInstance (by decide +kernel)⟩,
    ⟨⟨[], fxDone⟩, 3, 1, met inferInstance (by decide +kernel)⟩,
    ⟨⟨[], fxSent .shardRequest none 0 5⟩, 3, 1, met inferInstance (by decide +kernel)⟩,
    ⟨⟨[], fxSent .shardRequest none 0 10000000⟩, 3, 1, met inferInstance (by decide +kernel)⟩,
    ⟨⟨[], fxSent .joinRequest (some 1000) 0 10000000⟩, 3, 1, met inferInstance (by decide +kernel)⟩,
    ⟨⟨[], fxSent .shardRequest none 15 10000000⟩, 3, 1, met inferInstance (by decide +kernel)⟩⟩

/-- The premises of RopeMembers are met. -/
theorem witness_RopeMembers :
    (∃ s : State, s.awake ∧ s.block.Canonical ∧ s.block.rope.jstate = 3 ∧ s.block.sled.poweringOff = false ∧ (∀ (t : Nat),
     s.block.rope.lastBeat = some t → t + s.block.beatCfg.fst * 100 ≤ s.block.meter)) ∧
    (∃ s : State, s.awake ∧ s.block.Canonical ∧ s.block.rope.jstate ≠ 3) ∧
    (∃ s : State, ∃ p : BitVec 6, ∃ spare : Bool, s.awake ∧ s.block.Canonical ∧ s.block.rope.jstate = 3 ∧ (∃ m, m ∈
     s.block.rope.members ∧ m.lost = false ∧ m.place = p.toNat ∧ m.spare = spare)) ∧
    (∃ s : State, ∃ p : BitVec 6, ∃ spare : Bool, s.awake ∧ s.block.Canonical ∧ s.block.rope.jstate = 3 ∧ (∀ (m : RopeMember), m
     ∈ s.block.rope.members → m.place = p.toNat → m.spare = spare → m.lost = true)) ∧
    (∃ s : State, ∃ p : BitVec 6, s.awake ∧ s.block.Canonical ∧ ∃ (m : RopeMember), List.find? (fun m => decide (m.place =
     p.toNat)) s.block.liveMembers = some m ∧ s.block.rope.jstate = 3 ∧ s.block.declares m = true ∧ s.block.mayDeclare p.toNat =
     true ∧ (∀ (k : RopeMember), k ∈ s.block.rope.members → k.id < 4096)) ∧
    (∃ s : State, ∃ p : BitVec 6, s.awake ∧ s.block.Canonical ∧ ∃ (m : RopeMember), List.find? (fun m => decide (m.place =
     p.toNat)) s.block.liveMembers = some m ∧ s.block.rope.jstate = 3 ∧ s.block.declares m = true ∧ s.block.heardIn
     s.block.missTime p.toNat = true) ∧
    (∃ s : State, ∃ p : BitVec 6, s.awake ∧ s.block.Canonical ∧ ∃ (m : RopeMember), List.find? (fun m => decide (m.place =
     p.toNat)) s.block.liveMembers = some m ∧ s.block.rope.jstate = 3 ∧ s.block.declares m = true ∧ s.block.mayRetire m = true ∧
     (∀ (k : RopeMember), k ∈ s.block.rope.members → k.id < 4096)) ∧
    (∃ s : State, ∃ p : BitVec 6, s.awake ∧ s.block.Canonical ∧ ∃ (m : RopeMember), List.find? (fun m => decide (m.place =
     p.toNat)) s.block.liveMembers = some m ∧ s.block.rope.jstate = 3 ∧ s.block.declares m = true ∧ s.block.mayRetire m = false)
     ∧
    (∃ s : State, ∃ n : Sys2Proof.Membership, s.awake ∧ s.block.Canonical ∧ s.block.sessionOf n.leadId.toNat = none ∧
     s.block.rope.jstate = 3 ∧ epochAfter n.epoch.toNat s.block.rope.epoch = true ∧ (∃ e, e ∈ n.members ∧ e.fst.toNat =
     s.block.endpoint)) ∧
    (∃ s : State, ∃ n : Sys2Proof.Membership, s.awake ∧ s.block.Canonical ∧ s.block.sessionOf n.leadId.toNat = none ∧
     s.block.rope.jstate = 3 ∧ epochAfter n.epoch.toNat s.block.rope.epoch = true ∧ (∀ (e : BitVec 12 × BitVec 6 × Bool), e ∈
     n.members → e.fst.toNat ≠ s.block.endpoint)) ∧
    (∃ s : State, ∃ n : Sys2Proof.Membership, s.awake ∧ s.block.Canonical ∧ s.block.sessionOf n.leadId.toNat = none ∧
     s.block.rope.jstate = 3 ∧ n.epoch.toNat ≠ s.block.rope.epoch ∧ epochAfter n.epoch.toNat s.block.rope.epoch = false) ∧
    (∃ s : State, ∃ n : Sys2Proof.Membership, s.awake ∧ s.block.Canonical ∧ s.block.sessionOf n.leadId.toNat = none ∧
     s.block.rope.jstate = 2 ∧ (∃ e, e ∈ n.members ∧ e.fst.toNat = s.block.endpoint)) ∧
    (∃ s : State, ∃ n : Sys2Proof.Membership, s.awake ∧ s.block.Canonical ∧ s.block.sessionOf n.leadId.toNat = none ∧
     s.block.rope.jstate = 2 ∧ (∀ (e : BitVec 12 × BitVec 6 × Bool), e ∈ n.members → e.fst.toNat ≠ s.block.endpoint)) ∧
    (∃ s : State, s.awake ∧ s.block.Canonical ∧ s.block.rope.jstate = 3 ∧ 2 * (List.filter (fun m => decide (m.id =
     s.block.endpoint) || s.block.heardIn (2 * s.block.missTime) m.place) s.block.liveMembers).length <
     s.block.liveMembers.length) ∧
    (∃ s : State, s.awake ∧ s.block.Canonical ∧ ∃ (t : Nat), s.block.rope.declaredAt = some t ∧ s.block.rope.standin = 1 ∧ t + 2
     * s.block.missTime ≤ s.block.meter) ∧
    (∃ s : State, s.awake ∧ s.block.Canonical ∧ ∃ (t : Nat), s.block.rope.declaredAt = some t ∧ s.block.rope.standin = 1 ∧
     s.block.meter < t + 2 * s.block.missTime) ∧
    (∃ s : State, s.awake ∧ s.block.Canonical ∧ s.block.rope.standin = 2) ∧
    (∃ s : State, s.awake ∧ s.block.Canonical ∧ s.block.rope.standin ≠ 2) ∧
    (∃ s : State, s.awake ∧ s.block.Canonical ∧ s.block.rope.standin = 3) ∧
    (∃ s : State, s.awake ∧ s.block.Canonical ∧ s.block.rope.standin ≠ 3) :=
  ⟨⟨⟨[], fxRope true false⟩, met inferInstance (by decide +kernel)⟩,
    ⟨⟨[], fxDone⟩, met inferInstance (by decide +kernel)⟩,
    ⟨⟨[], fxRope true false⟩, 0, false, met inferInstance (by decide +kernel)⟩,
    ⟨⟨[], fxRope true false⟩, 0, true, met inferInstance (by decide +kernel)⟩,
    ⟨⟨[], fxHeard true false [⟨0, 9999990, 1⟩]⟩, 1, met inferInstance (by decide +kernel)⟩,
    ⟨⟨[], fxHeard true false [⟨0, 9999990, 1⟩]⟩, 0, met inferInstance (by decide +kernel)⟩,
    ⟨⟨[],
     { fxRope true false with rope := { (fxRope true false).rope with members := ⟨10, 63, true, true, false⟩ :: (fxRope true false).rope.members } }⟩,
     1, met inferInstance (by decide +kernel)⟩,
    ⟨⟨[], fxHeard true false [⟨0, 9999990, 1⟩]⟩, 0, met inferInstance (by decide +kernel)⟩,
    ⟨⟨[], fxRope true false⟩, (⟨5, 7, 1, [(7, 0, false), (9, 2, false)], [], 0x30064, [], []⟩), met inferInstance
     (by decide +kernel)⟩,
    ⟨⟨[], fxRope true false⟩, (⟨5, 7, 1, [(7, 0, false), (8, 2, false)], [], 0x30064, [], []⟩), met inferInstance
     (by decide +kernel)⟩,
    ⟨⟨[], fxRope true false⟩, (⟨3, 7, 1, [(7, 0, false), (8, 2, false)], [], 0x30064, [], []⟩), met inferInstance
     (by decide +kernel)⟩,
    ⟨⟨[], fxJoining 2 5⟩, (⟨5, 7, 1, [(7, 0, false), (9, 2, false)], [], 0x30064, [], []⟩), met inferInstance
     (by decide +kernel)⟩,
    ⟨⟨[], fxJoining 2 5⟩, (⟨5, 7, 1, [(7, 0, false), (8, 2, false)], [], 0x30064, [], []⟩), met inferInstance
     (by decide +kernel)⟩,
    ⟨⟨[], fxRope true false⟩, met inferInstance (by decide +kernel)⟩,
    ⟨⟨[], fxStandin 1 10000000⟩, met inferInstance (by decide +kernel)⟩,
    ⟨⟨[], fxStandin 1 5⟩, met inferInstance (by decide +kernel)⟩,
    ⟨⟨[], fxStandin 2 5⟩, met inferInstance (by decide +kernel)⟩,
    ⟨⟨[], fxDone⟩, met inferInstance (by decide +kernel)⟩,
    ⟨⟨[], fxStandin 3 5⟩, met inferInstance (by decide +kernel)⟩,
    ⟨⟨[], fxDone⟩, met inferInstance (by decide +kernel)⟩⟩

/-- The premises of RopeJoins are met. -/
theorem witness_RopeJoins :
    (∃ s : State, ∃ v : BitVec 32, s.open_ ∧ Quiet s.block pRop ∧ s.block.Canonical ∧ v.getLsbD 0 = true ∧ v.getLsbD 1 = false ∧
     v.getLsbD 2 = false ∧ (¬s.block.rope.jstate ∈ [0, 4, 5])) ∧
    (∃ s : State, ∃ v : BitVec 32, s.open_ ∧ Quiet s.block pRop ∧ s.block.Canonical ∧ v.getLsbD 0 = true ∧ v.getLsbD 1 = false ∧
     v.getLsbD 2 = false ∧ s.block.rope.jstate ∈ [0, 4] ∧ s.block.running pKwt = false) ∧
    (∃ s : State, ∃ v : BitVec 32, s.open_ ∧ Quiet s.block pRop ∧ s.block.Canonical ∧ v.getLsbD 0 = true ∧ v.getLsbD 1 = false ∧
     v.getLsbD 2 = false ∧ s.block.rope.jstate ∈ [0, 4, 5] ∧ s.block.running pKwt = true ∧ s.block.running (pQpl 0) = true ∧
     s.block.running (pQpl 1) = true ∧ s.block.tstate = 1 ∧ s.block.fld pRop 260 6 1 = 1 ∧ s.block.tableOk = true) ∧
    (∃ s : State, ∃ v : BitVec 32, s.open_ ∧ Quiet s.block pRop ∧ s.block.Canonical ∧ v.getLsbD 0 = true ∧ v.getLsbD 1 = false ∧
     v.getLsbD 2 = false ∧ s.block.rope.jstate ∈ [0, 4, 5] ∧ s.block.running pKwt = true ∧ s.block.running (pQpl 0) = true ∧
     s.block.running (pQpl 1) = true ∧ s.block.tstate = 1 ∧ s.block.fld pRop 260 6 1 = 0) ∧
    (∃ s : State, ∃ r : JoinReq, s.awake ∧ s.block.Canonical ∧ r.sessionOk = true ∧ s.block.rope.jstate = 1 ∧ ((∀ (m :
     RopeMember), m ∈ s.block.rope.members → m.id ≠ r.moduleId.toNat) ∨ r.tenant.toNat ≠ s.block.get pSec 260)) ∧
    (∃ s : State, ∃ r : JoinReq, s.awake ∧ s.block.Canonical ∧ r.sessionOk = true ∧ s.block.rope.jstate = 1 ∧ ∃ (k :
     RopeMember), k ∈ s.block.rope.members ∧ k.id = r.moduleId.toNat ∧ r.tenant.toNat = s.block.get pSec 260 ∧ r.tenant.toNat ≠
     0 ∧ (∃ j, j ∈ s.block.rope.members ∧ j.id ≠ r.moduleId.toNat ∧ j.joined = false)) ∧
    (∃ s : State, ∃ r : JoinReq, s.awake ∧ s.block.Canonical ∧ r.sessionOk = true ∧ s.block.rope.jstate = 1 ∧ ∃ (k :
     RopeMember), k ∈ s.block.rope.members ∧ k.id = r.moduleId.toNat ∧ r.tenant.toNat = s.block.get pSec 260 ∧ r.tenant.toNat ≠
     0 ∧ (∀ (j : RopeMember), j ∈ s.block.rope.members → j.lost = false ∧ (j.id ≠ r.moduleId.toNat → j.joined = true)) ∧ (∃ j, j
     ∈ s.block.rope.members ∧ j.id = s.block.endpoint)) ∧
    (∃ s : State, s.awake ∧ s.block.Canonical ∧ ∃ (t : Nat), s.block.rope.formAt = some t ∧ (s.block.rope.jstate = 1 ∨
     s.block.rope.jstate = 2) ∧ t + s.block.fld pRop 272 0 16 * 100000 ≤ s.block.meter) ∧
    (∃ s : State, s.awake ∧ s.block.Canonical ∧ ∃ (t : Nat), s.block.rope.formAt = some t ∧ (s.block.rope.jstate = 1 ∨
     s.block.rope.jstate = 2) ∧ s.block.meter < t + s.block.fld pRop 272 0 16 * 100000) ∧
    (∃ s : State, ∃ v : BitVec 32, s.open_ ∧ s.block.Canonical ∧ Quiet s.block pRop ∧ v.getLsbD 0 = false ∧ v.getLsbD 1 = true ∧
     v.getLsbD 2 = false ∧ s.block.rope.jstate = 3 ∧ s.block.lead = false) ∧
    (∃ s : State, ∃ v : BitVec 32, s.open_ ∧ s.block.Canonical ∧ Quiet s.block pRop ∧ v.getLsbD 0 = false ∧ v.getLsbD 1 = true ∧
     v.getLsbD 2 = false ∧ s.block.rope.jstate = 3 ∧ s.block.lead = true ∧ (∃ m, m ∈ s.block.rope.members ∧ m.lost = false ∧
     m.id ≠ s.block.endpoint)) ∧
    (∃ s : State, ∃ v : BitVec 32, s.open_ ∧ s.block.Canonical ∧ Quiet s.block pRop ∧ v.getLsbD 0 = false ∧ v.getLsbD 1 = false
     ∧ v.getLsbD 2 = true ∧ ∃ (id : Nat), id = bits (BitVec.setWidth 64 v) 16 12 ∧ ∃ (m : RopeMember), List.find? (fun m =>
     decide (m.id = id)) s.block.liveMembers = some m ∧ s.block.rope.jstate = 3 ∧ s.block.lead = true ∧ id ≠ s.block.endpoint ∧
     (∀ (k : RopeMember), k ∈ s.block.rope.members → k.id < 4096)) ∧
    (∃ s : State, ∃ v : BitVec 32, s.open_ ∧ s.block.Canonical ∧ Quiet s.block pRop ∧ v.getLsbD 0 = false ∧ v.getLsbD 1 = false
     ∧ v.getLsbD 2 = true ∧ ∃ (id : Nat), id = bits (BitVec.setWidth 64 v) 16 12 ∧ (s.block.lead = false ∨ id =
     s.block.endpoint)) :=
  ⟨⟨⟨[], fxRope true false⟩, 1, met inferInstance (by decide +kernel)⟩,
    ⟨⟨[], fxDone⟩, 1, met inferInstance (by decide +kernel)⟩,
    ⟨⟨[], fxJoin true 2⟩, 1, met inferInstance (by decide +kernel)⟩,
    ⟨⟨[], fxJoin false 2⟩, 1, met inferInstance (by decide +kernel)⟩,
    ⟨⟨[], fxJoining 1 5⟩, (⟨7, 6, none, true⟩), met inferInstance (by decide +kernel)⟩,
    ⟨⟨[], fxForming true⟩, (⟨7, 5, none, true⟩), met inferInstance (by decide +kernel)⟩,
    ⟨⟨[], fxJoining 1 5⟩, (⟨7, 5, none, true⟩), met inferInstance (by decide +kernel)⟩,
    ⟨⟨[], fxJoining 1 100000000000⟩, met inferInstance (by decide +kernel)⟩,
    ⟨⟨[], fxJoining 1 5⟩, met inferInstance (by decide +kernel)⟩,
    ⟨⟨[], fxRope false false⟩, 2, met inferInstance (by decide +kernel)⟩,
    ⟨⟨[], fxRope true false⟩, 2, met inferInstance (by decide +kernel)⟩,
    ⟨⟨[], fxRope true false⟩, (4 + 8 * 65536), met inferInstance (by decide +kernel)⟩,
    ⟨⟨[], fxDone⟩, (4 + 8 * 65536), met inferInstance (by decide +kernel)⟩⟩

/-- The premises of HealthEvaluations are met. -/
theorem witness_HealthEvaluations :
    (∃ s : State, s.awake ∧ s.block.Canonical ∧ s.block.CanonicalParts ∧ s.block.pageState pHlt = 2 ∧ s.block.health.lastAt +
     s.block.evalPeriod ≤ s.block.meter ∧ (∀ (n : Nat), n < 5 → s.block.fld pHlt 264 n 1 = 0)) ∧
    (∃ s : State, s.awake ∧ s.block.Canonical ∧ s.block.CanonicalParts ∧ s.block.meter < s.block.health.lastAt +
     s.block.evalPeriod) ∧
    (∃ s : State, ∃ v : BitVec 32, s.open_ ∧ s.block.Canonical ∧ s.block.CanonicalParts ∧ v.getLsbD 0 = true ∧ v.getLsbD 1 =
     false) ∧
    (∃ s : State, ∃ v : BitVec 32, s.open_ ∧ s.block.Canonical ∧ s.block.CanonicalParts ∧ v.getLsbD 0 = false ∧ v.getLsbD 1 =
     true ∧ ∃ (p : PageRef), pageOfCode (nbits v.toNat 16 5) (nbits v.toNat 21 9) = some p ∧ (s.block.bandRec p).forced = true)
     ∧
    (∃ s : State, ∃ v : BitVec 32, s.open_ ∧ s.block.Canonical ∧ s.block.CanonicalParts ∧ v.getLsbD 0 = false ∧ v.getLsbD 1 =
     true ∧ ∃ (p : PageRef), pageOfCode (nbits v.toNat 16 5) (nbits v.toNat 21 9) = some p ∧ (s.block.bandRec p).forced = false)
     :=
  ⟨⟨⟨[], fxHealth 33554432000 1000000000⟩, met inferInstance (by decide +kernel)⟩,
    ⟨⟨[], fxDone⟩, met inferInstance (by decide +kernel)⟩,
    ⟨⟨[], fxDone⟩, 1, met inferInstance (by decide +kernel)⟩,
    ⟨⟨[], fxForced true⟩, (2 + 4 * 65536 + 2 * 2 ^ 21), met inferInstance (by decide +kernel)⟩,
    ⟨⟨[], fxDone⟩, (2 + 4 * 65536 + 2 * 2 ^ 21), met inferInstance (by decide +kernel)⟩⟩

/-- The premises of UpdatesRun are met. -/
theorem witness_UpdatesRun :
    (∃ s : Block, ∃ q : List Instr, ∃ id : Nat, ∃ rs : List PeerReply, ∃ (e : UpdKind × Nat × Instr), e ∈ [(UpdKind.insert, 32,
     Instr.insert id rs), (UpdKind.delete, 33, Instr.delete id rs), (UpdKind.upsert, 34, Instr.upsert id rs)] ∧ ∃ (c : Cmd) (b :
     Block), Handed { pending := q, block := s } id e.snd.fst [0] c b ∧ ∃ (h : UpdHeader), h = updHeader e.fst (b.readInput c 0
     64) ∧ ∃ (recs : List UpdRec), recs = readRecords b c e.fst h ∧ updCheck b c e.fst h recs = none ∧ (∀ (p : Nat), p ∈
     b.places → b.placeReady p = true) ∧ (∀ (r : UpdRec), r ∈ recs → b.ownerOf c.object r.vid ∈ b.places)) ∧
    (∃ s : State, ∃ id : Nat, ∃ p : Nat, ∃ num : Nat, s.awake ∧ s.block.Canonical ∧ ∃ (c : Cmd), s.block.cmd id = some c ∧
     c.phase = Phase.working ∧ ∃ (u : Update), s.block.updateOf id = some u ∧ u.waiting = [p] ∧ p ≠ s.block.place ∧ ∃ (e : Nat ×
     Instr), e ∈ [(32, Instr.insert id [{ place := p, status := 0, num := num, data := [] }]), (33, Instr.delete id
     [{ place := p, status := 0, num := num, data := [] }]), (34, Instr.upsert id
     [{ place := p, status := 0, num := num, data := [] }])] ∧ c.opcode = e.fst ∧ u.step = UpdStep.durable) ∧
    (∃ s : State, ∃ id : Nat, ∃ p : Nat, ∃ num : Nat, s.awake ∧ s.block.Canonical ∧ ∃ (c : Cmd), s.block.cmd id = some c ∧
     c.phase = Phase.working ∧ ∃ (u : Update), s.block.updateOf id = some u ∧ u.waiting = [p] ∧ p ≠ s.block.place ∧ ∃ (e : Nat ×
     Instr), e ∈ [(32, Instr.insert id [{ place := p, status := 0, num := num, data := [] }]), (33, Instr.delete id
     [{ place := p, status := 0, num := num, data := [] }]), (34, Instr.upsert id
     [{ place := p, status := 0, num := num, data := [] }])] ∧ c.opcode = e.fst ∧ u.step = UpdStep.cairn) ∧
    (∃ s : State, ∃ id : Nat, ∃ p : Nat, ∃ num : Nat, s.awake ∧ s.block.Canonical ∧ ∃ (c : Cmd), s.block.cmd id = some c ∧
     c.phase = Phase.working ∧ ∃ (u : Update), s.block.updateOf id = some u ∧ u.waiting = [p] ∧ p ≠ s.block.place ∧ ∃ (e : Nat ×
     Instr), e ∈ [(32, Instr.insert id [{ place := p, status := 0, num := num, data := [] }]), (33, Instr.delete id
     [{ place := p, status := 0, num := num, data := [] }]), (34, Instr.upsert id
     [{ place := p, status := 0, num := num, data := [] }])] ∧ c.opcode = e.fst ∧ u.step = UpdStep.record) ∧
    (∃ s : State, ∃ id : Nat, ∃ p : Nat, ∃ num : Nat, s.awake ∧ s.block.Canonical ∧ ∃ (c : Cmd), s.block.cmd id = some c ∧
     c.phase = Phase.working ∧ ∃ (u : Update), s.block.updateOf id = some u ∧ u.waiting = [p] ∧ p ≠ s.block.place ∧ ∃ (e : Nat ×
     Instr), e ∈ [(32, Instr.insert id [{ place := p, status := 0, num := num, data := [] }]), (33, Instr.delete id
     [{ place := p, status := 0, num := num, data := [] }]), (34, Instr.upsert id
     [{ place := p, status := 0, num := num, data := [] }])] ∧ c.opcode = e.fst ∧ u.step = UpdStep.confirm) :=
  ⟨⟨(fxUpdCmd 0x20 (fxRecords false)), [], 0, ([]), met inferInstance (by decide +kernel)⟩,
    ⟨⟨[], fxUpdating 0x20 .insert .durable 1⟩, 0, 1, 0, met inferInstance (by decide +kernel)⟩,
    ⟨⟨[], fxUpdating 0x21 .delete .cairn 1⟩, 0, 1, 0, met inferInstance (by decide +kernel)⟩,
    ⟨⟨[], fxUpdating 0x20 .insert .record 2⟩, 0, 1, 0, met inferInstance (by decide +kernel)⟩,
    ⟨⟨[], fxUpdating 0x20 .insert .confirm 1⟩, 0, 1, 0, met inferInstance (by decide +kernel)⟩⟩

/-- The premises of OwnersAndLogs are met. -/
theorem witness_OwnersAndLogs :
    (∃ s : State, ∃ m : OwnerMsg, s.awake ∧ s.block.Canonical ∧ Quiet s.block pIdx ∧ ∃ (x : Index), x = s.block.index ↑m.index ∧
     m.records ≠ [] ∧ m.fromPlace ≠ s.block.place ∧ (∀ (g : OwnerGroup), g ∈ x.groups → ¬(g.fromPlace = m.fromPlace ∧ g.tag =
     m.tag)) ∧ x.versions = [] ∧ m.kind ≠ UpdKind.delete ∧ x.side.length + m.records.length ≤ 16777216 ∧ x.tombs.length +
     m.records.length ≤ 16777216 ∧ s.block.running pIdx = true) ∧
    (∃ (s : State) (m : OwnerMsg) (x : Index), s.awake ∧ s.block.Canonical ∧ Quiet s.block pIdx ∧ x = s.block.index m.index.val
     ∧ m.records ≠ [] ∧ m.fromPlace ≠ s.block.place ∧ (∀ g ∈ x.groups, ¬(g.fromPlace = m.fromPlace ∧ g.tag = m.tag)) ∧
     s.block.running pIdx = true ∧ (m.kind = .insert ∧ 16777216 < x.side.length + m.records.length)) ∧
    (∃ s : State, ∃ m : OwnerMsg, s.awake ∧ s.block.Canonical ∧ Quiet s.block pIdx ∧ ∃ (x : Index), x = s.block.index ↑m.index ∧
     m.records ≠ [] ∧ m.fromPlace ≠ s.block.place ∧ (∀ (g : OwnerGroup), g ∈ x.groups → ¬(g.fromPlace = m.fromPlace ∧ g.tag =
     m.tag)) ∧ s.block.running pIdx = true ∧ x.side.length + m.records.length ≤ 16777216 ∧ x.tombs.length + m.records.length ≤
     16777216 ∧ s.block.joined = true ∧ s.block.noWrites = false ∧ (m.kind = UpdKind.delete ∨ x.versions ≠ [])) ∧
    (∃ s : State, ∃ ix : Fin 16, s.awake ∧ s.block.Canonical ∧ ∃ (p : LogPage), List.find? (fun p => decide (p.number + 1 =
     (s.block.index ↑ix).nextPage) && decide (0 < p.bytes)) (s.block.index ↑ix).logPages = some p ∧ p.since + 2000 ≤
     s.block.meter) ∧
    (∃ s : State, ∃ ix : Fin 16, s.awake ∧ s.block.Canonical ∧ ∃ (p : LogPage), List.find? (fun p => decide (p.number + 1 =
     (s.block.index ↑ix).nextPage) && decide (0 < p.bytes)) (s.block.index ↑ix).logPages = some p ∧ s.block.meter < p.since +
     2000) ∧
    (∃ s : State, ∃ p : Nat, s.awake ∧ s.block.joined = true ∧ p ≠ s.block.place) ∧
    (∃ s : State, s.awake ∧ s.block.joined = false) :=
  ⟨⟨⟨[], fxOwner⟩, fxOwnerMsg .insert [⟨5, [], [1, 1]⟩], met inferInstance (by decide +kernel)⟩,
    side_many 16777216 (Nat.le_refl _),
    ⟨⟨[], fxIndex (fxLogPage 5)⟩, (fxOwnerMsg .insert [⟨5, [], [1,1]⟩]), met inferInstance (by decide +kernel)⟩,
    ⟨⟨[], fxIndex (fxLogPage 5)⟩, 0, met inferInstance (by decide +kernel)⟩,
    ⟨⟨[], { fxIndex (fxLogPage 5) with meter := 99999 }⟩, 0, met inferInstance (by decide +kernel)⟩,
    ⟨⟨[], fxOwner⟩, 0, met inferInstance (by decide +kernel)⟩,
    ⟨⟨[], fxDone⟩, met inferInstance (by decide +kernel)⟩⟩

/-- The premises of CairnsAdvance are met. -/
theorem witness_CairnsAdvance :
    (∃ s : State, ∃ ix : Fin 16, ∃ p : Nat, ∃ tag : Nat, s.awake ∧ s.block.Canonical ∧ ∃ (x : Index), x = s.block.index ↑ix ∧
     x.keeper = s.block.place ∧ s.block.placeReady s.block.place = true ∧ p ≠ s.block.place ∧ s.block.running pIdx = true ∧ (∀
     (o : OpenCairn), o ∈ x.opened → ¬(o.place = p ∧ o.tag = tag)) ∧ x.exhausted = false) ∧
    (∃ s : State, ∃ ix : Fin 16, ∃ p : Nat, ∃ tag : Nat, s.awake ∧ s.block.Canonical ∧ ∃ (x : Index), x = s.block.index ↑ix ∧
     x.keeper = s.block.place ∧ s.block.placeReady s.block.place = true ∧ p ≠ s.block.place ∧ s.block.running pIdx = true ∧ (∀
     (o : OpenCairn), o ∈ x.opened → ¬(o.place = p ∧ o.tag = tag)) ∧ x.exhausted = true) ∧
    (∃ s : State, ∃ ix : Fin 16, ∃ c : BitVec 48, s.awake ∧ s.block.Canonical ∧ ∃ (x : Index), x = s.block.index ↑ix ∧ x.keeper
     = s.block.place ∧ s.block.placeReady s.block.place = true ∧ ∃ (o : OpenCairn), List.find? (fun o => decide (o.cairn =
     c.toNat)) x.opened = some o ∧ o.place ≠ s.block.place) ∧
    (∃ s : State, ∃ ix : Fin 16, ∃ c : BitVec 48, s.awake ∧ s.block.Canonical ∧ ∃ (x : Index), x = s.block.index ↑ix ∧ x.keeper
     = s.block.place ∧ (∃ o, o ∈ x.opened ∧ o.cairn = c.toNat)) ∧
    (∃ s : State, ∃ ix : Fin 16, ∃ c : BitVec 48, s.awake ∧ s.block.Canonical ∧ ∃ (x : Index), x = s.block.index ↑ix ∧ (x.keeper
     ≠ s.block.place ∨ ∀ (o : OpenCairn), o ∈ x.opened → o.cairn ≠ c.toNat)) ∧
    (∃ s : State, ∃ ix : Fin 16, s.awake ∧ s.block.Canonical ∧ ∃ (x : Index), x = s.block.index ↑ix ∧ x.keeper = s.block.place ∧
     x.sentVc < x.visible ∧ (∀ (t : Nat), x.lastSend = some t → t + 100 * s.block.fld pIdx 260 0 16 ≤ s.block.meter)) ∧
    (∃ s : State, ∃ ix : Fin 16, s.awake ∧ s.block.Canonical ∧ ∃ (x : Index), x = s.block.index ↑ix ∧ x.visible ≤ x.sentVc) ∧
    (∃ s : State, ∃ ix : Fin 16, s.awake ∧ s.block.Canonical ∧ ∃ (x : Index), x = s.block.index ↑ix ∧ x.keeper ≠ s.block.place)
     ∧
    (∃ s : State, ∃ ix : Fin 16, s.awake ∧ s.block.Canonical ∧ ∃ (x : Index), x = s.block.index ↑ix ∧ x.keeper = s.block.place)
     ∧
    (∃ s : State, ∃ m : CairnMsg, s.awake ∧ s.block.Canonical ∧ ∃ (ix : Fin 16), m.index = ix ∧ ∃ (x : Index), x = s.block.index
     ↑ix ∧ m.fromPlace ≠ s.block.place ∧ (m.deleted = [] ∨ s.block.indexMoving ↑ix = none) ∧ s.block.running pIdx = true ∧
     (¬m.cairn.toNat ∈ x.voids)) :=
  ⟨⟨⟨[], fxIndex (fxKeeper 2 6)⟩, 0, 0, 0, met inferInstance (by decide +kernel)⟩,
    ⟨⟨[], fxIndex (fxKeeper 2 0xFFFFFFFFFFFE)⟩, 0, 0, 0, met inferInstance (by decide +kernel)⟩,
    ⟨⟨[], fxIndex (fxKeeper 2 6)⟩, 0, 5, met inferInstance (by decide +kernel)⟩,
    ⟨⟨[], fxIndex (fxKeeper 2 6)⟩, 0, 5, met inferInstance (by decide +kernel)⟩,
    ⟨⟨[], fxDone⟩, 0, 5, met inferInstance (by decide +kernel)⟩,
    ⟨⟨[], fxIndex (fxKeeper 2 6)⟩, 0, met inferInstance (by decide +kernel)⟩,
    ⟨⟨[], fxDone⟩, 0, met inferInstance (by decide +kernel)⟩,
    ⟨⟨[], fxIndex (fxKeeper 1 6)⟩, 0, met inferInstance (by decide +kernel)⟩,
    ⟨⟨[], fxDone⟩, 0, met inferInstance (by decide +kernel)⟩,
    ⟨⟨[], fxIndex (fxKeeper 2 6)⟩, (fxCairnMsg []), met inferInstance (by decide +kernel)⟩⟩

/-- The premises of VersionsComeAndGo are met. -/
theorem witness_VersionsComeAndGo :
    (∃ s : Block, ∃ q : List Instr, ∃ id : Nat, ∃ (c : Cmd) (b : Block), Handed { pending := q, block := s } id 37 [0] c b ∧ ∃
     (m : Bytes), m = b.readInput c 0 c.pay.len ∧ b.noWrites = false ∧ Quiet s pIdx) ∧
    (∃ s : State, ∃ ix : Fin 16, ∃ ver : BitVec 32, s.awake ∧ s.block.Canonical ∧ ∃ (v : Version), (s.block.index ↑ix).version
     ver.toNat = some v ∧ v.state = VState.mounting ∧ (s.block.takeInjected pIdx 16).fst = false ∧ s.block.homeSealed
     ZoneOwner.index (↑ix) ver.toNat = true ∧ (∃ t, t ∈ v.tiles ∧ tileOk t.snd = false) ∧ v.cmd = none) ∧
    (∃ s : State, ∃ ix : Fin 16, ∃ ver : BitVec 32, s.awake ∧ s.block.Canonical ∧ ∃ (v : Version), (s.block.index ↑ix).version
     ver.toNat = some v ∧ v.state = VState.mounting ∧ (s.block.takeInjected pIdx 16).fst = false ∧ s.block.homeSealed
     ZoneOwner.index (↑ix) ver.toNat = true ∧ v.tiles.length = v.root.tiles ∧ (∀ (t : Nat × Bytes), t ∈ v.tiles → tileOk t.snd =
     true) ∧ (∀ (e : DirEntry), e ∈ directory v.tiles v.root → slotsOk (readPart v.tiles v.root e) = true) ∧ (∀ (n : Nat), n <
     v.root.partitions → (readNode v.tiles v.root n).snd = true) ∧ ascending (fun x y => decide (x < y)) (List.map (fun x =>
     x.part) (directory v.tiles v.root)) = true ∧ (s.block.index ↑ix).codebooksDiffer v.tiles v.root = false ∧ (∀ (id : Nat),
     v.cmd = some id → s.block.passed ((s.block.cmd id).bind fun x => x.deadline) = false)) ∧
    (∃ s : State, ∃ ix : Fin 16, ∃ ver : BitVec 32, s.awake ∧ s.block.Canonical ∧ ∃ (v : Version), (s.block.index ↑ix).version
     ver.toNat = some v ∧ v.state = VState.mounting ∧ (s.block.takeInjected pIdx 16).fst = false ∧ s.block.homeSealed
     ZoneOwner.index (↑ix) ver.toNat = false) ∧
    (∃ s : Block, ∃ q : List Instr, ∃ id : Nat, ∃ rs : List PeerReply, ∃ (e : Nat × Instr), e ∈ [(36, Instr.indexSwitch
     (CmdPart.own id rs)), (38, Instr.indexRetire (CmdPart.own id rs))] ∧ ∃ (c : Cmd) (b : Block), Handed ⟨q, s⟩ id e.fst [0] c
     b ∧ c.payValid = false ∧ c.resValid = false ∧ c.param (if e.fst = 38 then 32 else 65) (if e.fst = 38 then 96 else 63) = 0 ∧
     c.object < 16 ∧ ∃ (x : Index), x = b.index c.object ∧ ∃ (r : SwitchRun), r =
     { cmd := some id, fromPlace := b.place, tag := id, index := c.object, version := c.param 0 32, retire := decide (e.fst = 38), expect := c.param 32 32, first := decide (c.param 64 1 = 1), deadline := c.deadline }
     ∧ x.keeper = b.place ∧ b.placeReady b.place = true ∧ (∀ (y : SwitchRun), y ∈ b.switching → y.index ≠ c.object) ∧ x.asks =
     [] ∧ x.switchStale r = false ∧ b.others = [] ∧ e.fst = 36) ∧
    (∃ s : Block, ∃ q : List Instr, ∃ id : Nat, ∃ rs : List PeerReply, ∃ (e : Nat × Instr), e ∈ [(36, Instr.indexSwitch
     (CmdPart.own id rs)), (38, Instr.indexRetire (CmdPart.own id rs))] ∧ ∃ (c : Cmd) (b : Block), Handed ⟨q, s⟩ id e.fst [0] c
     b ∧ c.payValid = false ∧ c.resValid = false ∧ c.param (if e.fst = 38 then 32 else 65) (if e.fst = 38 then 96 else 63) = 0 ∧
     c.object < 16 ∧ ∃ (x : Index), x = b.index c.object ∧ ∃ (r : SwitchRun), r =
     { cmd := some id, fromPlace := b.place, tag := id, index := c.object, version := c.param 0 32, retire := decide (e.fst = 38), expect := c.param 32 32, first := decide (c.param 64 1 = 1), deadline := c.deadline }
     ∧ x.keeper = b.place ∧ b.placeReady b.place = true ∧ (∀ (y : SwitchRun), y ∈ b.switching → y.index ≠ c.object) ∧ x.asks =
     [] ∧ x.switchStale r = false ∧ b.others = [] ∧ e.fst = 38) ∧
    (∃ s : Block, ∃ q : List Instr, ∃ id : Nat, ∃ rs : List PeerReply, ∃ (e : Nat × Instr), e ∈ [(36, Instr.indexSwitch
     (CmdPart.own id rs)), (38, Instr.indexRetire (CmdPart.own id rs))] ∧ ∃ (c : Cmd) (b : Block), Handed ⟨q, s⟩ id e.fst [0] c
     b ∧ c.payValid = false ∧ c.resValid = false ∧ c.param (if e.fst = 38 then 32 else 65) (if e.fst = 38 then 96 else 63) = 0 ∧
     c.object < 16 ∧ ∃ (x : Index), x = b.index c.object ∧ ∃ (r : SwitchRun), r =
     { cmd := some id, fromPlace := b.place, tag := id, index := c.object, version := c.param 0 32, retire := decide (e.fst = 38), expect := c.param 32 32, first := decide (c.param 64 1 = 1), deadline := c.deadline }
     ∧ x.keeper = b.place ∧ b.placeReady b.place = true ∧ (∀ (y : SwitchRun), y ∈ b.switching → y.index ≠ c.object) ∧ x.asks =
     [] ∧ x.switchStale r = false ∧ b.others ≠ []) ∧
    (∃ s : Block, ∃ q : List Instr, ∃ id : Nat, ∃ rs : List PeerReply, ∃ (e : Nat × Instr), e ∈ [(36, Instr.indexSwitch
     (CmdPart.own id rs)), (38, Instr.indexRetire (CmdPart.own id rs))] ∧ ∃ (c : Cmd) (b : Block), Handed
     { pending := q, block := s } id e.fst [0] c b ∧ c.payValid = false ∧ c.resValid = false ∧ (c.param (if e.fst = 38 then 32
     else 65) (if e.fst = 38 then 96 else 63) = 0) ∧ c.object < 16 ∧ ∃ (x : Index), x = b.index c.object ∧ ∃ (r : SwitchRun), r
     =
     { cmd := some id, fromPlace := b.place, tag := id, index := c.object, version := c.param 0 32, retire := decide (e.fst = 38), expect := c.param 32 32, first := decide (c.param 64 1 = 1), deadline := c.deadline }
     ∧ x.keeper ≠ b.place ∧ x.high ≠ 0) ∧
    (∃ s : State, ∃ id : Nat, ∃ rs : List PeerReply, s.awake ∧ s.block.Canonical ∧ ∃ (c : Cmd), s.block.cmd id = some c ∧
     c.phase = Phase.working ∧ c.opcode = 36 ∧ (s.block.index c.object).keeper = s.block.place ∧ ∃ (r : SwitchRun), r ∈
     s.block.switching ∧ (∀ (y : SwitchRun), y ∈ s.block.switching → y.cmd = some id → y = r) ∧ r.cmd = some id ∧ r.index =
     c.object ∧ r.retire = false ∧ (∀ (p : Nat), p ∈ r.waiting → ∃ y, y ∈ rs ∧ y.place = p) ∧ (∀ (y : PeerReply), y ∈ rs →
     y.status = 0#8) ∧ ∃ (v : Version), (s.block.index c.object).version r.version = some v ∧ r.checking = true ∧ s.block.others
     ≠ []) ∧
    (∃ s : State, ∃ id : Nat, ∃ rs : List PeerReply, s.awake ∧ s.block.Canonical ∧ ∃ (c : Cmd), s.block.cmd id = some c ∧
     c.phase = Phase.working ∧ c.opcode = 36 ∧ (s.block.index c.object).keeper = s.block.place ∧ ∃ (r : SwitchRun), r ∈
     s.block.switching ∧ (∀ (y : SwitchRun), y ∈ s.block.switching → y.cmd = some id → y = r) ∧ r.cmd = some id ∧ r.index =
     c.object ∧ r.retire = false ∧ (∀ (p : Nat), p ∈ r.waiting → ∃ y, y ∈ rs ∧ y.place = p) ∧ (∀ (y : PeerReply), y ∈ rs →
     y.status = 0#8) ∧ ∃ (v : Version), (s.block.index c.object).version r.version = some v ∧ r.checking = false) ∧
    (∃ s : State, ∃ o : PeerOrder, s.awake ∧ s.block.Canonical ∧ nbits o.params 127 1 = 0 ∧ s.block.running pIdx = true ∧
     (s.block.index o.object).keeper ≠ s.block.place ∧ ∃ (v : Version), (s.block.index o.object).version o.version = some v ∧
     v.state = VState.mounted ∧ nbits o.params 126 1 = 0) ∧
    (∃ s : State, ∃ o : PeerOrder, s.awake ∧ s.block.Canonical ∧ nbits o.params 127 1 = 0 ∧ s.block.running pIdx = true ∧
     (s.block.index o.object).keeper ≠ s.block.place ∧ ∃ (v : Version), (s.block.index o.object).version o.version = some v ∧
     v.state = VState.mounted ∧ nbits o.params 126 1 = 1) ∧
    (∃ s : Block, ∃ q : List Instr, ∃ id : Nat, ∃ rs : List PeerReply, ∃ (c : Cmd) (b : Block), Handed
     { pending := q, block := s } id 35 [0] c b ∧ consolidateCheck b c = none ∧ b.noWrites = false ∧ ∃ (cut : Nat), (cut = if
     c.param 64 48 = 0 then (b.index c.object).localVc else c.param 64 48) ∧ ∃ (v : Version), (b.index c.object).version
     (c.param 32 32) = some v ∧ ∃ (r : Root) (ts : List Bytes), buildVersion (b.index c.object) v (c.param 0 32) cut
     (List.flatMap (fun p => readSideRecords v.root p.data) rs) = Except.ok (r, ts) ∧ b.overLimits c.object (directory (numbered
     ts) r) = false ∧ b.baseLost v = false) :=
  ⟨⟨(fxSwitch 0x25 3 2 true), [], 0, met inferInstance (by decide +kernel)⟩,
    ⟨⟨[], fxMounting true true⟩, 0, 2, met inferInstance (by decide +kernel)⟩,
    ⟨⟨[], fxMounting false true⟩, 0, 2, met inferInstance (by decide +kernel)⟩,
    ⟨⟨[], fxMounting false false⟩, 0, 2, met inferInstance (by decide +kernel)⟩,
    ⟨(fxSwitch 0x24 (2 + 2 ^ 32) 0 false), [], 0, ([]), (36, .indexSwitch (.own 0 [])), met inferInstance (by decide +kernel)⟩,
    ⟨(fxSwitch 0x26 2 0 false), [], 0, ([]), (38, .indexRetire (.own 0 [])), met inferInstance (by decide +kernel)⟩,
    ⟨(fxSwitch 0x24 (2 + 2 ^ 32) 2 true), [], 0, ([]), (36, .indexSwitch (.own 0 [])), met inferInstance (by decide +kernel)⟩,
    ⟨(fxSwitch 0x24 (2 + 2 ^ 32) 1 true), [], 0, ([]), met inferInstance (by decide +kernel)⟩,
    ⟨⟨[], fxSwitching true⟩, 0, [⟨0, 0, 0, []⟩, ⟨1, 0, 0, []⟩], met inferInstance (by decide +kernel)⟩,
    ⟨⟨[], fxSwitching false⟩, 0, [⟨0, 0, 0, []⟩, ⟨1, 0, 0, []⟩], met inferInstance (by decide +kernel)⟩,
    ⟨⟨[], fxSwitch 0x24 (2 + 2 ^ 32) 1 true⟩, (fxOrder 2 0), met inferInstance (by decide +kernel)⟩,
    ⟨⟨[], fxSwitch 0x24 (2 + 2 ^ 32) 1 true⟩, (fxOrder 2 (2 ^ 126)), met inferInstance (by decide +kernel)⟩,
    ⟨fxCons, [], 0, ([]), met inferInstance (by decide +kernel)⟩⟩

/-- The premises of RowsGathered are met. -/
theorem witness_RowsGathered :
    (∃ s : Block, ∃ q : List Instr, ∃ id : Nat, ∃ pf : Bool, ∃ (c : Cmd) (b : Block), (Handed { pending := q, block := s } id
     (if pf = true then 52 else 48) [0, 1] c b) ∧ ∃ (rows : List Nat), rows = List.map (fun i => le (b.readInput c (4 * i) 4) 0
     4) (List.range (c.param 32 17)) ∧ gatherCheck b c pf rows = none ∧ ∃ (t : Table), b.tableOf c.object = some t ∧ ∃ (v :
     Nat), (v = if c.param 0 32 = 0 then t.current else c.param 0 32) ∧ (∀ (g : Gather), g ∈ b.gathers → g.cmd ≠ id) ∧ (∀ (x :
     Nat), x ∈ rows → List.length (t.row v x) = t.rowBytes) ∧ (∀ (x : Nat), x ∈ rows → (b.movingOut fun i => decide (i =
     ItemRef.rowBlock c.object (rowBlock x))) = none) ∧ (∀ (x : Nat), x ∈ rows → b.holdsRow c.object x = true → b.rowLost t v x
     = false) ∧ (∀ (x : Nat), x ∈ rows → b.placeReady (b.blockOwner c.object (rowBlock x)) = false) ∧ rows ≠ []) ∧
    (∃ s : Block, ∃ q : List Instr, ∃ id : Nat, ∃ pf : Bool, ∃ (c : Cmd) (b : Block), (Handed { pending := q, block := s } id
     (if pf = true then 52 else 48) [0, 1] c b) ∧ ∃ (rows : List Nat), rows = List.map (fun i => le (b.readInput c (4 * i) 4) 0
     4) (List.range (c.param 32 17)) ∧ gatherCheck b c pf rows = none ∧ ∃ (t : Table), b.tableOf c.object = some t ∧ ∃ (v :
     Nat), (v = if c.param 0 32 = 0 then t.current else c.param 0 32) ∧ (∀ (g : Gather), g ∈ b.gathers → g.cmd ≠ id) ∧ (∀ (x :
     Nat), x ∈ rows → List.length (t.row v x) = t.rowBytes) ∧ (∀ (x : Nat), x ∈ rows → (b.movingOut fun i => decide (i =
     ItemRef.rowBlock c.object (rowBlock x))) = none) ∧ (∀ (x : Nat), x ∈ rows → b.holdsRow c.object x = true → b.rowLost t v x
     = false) ∧ (∀ (x : Nat), x ∈ rows → b.placeReady (b.blockOwner c.object (rowBlock x)) = true) ∧ (∃ x, x ∈ rows ∧ b.holdsRow
     c.object x = false)) ∧
    (∃ s : Block, ∃ q : List Instr, ∃ id : Nat, ∃ pf : Bool, ∃ (c : Cmd) (b : Block), (Handed { pending := q, block := s } id
     (if pf = true then 52 else 48) [0, 1] c b) ∧ ∃ (rows : List Nat), rows = List.map (fun i => le (b.readInput c (4 * i) 4) 0
     4) (List.range (c.param 32 17)) ∧ gatherCheck b c pf rows = none ∧ ∃ (t : Table), b.tableOf c.object = some t ∧ ∃ (v :
     Nat), (v = if c.param 0 32 = 0 then t.current else c.param 0 32) ∧ (∀ (g : Gather), g ∈ b.gathers → g.cmd ≠ id) ∧ (∀ (x :
     Nat), x ∈ rows → List.length (t.row v x) = t.rowBytes) ∧ (∀ (x : Nat), x ∈ rows → (b.movingOut fun i => decide (i =
     ItemRef.rowBlock c.object (rowBlock x))) = none) ∧ (∀ (x : Nat), x ∈ rows → b.holdsRow c.object x = true → b.rowLost t v x
     = false) ∧ (∀ (x : Nat), x ∈ rows → b.placeReady (b.blockOwner c.object (rowBlock x)) = true) ∧ (∀ (x : Nat), x ∈ rows →
     b.holdsRow c.object x = true)) ∧
    (∃ s : State, ∃ id : Nat, ∃ n : Nat, ∃ data : Bytes, s.awake ∧ s.block.Canonical ∧ ∃ (c : Cmd), s.block.cmd id = some c ∧
     c.phase = Phase.working ∧ ∃ (g : Gather), List.find? (fun g => decide (g.cmd = id)) s.block.gathers = some g ∧ ∃ (pf :
     Bool), g.prefetch = pf ∧ (c.opcode = if pf = true then 52 else 48) ∧ ∃ (t : Table), s.block.tableOf c.object = some t ∧ n ≠
     s.block.place ∧ ∃ (l : List Nat), (l = if pf = true then readNums data else List.map (fun x => x.fst) (readRows t.rowBytes
     data)) ∧ (∃ x, x ∈ g.left ∧ ¬x ∈ l)) ∧
    (∃ s : State, ∃ id : Nat, ∃ n : Nat, ∃ data : Bytes, s.awake ∧ s.block.Canonical ∧ ∃ (c : Cmd), s.block.cmd id = some c ∧
     c.phase = Phase.working ∧ ∃ (g : Gather), List.find? (fun g => decide (g.cmd = id)) s.block.gathers = some g ∧ ∃ (pf :
     Bool), g.prefetch = pf ∧ (c.opcode = if pf = true then 52 else 48) ∧ ∃ (t : Table), s.block.tableOf c.object = some t ∧ n ≠
     s.block.place ∧ ∃ (l : List Nat), (l = if pf = true then readNums data else List.map (fun x => x.fst) (readRows t.rowBytes
     data)) ∧ (∀ (x : Nat), x ∈ g.left → x ∈ l)) ∧
    (∃ s : State, ∃ id : Nat, ∃ n : Nat, ∃ st : Nat, ∃ data : Bytes, s.awake ∧ s.block.Canonical ∧ ∃ (c : Cmd), s.block.cmd id =
     some c ∧ c.phase = Phase.working ∧ ∃ (g : Gather), List.find? (fun g => decide (g.cmd = id)) s.block.gathers = some g ∧ ∃
     (pf : Bool), g.prefetch = pf ∧ (c.opcode = if pf = true then 52 else 48) ∧ ∃ (t : Table), s.block.tableOf c.object = some t
     ∧ n ≠ s.block.place ∧ 0 < st ∧ st < 256 ∧ (∀ (x : Nat), x ∈ g.left → x ∈ readNums data)) ∧
    (∃ s : State, ∃ id : Nat, ∃ n : Nat, ∃ st : Nat, ∃ data : Bytes, s.awake ∧ s.block.Canonical ∧ ∃ (c : Cmd), s.block.cmd id =
     some c ∧ c.phase = Phase.working ∧ ∃ (g : Gather), List.find? (fun g => decide (g.cmd = id)) s.block.gathers = some g ∧ ∃
     (pf : Bool), g.prefetch = pf ∧ (c.opcode = if pf = true then 52 else 48) ∧ ∃ (t : Table), s.block.tableOf c.object = some t
     ∧ n ≠ s.block.place ∧ 0 < st ∧ st < 256 ∧ (∃ x, x ∈ g.left ∧ ¬x ∈ readNums data)) ∧
    (∃ s : State, ∃ r : TableReq, s.awake ∧ s.block.Canonical ∧ Quiet s.block pTbl ∧ r.fromPlace ≠ s.block.place ∧
     s.block.tableOf r.table = none) ∧
    (∃ s : State, ∃ r : TableReq, s.awake ∧ s.block.Canonical ∧ Quiet s.block pTbl ∧ r.fromPlace ≠ s.block.place ∧ ∃ (t :
     Table), s.block.tableOf r.table = some t ∧ s.block.running pTbl = true ∧ (∃ v, v ∈ t.versions ∧ v.version = r.version) ∧ (∀
     (x : Nat), x ∈ r.rows → (s.block.movingOut fun i => decide (i = ItemRef.rowBlock r.table (rowBlock x))) = none) ∧ (∀ (x :
     Nat), x ∈ r.rows → s.block.holdsRow r.table x = true → s.block.rowLost t r.version x = false)) ∧
    (∃ s : State, ∃ n : Nat, s.awake ∧ ∃ (t : Table), s.block.tableOf n = some t ∧ True) :=
  ⟨⟨fxOwnerGone (fxTblCmd 0x30 3 (2 ^ 32) (toLe 256 4)), [], 0, false, met inferInstance (by decide +kernel)⟩,
    ⟨fxTblCmd 0x30 3 (2 * 2 ^ 32) (toLe 0 4 ++ toLe 256 4), [], 0, false, met inferInstance (by decide +kernel)⟩,
    ⟨(fxTblCmd 0x30 3 (2 ^ 32) (toLe 0 4)), [], 0, false, met inferInstance (by decide +kernel)⟩,
    ⟨⟨[], fxGather true⟩, 0, 0, ([]), met inferInstance (by decide +kernel)⟩,
    ⟨⟨[], fxGather true⟩, 0, 0, (toLe 256 4), met inferInstance (by decide +kernel)⟩,
    ⟨⟨[], fxGather true⟩, 0, 0, 1, toLe 256 4, met inferInstance (by decide +kernel)⟩,
    ⟨⟨[], fxGather true⟩, 0, 0, 1, [], met inferInstance (by decide +kernel)⟩,
    ⟨⟨[], fxDone⟩, (fxTblReq 1 false [0, 256]), met inferInstance (by decide +kernel)⟩,
    ⟨⟨[], fxTables fxTbl⟩, (fxTblReq 1 false [0, 256]), met inferInstance (by decide +kernel)⟩,
    ⟨⟨[], fxTables fxTbl⟩, 1, met inferInstance (by decide +kernel)⟩⟩

/-- The premises of ScattersCommit are met. -/
theorem witness_ScattersCommit :
    (∃ s : Block, ∃ q : List Instr, ∃ id : Nat, ∃ add : Bool, ∃ (c : Cmd) (b : Block), (Handed { pending := q, block := s } id
     (if add = true then 50 else 49) [0, 1] c b) ∧ ∃ (rows : List Nat), rows = List.map (fun i => le (b.readInput c (4 * i) 4) 0
     4) (List.range (c.param 32 17)) ∧ scatterCheck b c add rows = none ∧ ∃ (t : Table), b.tableOf c.object = some t ∧ (∀ (x :
     Nat), x ∈ rows → b.placeReady (b.blockOwner c.object (rowBlock x)) = true)) ∧
    (∃ s : State, ∃ id : Nat, ∃ n : Nat, ∃ num : Nat, ∃ add : Bool, ∃ data : Bytes, s.awake ∧ s.block.Canonical ∧ ∃ (c : Cmd),
     s.block.cmd id = some c ∧ c.phase = Phase.working ∧ (c.opcode = if add = true then 50 else 49) ∧ n ≠ s.block.place ∧ ∃ (x :
     Scatter), List.find? (fun x => decide (x.cmd = id)) s.block.scatters = some x ∧ x.failed = 0 ∧ ∃ (e : BitVec 8 × Scatter),
     e ∈ [(0,
     { cmd := x.cmd, table := x.table, step := x.step, records := x.records, owners := nub (snoc x.owners n), left := List.filter (fun k => !decide (k ∈ readNums data)) x.left, moved := x.moved, movedMap := x.movedMap, failed := x.failed }),
     (13,
     { cmd := x.cmd, table := x.table, step := x.step, records := x.records, owners := x.owners, left := x.left, moved := snoc x.moved (num % 2 ^ 24, num / 2 ^ 24 % 64), movedMap := num / 2 ^ 32, failed := x.failed })]
     ∧ True) ∧
    (∃ s : State, ∃ id : Nat, ∃ n : Nat, ∃ add : Bool, ∃ data : Bytes, s.awake ∧ s.block.Canonical ∧ ∃ (c : Cmd), s.block.cmd id
     = some c ∧ c.phase = Phase.working ∧ (c.opcode = if add = true then 50 else 49) ∧ n ≠ s.block.place ∧ ∃ (x : Scatter),
     List.find? (fun x => decide (x.cmd = id)) s.block.scatters = some x ∧ x.failed = 0 ∧ (∀ (k : Nat), k ∈ x.left → k ∈
     readNums data)) ∧
    (∃ s : State, ∃ id : Nat, ∃ n : Nat, ∃ add : Bool, ∃ data : Bytes, s.awake ∧ s.block.Canonical ∧ ∃ (c : Cmd), s.block.cmd id
     = some c ∧ c.phase = Phase.working ∧ (c.opcode = if add = true then 50 else 49) ∧ n ≠ s.block.place ∧ ∃ (x : Scatter),
     List.find? (fun x => decide (x.cmd = id)) s.block.scatters = some x ∧ x.failed = 0 ∧ (∃ k, k ∈ x.left ∧ ¬k ∈ readNums
     data)) ∧
    (∃ s : State, ∃ id : Nat, ∃ n : Nat, ∃ add : Bool, s.awake ∧ s.block.Canonical ∧ ∃ (c : Cmd), s.block.cmd id = some c ∧
     c.phase = Phase.working ∧ (c.opcode = if add = true then 50 else 49) ∧ n ≠ s.block.place ∧ ∃ (x : Scatter), List.find? (fun
     x => decide (x.cmd = id)) s.block.scatters = some x ∧ x.failed = 0 ∧ x.left ≠ []) ∧
    (∃ s : State, ∃ id : Nat, ∃ n : Nat, ∃ add : Bool, s.awake ∧ s.block.Canonical ∧ ∃ (c : Cmd), s.block.cmd id = some c ∧
     c.phase = Phase.working ∧ (c.opcode = if add = true then 50 else 49) ∧ n ≠ s.block.place ∧ ∃ (x : Scatter), List.find? (fun
     x => decide (x.cmd = id)) s.block.scatters = some x ∧ x.failed = 0 ∧ x.left = [] ∧ s.block.noWrites = false ∧
     s.block.passed c.deadline = false) ∧
    (∃ s : State, ∃ m : TentativeMsg, s.awake ∧ s.block.Canonical ∧ Quiet s.block pTbl ∧ m.fromPlace ≠ s.block.place ∧ m.records
     ≠ [] ∧ s.block.tableOf m.table = none) ∧
    (∃ s : State, ∃ m : TentativeMsg, s.awake ∧ s.block.Canonical ∧ Quiet s.block pTbl ∧ m.fromPlace ≠ s.block.place ∧ m.records
     ≠ [] ∧ ∃ (t : Table), s.block.tableOf m.table = some t ∧ (∀ (r : ScatterRec), r ∈ m.records → s.block.blockOwner m.table
     (rowBlock r.row) = s.block.place ∧ (s.block.movingOut fun i => decide (i = ItemRef.rowBlock m.table (rowBlock r.row))) =
     none) ∧ (t.dropping = true ∨ m.step ≠ t.openV)) ∧
    (∃ (s : State) (m : TentativeMsg) (t : Table), s.awake ∧ s.block.Canonical ∧ m.fromPlace ≠ s.block.place ∧ m.records ≠ [] ∧
     s.block.tableOf m.table = some t ∧ (∀ r ∈ m.records, s.block.blockOwner m.table (rowBlock r.row) = s.block.place ∧
     s.block.movingOut (fun i => decide (i = .rowBlock m.table (rowBlock r.row))) = none) ∧ t.dropping = false ∧ m.step =
     t.openV ∧ 16777216 < t.pending.length + m.records.length ∧ (∀ r ∈ m.records, ∀ p ∈ t.pending, ¬(p.step = m.step ∧
     p.item.origin = r.origin ∧ p.item.seq = r.seq ∧ p.item.pos = r.pos))) ∧
    (∃ s : State, ∃ m : TentativeMsg, s.awake ∧ s.block.Canonical ∧ Quiet s.block pTbl ∧ m.fromPlace ≠ s.block.place ∧ m.records
     ≠ [] ∧ ∃ (t : Table), s.block.tableOf m.table = some t ∧ (∀ (r : ScatterRec), r ∈ m.records → s.block.blockOwner m.table
     (rowBlock r.row) = s.block.place ∧ (s.block.movingOut fun i => decide (i = ItemRef.rowBlock m.table (rowBlock r.row))) =
     none) ∧ t.dropping = false ∧ m.step = t.openV ∧ t.pending.length + m.records.length ≤ 16777216 ∧ s.block.running pTbl =
     true ∧ s.block.joined = true ∧ s.block.noWrites = false) ∧
    (∃ s : State, ∃ m : TentativeMsg, s.awake ∧ s.block.Canonical ∧ Quiet s.block pTbl ∧ m.fromPlace ≠ s.block.place ∧ m.records
     = [] ∧ ∃ (t : Table), s.block.tableOf m.table = some t ∧ t.sealing = false) ∧
    (∃ s : State, ∃ m : TentativeMsg, s.awake ∧ s.block.Canonical ∧ Quiet s.block pTbl ∧ m.fromPlace ≠ s.block.place) :=
  ⟨⟨(fxTblCmd 0x31 2 (2 + 2 * 2 ^ 32) (toLe 0 4 ++ toLe 256 4)), [], 0, false, met inferInstance (by decide +kernel)⟩,
    ⟨⟨[], fxScatter true [1]⟩, 0, 0, 0, true, ([]), met inferInstance (by decide +kernel)⟩,
    ⟨⟨[], fxScatter true [1]⟩, 0, 0, true, toLe 1 4, met inferInstance (by decide +kernel)⟩,
    ⟨⟨[], fxScatter true [1]⟩, 0, 0, true, [], met inferInstance (by decide +kernel)⟩,
    ⟨⟨[], fxScatter true [1]⟩, 0, 0, true, met inferInstance (by decide +kernel)⟩,
    ⟨⟨[], fxScatter false []⟩, 0, 0, false, met inferInstance (by decide +kernel)⟩,
    ⟨⟨[], fxDone⟩, (fxTent [fxRec 5]), met inferInstance (by decide +kernel)⟩,
    ⟨⟨[], fxTables fxTbl⟩, { fxTent [fxRec 5] with step := 9 }, met inferInstance (by decide +kernel)⟩,
    pending_many 16777216 (Nat.le_refl _),
    ⟨⟨[], fxTables fxTbl⟩, (fxTent [fxRec 5]), met inferInstance (by decide +kernel)⟩,
    ⟨⟨[], fxTables fxTbl⟩, (fxTent []), met inferInstance (by decide +kernel)⟩,
    ⟨⟨[], fxDone⟩, (fxTent [fxRec 5]), met inferInstance (by decide +kernel)⟩⟩

/-- The premises of TablesSwitch are met. -/
theorem witness_TablesSwitch :
    (∃ s : Block, ∃ q : List Instr, ∃ id : Nat, ∃ a : TblAction, ∃ rs : List PeerReply, ∃ i : Instr, (a, i) ∈
     [(TblAction.publish, Instr.tblSwitchPublish (CmdPart.own id rs)), (TblAction.define, Instr.tblSwitchDefine (CmdPart.own id
     rs)), (TblAction.drop, Instr.tblSwitchDrop (CmdPart.own id rs))] ∧ Quiet s pTbl ∧ ∃ (c : Cmd) (b : Block), Handed
     { pending := q, block := s } id 51 [0, 1] c b ∧ c.param 32 2 = actionNumber a ∧ (switchCheck b c a (if c.payValid = true
     then b.readInput c 0 c.pay.len else []) = none) ∧ (∀ (r : TblSwitch), r ∈ b.tblSwitches → r.table ≠ c.object ∧ r.id <
     b.nextId) ∧ b.running pTbl = true ∧ a ≠ TblAction.define ∧ b.tableKeeper c.object ≠ b.place) ∧
    (∃ s : Block, ∃ q : List Instr, ∃ id : Nat, ∃ a : TblAction, ∃ rs : List PeerReply, ∃ i : Instr, (a, i) ∈
     [(TblAction.publish, Instr.tblSwitchPublish (CmdPart.own id rs)), (TblAction.define, Instr.tblSwitchDefine (CmdPart.own id
     rs)), (TblAction.drop, Instr.tblSwitchDrop (CmdPart.own id rs))] ∧ Quiet s pTbl ∧ ∃ (c : Cmd) (b : Block), Handed
     { pending := q, block := s } id 51 [0, 1] c b ∧ c.param 32 2 = actionNumber a ∧ (switchCheck b c a (if c.payValid = true
     then b.readInput c 0 c.pay.len else []) = none) ∧ (∀ (r : TblSwitch), r ∈ b.tblSwitches → r.table ≠ c.object ∧ r.id <
     b.nextId) ∧ b.running pTbl = true ∧ a ≠ TblAction.define ∧ ∃ (t : Table), b.tableOf c.object = some t ∧ t.keeper = b.place
     ∧ (t.dropping = true ∨ t.current ≠ c.param 0 32)) ∧
    (∃ s : Block, ∃ q : List Instr, ∃ id : Nat, ∃ rs : List PeerReply, ∃ i : Instr, ∃ (a : TblAction), a = TblAction.publish ∧
     (a, i) ∈ [(TblAction.publish, Instr.tblSwitchPublish (CmdPart.own id rs)), (TblAction.define, Instr.tblSwitchDefine
     (CmdPart.own id rs)), (TblAction.drop, Instr.tblSwitchDrop (CmdPart.own id rs))] ∧ Quiet s pTbl ∧ ∃ (c : Cmd) (b : Block),
     Handed { pending := q, block := s } id 51 [0, 1] c b ∧ c.param 32 2 = actionNumber a ∧ (switchCheck b c a (if c.payValid =
     true then b.readInput c 0 c.pay.len else []) = none) ∧ (∀ (r : TblSwitch), r ∈ b.tblSwitches → r.table ≠ c.object ∧ r.id <
     b.nextId) ∧ b.running pTbl = true ∧ ∃ (t : Table), b.tableOf c.object = some t ∧ t.keeper = b.place ∧ t.dropping = false ∧
     t.current = c.param 0 32 ∧ t.folded = none ∧ t.dropFor = none ∧ b.places = [b.place] ∧ b.placeReady b.place = true ∧
     b.tableCutover c.object = false ∧ (∀ (r : PendRec), r ∈ t.pending → r.step = t.current + 1 → r.committed = true ∧ b.rowLost
     t t.current r.item.row = false)) ∧
    (∃ s : Block, ∃ q : List Instr, ∃ id : Nat, ∃ rs : List PeerReply, ∃ i : Instr, ∃ (a : TblAction), a = TblAction.define ∧
     (a, i) ∈ [(TblAction.publish, Instr.tblSwitchPublish (CmdPart.own id rs)), (TblAction.define, Instr.tblSwitchDefine
     (CmdPart.own id rs)), (TblAction.drop, Instr.tblSwitchDrop (CmdPart.own id rs))] ∧ Quiet s pTbl ∧ ∃ (c : Cmd) (b : Block),
     Handed { pending := q, block := s } id 51 [0, 1] c b ∧ c.param 32 2 = actionNumber a ∧ (switchCheck b c a (if c.payValid =
     true then b.readInput c 0 c.pay.len else []) = none) ∧ (∀ (r : TblSwitch), r ∈ b.tblSwitches → r.table ≠ c.object ∧ r.id <
     b.nextId) ∧ b.running pTbl = true ∧ b.tableOf c.object = none ∧ b.tableKeeper c.object = b.place ∧ b.places = [b.place] ∧
     b.placeReady b.place = true ∧ b.homeSealed ZoneOwner.table c.object 1 = true ∧ (parseDef (b.readInput c 0
     c.pay.len)).extents = 0) ∧
    (∃ s : Block, ∃ q : List Instr, ∃ id : Nat, ∃ rs : List PeerReply, ∃ i : Instr, ∃ (a : TblAction), a = TblAction.drop ∧ (a,
     i) ∈ [(TblAction.publish, Instr.tblSwitchPublish (CmdPart.own id rs)), (TblAction.define, Instr.tblSwitchDefine
     (CmdPart.own id rs)), (TblAction.drop, Instr.tblSwitchDrop (CmdPart.own id rs))] ∧ Quiet s pTbl ∧ ∃ (c : Cmd) (b : Block),
     Handed { pending := q, block := s } id 51 [0, 1] c b ∧ c.param 32 2 = actionNumber a ∧ (switchCheck b c a (if c.payValid =
     true then b.readInput c 0 c.pay.len else []) = none) ∧ (∀ (r : TblSwitch), r ∈ b.tblSwitches → r.table ≠ c.object ∧ r.id <
     b.nextId) ∧ b.running pTbl = true ∧ ∃ (t : Table), b.tableOf c.object = some t ∧ t.keeper = b.place ∧ t.dropping = false ∧
     t.current = c.param 0 32 ∧ b.places = [b.place] ∧ b.placeReady b.place = true ∧ (∀ (x : Scatter), x ∈ b.scatters → (∀ (g :
     Gather), g ∈ b.gathers → g.cmd ≠ x.cmd) ∧ ∀ (y : Search), y ∈ b.qpl.searches → y.cmd ≠ x.cmd) ∧ b.tableBound c.object none
     = false) ∧
    (∃ s : Block, ∃ q : List Instr, ∃ id : Nat, ∃ rs : List PeerReply, ∃ i : Instr, ∃ (a : TblAction), a = TblAction.drop ∧ (a,
     i) ∈ [(TblAction.publish, Instr.tblSwitchPublish (CmdPart.own id rs)), (TblAction.define, Instr.tblSwitchDefine
     (CmdPart.own id rs)), (TblAction.drop, Instr.tblSwitchDrop (CmdPart.own id rs))] ∧ Quiet s pTbl ∧ ∃ (c : Cmd) (b : Block),
     Handed { pending := q, block := s } id 51 [0, 1] c b ∧ c.param 32 2 = actionNumber a ∧ (switchCheck b c a (if c.payValid =
     true then b.readInput c 0 c.pay.len else []) = none) ∧ (∀ (r : TblSwitch), r ∈ b.tblSwitches → r.table ≠ c.object ∧ r.id <
     b.nextId) ∧ b.running pTbl = true ∧ ∃ (t : Table), b.tableOf c.object = some t ∧ t.keeper = b.place ∧ t.dropping = false ∧
     t.current = c.param 0 32 ∧ b.places = [b.place] ∧ b.placeReady b.place = true ∧ (∀ (x : Scatter), x ∈ b.scatters → (∀ (g :
     Gather), g ∈ b.gathers → g.cmd ≠ x.cmd) ∧ ∀ (y : Search), y ∈ b.qpl.searches → y.cmd ≠ x.cmd) ∧ b.tableBound c.object none
     = true) ∧
    (∃ s : State, ∃ o : PeerOrder, ∃ a : TblAction, ∃ i : Instr, (a, i) ∈ [(TblAction.publish, Instr.tblSwitchPublish
     (CmdPart.order o)), (TblAction.define, Instr.tblSwitchDefine (CmdPart.order o)), (TblAction.drop, Instr.tblSwitchDrop
     (CmdPart.order o))] ∧ s.awake ∧ s.block.Canonical ∧ o.fromPlace ≠ s.block.place ∧ nbits o.params 127 1 = 1 ∧ ∃ (r :
     TblSwitch), List.find? (fun r => decide (r.table = o.object) && r.begun) s.block.tblSwitches = some r ∧ r.cmd = none ∧
     r.fromPlace ≠ s.block.place ∧ o.fromPlace ∈ r.left ∧ r.lost = false ∧ (∀ (x : TblSwitch), x ∈ s.block.tblSwitches → x.table
     = r.table → x.id = r.id) ∧ o.params % 256 ≠ 0) ∧
    (∃ s : State, ∃ o : PeerOrder, ∃ a : TblAction, ∃ i : Instr, (a, i) ∈ [(TblAction.publish, Instr.tblSwitchPublish
     (CmdPart.order o)), (TblAction.define, Instr.tblSwitchDefine (CmdPart.order o)), (TblAction.drop, Instr.tblSwitchDrop
     (CmdPart.order o))] ∧ s.awake ∧ s.block.Canonical ∧ o.fromPlace ≠ s.block.place ∧ nbits o.params 127 1 = 1 ∧ ∃ (r :
     TblSwitch), List.find? (fun r => decide (r.table = o.object) && r.begun) s.block.tblSwitches = some r ∧ r.cmd = none ∧
     r.fromPlace ≠ s.block.place ∧ o.fromPlace ∈ r.left ∧ r.lost = false ∧ (∀ (x : TblSwitch), x ∈ s.block.tblSwitches → x.table
     = r.table → x.id = r.id) ∧ o.params % 256 = 0 ∧ r.left = [o.fromPlace] ∧ r.swap = true ∧ r.action = TblAction.publish ∧ (∀
     (x : TblSwitch), x ∈ s.block.tblSwitches → x.id = r.id → x = r)) ∧
    (∃ s : State, ∃ o : PeerOrder, ∃ a : TblAction, ∃ i : Instr, (a, i) ∈ [(TblAction.publish, Instr.tblSwitchPublish
     (CmdPart.order o)), (TblAction.define, Instr.tblSwitchDefine (CmdPart.order o)), (TblAction.drop, Instr.tblSwitchDrop
     (CmdPart.order o))] ∧ s.awake ∧ s.block.Canonical ∧ o.fromPlace ≠ s.block.place ∧ nbits o.params 127 1 = 0 ∧ nbits o.params
     126 1 = 1 ∧ nbits o.params 40 1 = 1 ∧ ∃ (t : Table), s.block.tableOf o.object = some t ∧ t.sealing = true ∧ t.current =
     o.version ∧ t.dropFor = none) ∧
    (∃ s : State, ∃ o : PeerOrder, ∃ i : Instr, ∃ (a : TblAction), a = TblAction.publish ∧ (a, i) ∈ [(TblAction.publish,
     Instr.tblSwitchPublish (CmdPart.order o)), (TblAction.define, Instr.tblSwitchDefine (CmdPart.order o)), (TblAction.drop,
     Instr.tblSwitchDrop (CmdPart.order o))] ∧ s.awake ∧ s.block.Canonical ∧ o.fromPlace ≠ s.block.place ∧ nbits o.params 127 1
     = 0 ∧ nbits o.params 126 1 = 1 ∧ nbits o.params 40 1 = 0 ∧ ∃ (t : Table), s.block.tableOf o.object = some t ∧ t.current ≠
     o.version ∧ t.current ≠ o.version + 1) ∧
    (∃ s : State, ∃ o : PeerOrder, ∃ a : TblAction, ∃ i : Instr, (a, i) ∈ [(TblAction.publish, Instr.tblSwitchPublish
     (CmdPart.order o)), (TblAction.define, Instr.tblSwitchDefine (CmdPart.order o)), (TblAction.drop, Instr.tblSwitchDrop
     (CmdPart.order o))] ∧ s.awake ∧ s.block.Canonical ∧ o.fromPlace ≠ s.block.place ∧ nbits o.params 127 1 = 0 ∧ nbits o.params
     126 1 = 0 ∧ nbits o.params 125 1 = 1 ∧ ∃ (t : Table), s.block.tableOf o.object = some t ∧ nbits o.params 24 2 < 2 ∧ ∃ (l :
     List (Nat × Bytes)), l = readRows t.rowBytes o.data ∧ (List.map (fun x => x.fst) l).Nodup) :=
  ⟨⟨{ fxTblCmd 0x33 0 1 [] with tables := [{ fxTbl with keeper := 1 }] }, [], 0, .publish, [], .tblSwitchPublish (.own 0 []),
     met inferInstance (by decide +kernel)⟩,
    ⟨fxAlone (some { fxTbl with keeper := 0 }) (5 + 2 * 2 ^ 32) [], [], 0, .drop, [], .tblSwitchDrop (.own 0 []),
     met inferInstance (by decide +kernel)⟩,
    ⟨fxAlone (some { fxTbl with keeper := 0 }) 1 [], [], 0, [], .tblSwitchPublish (.own 0 []), met inferInstance
     (by decide +kernel)⟩,
    ⟨fxAlone none (2 ^ 32) fxDef, [], 0, [], .tblSwitchDefine (.own 0 []), met inferInstance (by decide +kernel)⟩,
    ⟨fxAlone (some { fxTbl with keeper := 0 }) (1 + 2 * 2 ^ 32) [], [], 0, [], .tblSwitchDrop (.own 0 []), met inferInstance
     (by decide +kernel)⟩,
    ⟨{ fxAlone (some { fxTbl with keeper := 0 }) (1 + 2 * 2 ^ 32) [] with gathers := [{ cmd := 7, table := 1, version := 1, prefetch := false, rows := [256], stride := 64, left := [256] }] },
     [], 0, [], .tblSwitchDrop (.own 0 []), met inferInstance (by decide +kernel)⟩,
    ⟨⟨[], fxTblSwitch true⟩, fxTblOrder 1 (2 ^ 127 + 5) [], .publish, .tblSwitchPublish (.order (fxTblOrder 1 (2 ^ 127 + 5)
     [])), met inferInstance (by decide +kernel)⟩,
    ⟨⟨[], fxTblSwitch true⟩, fxTblOrder 1 (2 ^ 127) [], .publish, .tblSwitchPublish (.order (fxTblOrder 1 (2 ^ 127) [])),
     met inferInstance (by decide +kernel)⟩,
    ⟨⟨[], fxTables { fxTbl with sealing := true }⟩, fxTblOrder 1 (2 ^ 126 + 2 ^ 40) [], .publish, .tblSwitchPublish (.order
     (fxTblOrder 1 (2 ^ 126 + 2 ^ 40) [])), met inferInstance (by decide +kernel)⟩,
    ⟨⟨[], fxTables { fxTbl with keeper := 1 }⟩, fxTblOrder 5 (2 ^ 126) [], .tblSwitchPublish (.order (fxTblOrder 5 (2 ^ 126)
     [])), met inferInstance (by decide +kernel)⟩,
    ⟨⟨[], fxTables { fxTbl with keeper := 1 }⟩, fxTblOrder 2 (2 ^ 125 + 1) (toLe 256 4 ++ List.replicate 16 5), .publish,
     .tblSwitchPublish (.order (fxTblOrder 2 (2 ^ 125 + 1) (toLe 256 4 ++ List.replicate 16 5))), met inferInstance
     (by decide +kernel)⟩⟩

/-- The premises of PlacementMoves are met. -/
theorem witness_PlacementMoves :
    (∃ s : State, ∃ i : ItemRef, ∃ p : Nat, ∃ n : Nat, s.awake ∧ s.block.Canonical ∧ (p = s.block.place → s.block.running pPlc =
     true ∧ s.block.fld pPlc 260 0 1 = 1 ∧ s.block.moveOver i n = false) ∧ s.block.moveOf i = none ∧ p ≠ n ∧ p ∈ s.block.places
     ∧ n ∈ s.block.places ∧ s.block.placeWhole p = true ∧ s.block.placeWhole n = true ∧ s.block.itemOwner i = p ∧
     s.block.itemDefined i = true) ∧
    (∃ s : State, ∃ i : ItemRef, ∃ p : Nat, ∃ n : Nat, s.awake ∧ s.block.Canonical ∧ (p = s.block.place ∧ (s.block.running pPlc
     = false ∨ s.block.fld pPlc 260 0 1 = 0) ∨ (s.block.moveOf i).isSome = true ∨ s.block.placeWhole p = false ∨
     s.block.placeWhole n = false ∨ s.block.itemOwner i ≠ p)) ∧
    (∃ s : State, ∃ i : ItemRef, s.awake ∧ s.block.Canonical ∧ ∃ (m : Migration), s.block.moveOf i = some m ∧ m.phase =
     MigPhase.copy ∧ Quiet s.block pPlc ∧ m.source = s.block.place ∧ m.dest ≠ s.block.place) ∧
    (∃ s : State, ∃ i : ItemRef, s.awake ∧ s.block.Canonical ∧ ∃ (m : Migration), s.block.moveOf i = some m ∧ m.phase =
     MigPhase.copy ∧ Quiet s.block pPlc ∧ m.dest = s.block.place ∧ m.source ≠ s.block.place) ∧
    (∃ s : State, ∃ t : Nat, ∃ k : Nat, s.awake ∧ s.block.Canonical ∧ ∃ (i : ItemRef), i = ItemRef.rowBlock t k ∧ ∃ (m :
     Migration), s.block.moveOf i = some m ∧ m.phase = MigPhase.catchUp ∧ ∃ (x : Table), s.block.tableOf t = some x ∧ x.sealing
     = true) ∧
    (∃ s : State, ∃ i : ItemRef, s.awake ∧ s.block.Canonical ∧ ∃ (m : Migration), s.block.moveOf i = some m ∧ m.phase =
     MigPhase.catchUp ∧ (∀ (t k : Nat) (x : Table), i = ItemRef.rowBlock t k → s.block.tableOf t = some x → x.sealing = false) ∧
     m.source = s.block.place) ∧
    (∃ s : State, ∃ i : ItemRef, s.awake ∧ s.block.Canonical ∧ ∃ (m : Migration), s.block.moveOf i = some m ∧ m.phase =
     MigPhase.catchUp ∧ (∀ (t k : Nat) (x : Table), i = ItemRef.rowBlock t k → s.block.tableOf t = some x → x.sealing = false) ∧
     m.source ≠ s.block.place ∧ m.dest ≠ s.block.place) ∧
    (∃ s : State, ∃ i : ItemRef, s.awake ∧ s.block.Canonical ∧ ∃ (m : Migration), s.block.moveOf i = some m ∧ m.phase =
     MigPhase.cutover ∧ m.held = [] ∧ (∀ (x : Table), x ∈ s.block.tables → x.sealFor = none)) ∧
    (∃ s : State, ∃ i : ItemRef, ∃ r : TableReq, ∃ at_ : Nat, s.awake ∧ s.block.Canonical ∧ ∃ (m : Migration), s.block.moveOf i
     = some m ∧ m.phase = MigPhase.cutover ∧ m.held = [(ForwardReq.table r, at_)]) ∧
    (∃ s : State, ∃ i : ItemRef, s.awake ∧ s.block.Canonical ∧ ∃ (m : Migration), s.block.moveOf i = some m ∧ m.phase =
     MigPhase.retire ∧ (m.source ≠ s.block.place ∨ ∃ t k, i = ItemRef.rowBlock t k ∧ ∀ (x : Table), s.block.tableOf t = some x →
     ∀ (p : PendRec), p ∈ x.pending → rowBlock p.item.row = k → p.committed = true)) ∧
    (∃ s : State, ∃ i : ItemRef, ∃ e : Bool, s.awake ∧ s.block.Canonical ∧ ∃ (m : Migration), s.block.moveOf i = some m ∧
     (m.phase = MigPhase.copy ∨ m.phase = MigPhase.catchUp) ∧ (e = true ∨ s.block.aborting pPlc = true ∨ s.block.placeReady
     m.source = false ∨ s.block.placeReady m.dest = false)) ∧
    (∃ s : State, ∃ i : ItemRef, s.awake ∧ s.block.Canonical ∧ ∃ (m : Migration), s.block.moveOf i = some m ∧ (m.phase =
     MigPhase.cutover ∨ m.phase = MigPhase.retire)) ∧
    (∃ s : State, ∃ r : ShardReq, ∃ n : Nat, s.awake ∧ r.shards = [n] ∧ r.side = false ∧ s.block.placeOfShard r.index n ≠
     s.block.place ∧ ∃ (k : Nat), k = shardBudget r.budget.toNat (s.block.fld (pQpl 0) 264 0 16) ∧ k ≠ 0) ∧
    (∃ s : State, s.awake) ∧
    (∃ s : State, s.awake ∧ s.block.Canonical) ∧
    (∃ s : State, s.awake ∧ s.block.Canonical ∧ ∃ (t : Nat), s.block.plc.windowAt = some t ∧ s.block.meter < t + 100000 *
     s.block.fld pPlc 264 0 16) ∧
    (∃ s : State, s.awake ∧ s.block.Canonical ∧ ∃ (t : Nat), s.block.plc.windowAt = some t ∧ t + 100000 * s.block.fld pPlc 264 0
     16 ≤ s.block.meter) ∧
    (∃ s : State, s.open_ ∧ s.block.Canonical ∧ Quiet s.block pPlc ∧ ∃ (kind : Nat), kind = s.block.fld pPlc 288 0 2 ∧ ∃ (object
     : Nat), object = s.block.fld pPlc 288 16 16 ∧ True) :=
  ⟨⟨⟨[], fxTables fxTbl⟩, (.rowBlock 1 0), 2, 0, met inferInstance (by decide +kernel)⟩,
    ⟨⟨[], fxDone⟩, (.rowBlock 1 0), 0, 0, met inferInstance (by decide +kernel)⟩,
    ⟨⟨[], fxMove (.rowBlock 1 0) .copy 2 1 []⟩, (.rowBlock 1 0), met inferInstance (by decide +kernel)⟩,
    ⟨⟨[], fxMove (.rowBlock 1 1) .copy 1 2 []⟩, (.rowBlock 1 1), met inferInstance (by decide +kernel)⟩,
    ⟨⟨[], { fxMove (.rowBlock 1 0) .catchUp 2 1 [] with tables := [{ fxTbl with sealing := true }] }⟩, 1, 0, met inferInstance
     (by decide +kernel)⟩,
    ⟨⟨[], fxMove (.rowBlock 1 0) .catchUp 2 1 []⟩, (.rowBlock 1 0), met inferInstance (by decide +kernel)⟩,
    ⟨⟨[], fxMove (.rowBlock 1 1) .catchUp 1 0 []⟩, (.rowBlock 1 1), met inferInstance (by decide +kernel)⟩,
    ⟨⟨[], fxMove (.rowBlock 1 0) .cutover 2 1 []⟩, (.rowBlock 1 0), met inferInstance (by decide +kernel)⟩,
    ⟨⟨[], fxMove (.rowBlock 1 0) .cutover 2 1 [.table (fxTblReq 1 false [0])]⟩, (.rowBlock 1 0), (fxTblReq 1 false [0]), 0,
     met inferInstance (by decide +kernel)⟩,
    ⟨⟨[], fxMove (.rowBlock 1 0) .retire 2 1 []⟩, .rowBlock 1 0, ⟨rfl, rfl⟩, canonical_iff.mp (by decide +kernel), _, rfl, rfl,
     .inr ⟨1, 0, rfl, pending_committed⟩⟩,
    ⟨⟨[], fxMove (.rowBlock 1 0) .copy 2 1 []⟩, (.rowBlock 1 0), true, met inferInstance (by decide +kernel)⟩,
    ⟨⟨[], fxMove (.rowBlock 1 0) .cutover 2 1 []⟩, (.rowBlock 1 0), met inferInstance (by decide +kernel)⟩,
    ⟨⟨[], { fxTables fxTbl with shardMap := [((0, 0), 1)] }⟩, { fxShardReq 1 with fromPlace := 0, budget := 1000 }, 0,
     met inferInstance (by decide +kernel)⟩,
    ⟨⟨[], fxDone⟩, met inferInstance (by decide +kernel)⟩,
    ⟨⟨[], fxDone⟩, met inferInstance (by decide +kernel)⟩,
    ⟨⟨[], fxWindow 5⟩, met inferInstance (by decide +kernel)⟩,
    ⟨⟨[], fxWindow 10000000000⟩, met inferInstance (by decide +kernel)⟩,
    ⟨⟨[], fxDone⟩, met inferInstance (by decide +kernel)⟩⟩

/-- The premises of PoolLeasesAndPublishes are met. -/
theorem witness_PoolLeasesAndPublishes :
    (∃ s : Block, ∃ q : List Instr, ∃ id : Nat, ∃ a : Nat, ∃ i : Instr, (a, i) ∈ [(0, Instr.acquire id), (1, Instr.renew id),
     (2, Instr.create id)] ∧ ∃ (c : Cmd) (b : Block), Handed { pending := q, block := s } id 80 [0, 1] c b ∧ c.param 0 2 = a ∧ ∃
     (st : Nat), leaseCheck b c = some st ∧ True) ∧
    (∃ s : Block, ∃ q : List Instr, ∃ id : Nat, ∃ a : Nat, ∃ i : Instr, (a, i) ∈ [(0, Instr.acquire id), (1, Instr.renew id),
     (2, Instr.create id)] ∧ ∃ (c : Cmd) (b : Block), Handed { pending := q, block := s } id 80 [0, 1] c b ∧ c.param 0 2 = a ∧
     leaseCheck b c = none ∧ c.res.space ≠ 1 ∧ ∃ (e : Nat), e = b.meter + c.param 16 16 * 100000 ∧ ∃ (w : Option Nat), (w = if
     c.param 13 1 = 1 then none else some (c.param 8 5)) ∧ True) ∧
    (∃ s : State, ∃ n : BitVec 12, s.awake ∧ s.block.Canonical ∧ ∃ (r : Region), s.block.region n.toNat = some r ∧ ∃ (l :
     Lease), r.lease = some l ∧ l.ends ≤ s.block.meter ∧ (∀ (p : PublishRun), p ∈ s.block.publishes → p.region ≠ n.toNat)) ∧
    (∃ s : State, ∃ n : BitVec 12, s.awake ∧ s.block.Canonical ∧ ∃ (r : Region), s.block.region n.toNat = some r ∧ ∃ (l :
     Lease), r.lease = some l ∧ (s.block.meter < l.ends ∨ ∃ p, p ∈ s.block.publishes ∧ p.region = n.toNat)) ∧
    (∃ s : Block, ∃ q : List Instr, ∃ id : Nat, ∃ (op : Nat), op ∈ [81, 82, 83] ∧ ∃ (c : Cmd) (b : Block), Handed
     { pending := q, block := s } id op [0, 1] c b ∧ ∃ (r : Region), s.region c.object = some r ∧ ∃ (l : Lease), r.lease = some
     l ∧ 0 < c.object ∧ c.object < 4096 ∧ c.payValid = false ∧ c.resValid = false ∧ b.running (pCxp 0) = true ∧ op = 81 ∧
     c.param 66 62 = 0 ∧ r.current ≠ 2 ^ 32 - 1 ∧ (l.holder ≠ c.who ∨ l.id ≠ c.param 0 32 ∨ c.param 32 32 ≠ r.current + 1)) ∧
    (∃ s : Block, ∃ q : List Instr, ∃ id : Nat, ∃ (op : Nat), op ∈ [81, 82, 83] ∧ ∃ (c : Cmd) (b : Block), Handed
     { pending := q, block := s } id op [0, 1] c b ∧ ∃ (r : Region), s.region c.object = some r ∧ ∃ (l : Lease), r.lease = some
     l ∧ 0 < c.object ∧ c.object < 4096 ∧ c.payValid = false ∧ c.resValid = false ∧ b.running (pCxp 0) = true ∧ op = 81 ∧
     c.param 66 62 = 0 ∧ r.current ≠ 2 ^ 32 - 1 ∧ l.holder = c.who ∧ l.id = c.param 0 32 ∧ c.param 32 32 = r.current + 1 ∧
     l.lostWc = true) ∧
    (∃ s : Block, ∃ q : List Instr, ∃ id : Nat, ∃ (op : Nat), op ∈ [81, 82, 83] ∧ ∃ (c : Cmd) (b : Block), Handed
     { pending := q, block := s } id op [0, 1] c b ∧ ∃ (r : Region), s.region c.object = some r ∧ ∃ (l : Lease), r.lease = some
     l ∧ 0 < c.object ∧ c.object < 4096 ∧ c.payValid = false ∧ c.resValid = false ∧ b.running (pCxp 0) = true ∧ op = 81 ∧
     c.param 66 62 = 0 ∧ r.current ≠ 2 ^ 32 - 1 ∧ l.holder = c.who ∧ l.id = c.param 0 32 ∧ c.param 32 32 = r.current + 1 ∧
     l.lostWc = false ∧ (∀ (p : PoolPage), p ∈ r.wc → p.tier.lost = false) ∧ (c.param 64 1 = 0 ∨ r.wc = [])) ∧
    (∃ s : Block, ∃ q : List Instr, ∃ id : Nat, ∃ (op : Nat), op ∈ [81, 82, 83] ∧ ∃ (c : Cmd) (b : Block), Handed
     { pending := q, block := s } id op [0, 1] c b ∧ ∃ (r : Region), s.region c.object = some r ∧ ∃ (l : Lease), r.lease = some
     l ∧ 0 < c.object ∧ c.object < 4096 ∧ c.payValid = false ∧ c.resValid = false ∧ b.running (pCxp 0) = true ∧ op = 81 ∧
     c.param 66 62 = 0 ∧ r.current ≠ 2 ^ 32 - 1 ∧ l.holder = c.who ∧ l.id = c.param 0 32 ∧ c.param 32 32 = r.current + 1 ∧
     l.lostWc = false ∧ (∀ (p : PoolPage), p ∈ r.wc → p.tier.lost = false) ∧ c.param 64 1 = 1 ∧ r.wc ≠ [] ∧ b.noWrites = false)
     ∧
    (∃ s : Block, ∃ q : List Instr, ∃ id : Nat, ∃ (op : Nat), op ∈ [81, 82, 83] ∧ ∃ (c : Cmd) (b : Block), Handed
     { pending := q, block := s } id op [0, 1] c b ∧ ∃ (r : Region), s.region c.object = some r ∧ ∃ (l : Lease), r.lease = some
     l ∧ 0 < c.object ∧ c.object < 4096 ∧ c.payValid = false ∧ c.resValid = false ∧ b.running (pCxp 0) = true ∧ op = 82 ∧
     c.param 32 32 = 0 ∧ c.param 66 62 = 0 ∧ (c.param 65 1 = 1 → c.who = none) ∧ c.param 65 1 = 0 ∧ (l.holder ≠ c.who ∨ l.id ≠
     c.param 0 32)) ∧
    (∃ s : Block, ∃ q : List Instr, ∃ id : Nat, ∃ (op : Nat), op ∈ [81, 82, 83] ∧ ∃ (c : Cmd) (b : Block), Handed
     { pending := q, block := s } id op [0, 1] c b ∧ ∃ (r : Region), s.region c.object = some r ∧ ∃ (l : Lease), r.lease = some
     l ∧ 0 < c.object ∧ c.object < 4096 ∧ c.payValid = false ∧ c.resValid = false ∧ b.running (pCxp 0) = true ∧ op = 82 ∧
     c.param 32 32 = 0 ∧ c.param 66 62 = 0 ∧ (c.param 65 1 = 1 → c.who = none) ∧ (c.param 65 1 = 1 ∨ l.holder = c.who ∧ l.id =
     c.param 0 32)) ∧
    (∃ s : Block, ∃ q : List Instr, ∃ id : Nat, ∃ (op : Nat), op ∈ [81, 82, 83] ∧ ∃ (c : Cmd) (b : Block), Handed
     { pending := q, block := s } id op [0, 1] c b ∧ ∃ (r : Region), s.region c.object = some r ∧ ∃ (l : Lease), r.lease = some
     l ∧ 0 < c.object ∧ c.object < 4096 ∧ c.payValid = false ∧ c.resValid = false ∧ b.running (pCxp 0) = true ∧ op = 83 ∧
     c.param 32 96 = 0 ∧ l.holder = c.who ∧ l.id = c.param 0 32) :=
  ⟨⟨fxPoolCmd 0x50 1 (fxLeaseArgs 2 3 7 0 0) [], [], 0, 2, .create 0, met inferInstance (by decide +kernel)⟩,
    ⟨fxPoolCmd 0x50 1 (fxLeaseArgs 0 1 5 0 0) [fxRegion [] [] none], [], 0, 0, .acquire 0, met inferInstance
     (by decide +kernel)⟩,
    ⟨⟨[], { fxPool [fxRegion [] [fxPoolPage 0 1 fxDirty] (some (fxLease false))] with meter := 2000 }⟩, 3, met inferInstance
     (by decide +kernel)⟩,
    ⟨⟨[], fxPool [fxRegion [] [] (some (fxLease false))]⟩, 3, met inferInstance (by decide +kernel)⟩,
    ⟨(fxPoolCmd 0x51 0 (3 + 7 * 2 ^ 32) [fxRegion [] [] (some (fxLease false))]), [], 0, met inferInstance (by decide +kernel)⟩,
    ⟨(fxPoolCmd 0x51 0 (2 + 7 * 2 ^ 32) [fxRegion [] [] (some (fxLease true))]), [], 0, met inferInstance (by decide +kernel)⟩,
    ⟨(fxPoolCmd 0x51 0 (2 + 7 * 2 ^ 32) [fxRegion [fxPoolPage 0 1 fxDirty, fxPoolPage 1 1 fxClean] [fxPoolPage 0 2 fxDirty]
     (some (fxLease false))]), [], 0, met inferInstance (by decide +kernel)⟩,
    ⟨(fxPoolCmd 0x51 0 (2 + 7 * 2 ^ 32 + 2 ^ 64) [fxRegion [] [fxPoolPage 0 2 fxDirty] (some (fxLease false))]), [], 0,
     met inferInstance (by decide +kernel)⟩,
    ⟨fxPoolCmd 0x52 0 3 [fxRegion [] [] (some (fxLease false))], [], 0, 82, met inferInstance (by decide +kernel)⟩,
    ⟨fxPoolCmd 0x52 0 2 [fxRegion [] [] (some (fxLease false))], [], 0, 82, met inferInstance (by decide +kernel)⟩,
    ⟨fxPoolCmd 0x53 0 2 [fxRegion [] [fxPoolPage 0 2 fxDirty] (some (fxLease true))], [], 0, 83, met inferInstance
     (by decide +kernel)⟩⟩

/-- The premises of CxlPorts are met. -/
theorem witness_CxlPorts :
    (∃ s : State, ∃ p : Fin 2, ∃ ld : Fin 16, ∃ a : BitVec 46, s.awake ∧ s.block.Canonical ∧ Quiet s.block (pCxp ↑p) ∧ ∃ (n :
     Nat), n = 16 * ↑p + ↑ld ∧ s.block.halted = false ∧ ∃ (o : Nat), o = a.toNat / 64 * 64 % 2 ^ 34 ∧ s.block.pageState (pCxp
     ↑p) = 2 ∧ 262144 ≤ a.toNat ∧ s.block.region (a.toNat / 2 ^ 34) = none) ∧
    (∃ s : State, ∃ p : Fin 2, ∃ ld : Fin 16, ∃ a : BitVec 46, s.awake ∧ s.block.Canonical ∧ Quiet s.block (pCxp ↑p) ∧ ∃ (n :
     Nat), n = 16 * ↑p + ↑ld ∧ s.block.halted = false ∧ ∃ (o : Nat), o = a.toNat / 64 * 64 % 2 ^ 34 ∧ s.block.pageState (pCxp
     ↑p) = 2 ∧ 262144 ≤ a.toNat ∧ ∃ (r : Region), s.block.region (a.toNat / 2 ^ 34) = some r ∧ lostPage (r.page (r.writtenBy n)
     (o / 16384)) = false) ∧
    (∃ s : State, ∃ p : Fin 2, ∃ ld : Fin 16, ∃ a : BitVec 46, s.awake ∧ s.block.Canonical ∧ Quiet s.block (pCxp ↑p) ∧ ∃ (n :
     Nat), n = 16 * ↑p + ↑ld ∧ s.block.halted = false ∧ ∃ (o : Nat), o = a.toNat / 64 * 64 % 2 ^ 34 ∧ s.block.pageState (pCxp
     ↑p) = 2 ∧ 262144 ≤ a.toNat ∧ ∃ (r : Region), s.block.region (a.toNat / 2 ^ 34) = some r ∧ lostPage (r.page (r.writtenBy n)
     (o / 16384)) = true) ∧
    (∃ s : State, ∃ p : Fin 2, ∃ ld : Fin 16, ∃ a : BitVec 46, s.awake ∧ s.block.Canonical ∧ Quiet s.block (pCxp ↑p) ∧ ∃ (n :
     Nat), n = 16 * ↑p + ↑ld ∧ s.block.halted = false ∧ ∃ (o : Nat), o = a.toNat / 64 * 64 % 2 ^ 34 ∧ s.block.pageState (pCxp
     ↑p) = 2 ∧ a.toNat < 262144) ∧
    (∃ s : State, ∃ p : Fin 2, ∃ ld : Fin 16, ∃ a : BitVec 46, s.awake ∧ s.block.Canonical ∧ Quiet s.block (pCxp ↑p) ∧ ∃ (n :
     Nat), n = 16 * ↑p + ↑ld ∧ s.block.halted = false ∧ ∃ (o : Nat), o = a.toNat / 64 * 64 % 2 ^ 34 ∧ s.block.pageState (pCxp
     ↑p) = 3) ∧
    (∃ s : State, ∃ p : Fin 2, ∃ ld : Fin 16, ∃ a : BitVec 46, s.awake ∧ s.block.Canonical ∧ Quiet s.block (pCxp ↑p) ∧ ∃ (n :
     Nat), n = 16 * ↑p + ↑ld ∧ s.block.halted = false ∧ ∃ (o : Nat), o = a.toNat / 64 * 64 % 2 ^ 34 ∧ s.block.pageState (pCxp
     ↑p) < 2) ∧
    (∃ s : State, ∃ p : Fin 2, ∃ ld : Fin 16, ∃ a : BitVec 46, ∃ data : Bytes, s.awake ∧ s.block.Canonical ∧ Quiet s.block (pCxp
     ↑p) ∧ ∃ (n : Nat), n = 16 * ↑p + ↑ld ∧ s.block.halted = false ∧ s.block.pageState (pCxp ↑p) = 2 ∧ 262144 ≤ a.toNat ∧ ∃ (r :
     Region), s.block.region (a.toNat / 2 ^ 34) = some r ∧ (r.writtenBy n = false ∨ r.pages * 16384 < a.toNat % 2 ^ 34 +
     List.length data)) ∧
    (∃ s : State, ∃ p : Fin 2, ∃ ld : Fin 16, ∃ a : BitVec 46, ∃ data : Bytes, s.awake ∧ s.block.Canonical ∧ Quiet s.block (pCxp
     ↑p) ∧ ∃ (n : Nat), n = 16 * ↑p + ↑ld ∧ s.block.halted = false ∧ s.block.pageState (pCxp ↑p) = 2 ∧ 262144 ≤ a.toNat ∧ ∃ (r :
     Region), s.block.region (a.toNat / 2 ^ 34) = some r ∧ r.writtenBy n = true ∧ ∃ (o : Nat), o = a.toNat % 2 ^ 34 ∧ data ≠ []
     ∧ o % 16384 + List.length data ≤ 16384 ∧ o + List.length data ≤ r.pages * 16384 ∧ (∀ (k : PoolPage), k ∈ r.map ++ r.wc →
     k.data.wf = true) ∧ ((pageIn r.wc (o / 16384)).isSome = true ∨ s.block.poolUsed < s.block.poolSize)) ∧
    (∃ s : State, ∃ p : Fin 2, ∃ ld : Fin 16, ∃ a : BitVec 46, ∃ data : Bytes, s.awake ∧ s.block.Canonical ∧ Quiet s.block (pCxp
     ↑p) ∧ ∃ (n : Nat), n = 16 * ↑p + ↑ld ∧ s.block.halted = false ∧ s.block.pageState (pCxp ↑p) = 2 ∧ 262144 ≤ a.toNat ∧ ∃ (r :
     Region), s.block.region (a.toNat / 2 ^ 34) = some r ∧ r.writtenBy n = true ∧ ∃ (o : Nat), o = a.toNat % 2 ^ 34 ∧ data ≠ []
     ∧ o % 16384 + List.length data ≤ 16384 ∧ o + List.length data ≤ r.pages * 16384 ∧ (∀ (k : PoolPage), k ∈ r.map ++ r.wc →
     k.data.wf = true) ∧ pageIn r.wc (o / 16384) = none ∧ s.block.poolSize ≤ s.block.poolUsed) ∧
    (∃ s : State, ∃ p : Fin 2, ∃ ld : Fin 16, s.awake ∧ s.block.Canonical ∧ Quiet s.block (pCxp ↑p) ∧ ∃ (n : Nat), n = 16 * ↑p +
     ↑ld ∧ ∃ (up : Bool), up = true ∧ s.block.pageState (pCxp ↑p) ≠ 0) ∧
    (∃ s : State, ∃ p : Fin 2, ∃ ld : Fin 16, ∃ up : Bool, s.awake ∧ s.block.Canonical ∧ Quiet s.block (pCxp ↑p) ∧ ∃ (n : Nat),
     n = 16 * ↑p + ↑ld ∧ (up = false ∨ s.block.pageState (pCxp ↑p) = 0)) ∧
    (∃ s : State, ∃ p : Fin 2, ∃ ld : Fin 16, s.awake ∧ s.block.Canonical ∧ Quiet s.block (pCxp ↑p) ∧ ∃ (n : Nat), n = 16 * ↑p +
     ↑ld ∧ s.block.running (pCxp ↑p) = true ∧ ∃ (m : MailboxCmd), m ∈ [MailboxCmd.identify, MailboxCmd.supportedLogs,
     MailboxCmd.getLog, MailboxCmd.healthInfo] ∧ True) ∧
    (∃ (s : State) (p : Fin 2) (m : MailboxCmd), s.awake ∧ s.block.Canonical ∧ Quiet s.block (pCxp p) ∧ s.block.running (pCxp p)
     = true ∧ ∃ o, m = .other o) ∧
    (∃ s : State, ∃ p : Fin 2, ∃ ld : Fin 16, s.awake ∧ s.block.Canonical ∧ Quiet s.block (pCxp ↑p) ∧ ∃ (n : Nat), n = 16 * ↑p +
     ↑ld ∧ s.block.running (pCxp ↑p) = false) ∧
    (∃ s : State, ∃ p : Fin 2, ∃ ld : Fin 16, s.awake ∧ s.block.Canonical ∧ Quiet s.block (pCxp ↑p) ∧ ∃ (n : Nat), n = 16 * ↑p +
     ↑ld ∧ True) :=
  ⟨⟨⟨[], fxPool [fxRegion [fxPoolPage 1 8 fxDirty] [fxPoolPage 0 1 fxDirty] (some (fxLease false))]⟩, 0, 1, 0x1000000000,
     met inferInstance (by decide +kernel)⟩,
    ⟨⟨[], fxPool [fxRegion [fxPoolPage 1 8 fxDirty] [fxPoolPage 0 1 fxDirty] (some (fxLease false))]⟩, 0, 1, 0xC00000000,
     met inferInstance (by decide +kernel)⟩,
    ⟨⟨[], fxPool [fxRegion [fxPoolPage 0 1 fxGone] [] none]⟩, 0, 1, 0xC00000000, met inferInstance (by decide +kernel)⟩,
    ⟨⟨[], fxPool [fxRegion [fxPoolPage 1 8 fxDirty] [fxPoolPage 0 1 fxDirty] (some (fxLease false))]⟩, 0, 1, 0,
     met inferInstance (by decide +kernel)⟩,
    ⟨⟨[], fxWith (fxPool []) [((pCxp 0).at 0x0C, 3)]⟩, 0, 1, 0, met inferInstance (by decide +kernel)⟩,
    ⟨⟨[], fxDone⟩, 0, 1, 0, met inferInstance (by decide +kernel)⟩,
    ⟨⟨[], fxPool [fxRegion [fxPoolPage 1 8 fxDirty] [fxPoolPage 0 1 fxDirty] (some (fxLease false))]⟩, 0, 1, 0xC00008000, ([1,
     2, 3]), met inferInstance (by decide +kernel)⟩,
    ⟨⟨[], fxPool [fxRegion [fxPoolPage 1 8 fxDirty] [fxPoolPage 0 1 fxDirty] (some (fxLease false))]⟩, 0, 1, 0xC00000000, ([1,
     2, 3]), met inferInstance (by decide +kernel)⟩,
    ⟨⟨[], fxPoolFull (fxRegion [] [] (some (fxLease false)))⟩, 0, 1, 0xC00000000, ([1, 2, 3]), met inferInstance
     (by decide +kernel)⟩,
    ⟨⟨[], fxPool [fxRegion [fxPoolPage 1 8 fxDirty] [fxPoolPage 0 1 fxDirty] (some (fxLease false))]⟩, 0, 1, met inferInstance
     (by decide +kernel)⟩,
    ⟨⟨[], fxDone⟩, 0, 1, false, met inferInstance (by decide +kernel)⟩,
    ⟨⟨[], fxPool [fxRegion [fxPoolPage 1 8 fxDirty] [fxPoolPage 0 1 fxDirty] (some (fxLease false))]⟩, 0, 1, met inferInstance
     (by decide +kernel)⟩,
    ⟨⟨[], fxPool []⟩, 1, .other 9, ⟨rfl, rfl⟩, canonical_iff.mp (by decide +kernel), by unfold Quiet; decide +kernel,
     by decide +kernel, 9, rfl⟩,
    ⟨⟨[], fxDone⟩, 0, 1, met inferInstance (by decide +kernel)⟩,
    ⟨⟨[], fxDone⟩, 0, 1, met inferInstance (by decide +kernel)⟩⟩

/-- The premises of StateAndStacks are met. -/
theorem witness_StateAndStacks :
    (∃ s : Block, ∃ q : List Instr, ∃ id : Nat, ∃ (c : Cmd) (b : Block), Handed { pending := q, block := s } id 84 [0, 1] c b ∧
     ∃ (n : Nat), n = c.param 32 13 ∧ c.resValid = false ∧ c.payValid = true ∧ c.param 10 6 = 0 ∧ c.param 16 11 = 0 ∧ c.param 27
     5 = 0 ∧ c.param 48 80 = 0 ∧ n * 16384 ≤ c.pay.len ∧ 0 < n ∧ n ≤ 4096 ∧ n ≤ b.flashRoom ∧ b.running pFtl = true ∧ c.param 47
     1 = 0 ∧ b.dramShort (n * 32768) = false) ∧
    (∃ s : Block, ∃ q : List Instr, ∃ id : Nat, ∃ (c : Cmd) (b : Block), Handed { pending := q, block := s } id 84 [0, 1] c b ∧
     ∃ (n : Nat), n = c.param 32 13 ∧ c.resValid = false ∧ c.payValid = true ∧ c.param 10 6 = 0 ∧ c.param 16 11 = 0 ∧ c.param 27
     5 = 0 ∧ c.param 48 80 = 0 ∧ n * 16384 ≤ c.pay.len ∧ 0 < n ∧ n ≤ 4096 ∧ n ≤ b.flashRoom ∧ b.running pFtl = true ∧ (c.param
     47 1 = 1 ∨ b.dramShort (n * 32768) = true) ∧ b.noWrites = false) ∧
    (∃ s : Block, ∃ q : List Instr, ∃ id : Nat, ∃ (c : Cmd) (b : Block), Handed { pending := q, block := s } id 84 [0, 1] c b ∧
     ∃ (n : Nat), n = c.param 32 13 ∧ c.resValid = false ∧ c.payValid = true ∧ c.param 10 6 = 0 ∧ c.param 16 11 = 0 ∧ c.param 27
     5 = 0 ∧ c.param 48 80 = 0 ∧ n * 16384 ≤ c.pay.len ∧ 0 < n ∧ n ≤ 4096 ∧ n ≤ b.flashRoom ∧ b.running pFtl = true ∧ (c.param
     47 1 = 1 ∨ b.dramShort (n * 32768) = true) ∧ b.noWrites = true) ∧
    (∃ s : Block, ∃ q : List Instr, ∃ id : Nat, ∃ ses : Nat, ∃ msg : Nat, ∃ ls : List Layer, ∃ (c : Cmd) (b : Block), Handed
     { pending := q, block := s } id 85 [0, 1] c b ∧ ∃ (first : Nat), first = c.param 0 10 ∧ ∃ (n : Nat), n = c.param 16 11 ∧
     c.payValid = false ∧ c.resValid = true ∧ c.param 10 6 = 0 ∧ c.param 27 5 = 0 ∧ c.param 32 13 = 0 ∧ c.param 48 80 = 0 ∧ 0 <
     n ∧ first + n ≤ 1024 ∧ List.map (b.layer c.object) (span first n) = List.map some ls ∧ (List.map (fun l => 64 + 16384 *
     l.tiles.length) ls).sum ≤ c.res.len ∧ (∀ (l : Layer), l ∈ ls → b.layerLost l = false) ∧ b.running pFtl = true ∧ c.src =
     Source.session ses msg ∧ (b.session ses).state ≠ SessState.closed ∧ c.res.space = 2 ∧ c.area = [] ∧ c.areaLen = 0) ∧
    (∃ s : Block, ∃ q : List Instr, ∃ id : Nat, ∃ (c : Cmd) (b : Block), Handed { pending := q, block := s } id 96 [0, 1] c b ∧
     ∃ (st : Nat), discardCheck b c false = some st ∧ True) ∧
    (∃ s : Block, ∃ q : List Instr, ∃ id : Nat, ∃ (c : Cmd) (b : Block), Handed { pending := q, block := s } id 96 [0, 1] c b ∧
     discardCheck b c false = none) ∧
    (∃ s : Block, ∃ q : List Instr, ∃ id : Nat, ∃ (c : Cmd) (b : Block), Handed { pending := q, block := s } id 97 [0, 1] c b ∧
     List.find? (fun d => decide (d.cmd = id)) s.discards = none ∧ discardCheck b c true = none) ∧
    (∃ s : State, ∃ id : Nat, ∃ e : Bool, s.awake ∧ s.block.Canonical ∧ (s.block.cmd id).isSome = true ∧ ∃ (d : DiscardRun),
     List.find? (fun d => decide (d.cmd = id)) s.block.discards = some d ∧ (e = true → ∀ (r : BlockRef), r ∈ d.blocks →
     s.block.erasing r = true → s.block.bayReads (↑r.lun.channel / 4) = false)) ∧
    (∃ s : State, ∃ id : Nat, s.awake ∧ s.block.Canonical ∧ (s.block.cmd id).isSome = true ∧ ∃ (d : DiscardRun), List.find? (fun
     d => decide (d.cmd = id)) s.block.discards = some d ∧ (∃ r, r ∈ d.blocks ∧ s.block.erasing r = true ∧ s.block.bayReads
     (↑r.lun.channel / 4) = true)) ∧
    (∃ s : State, ∃ n : Nat, ∃ page : Nat, s.awake ∧ s.block.Canonical ∧ s.block.noWrites = false ∧ ∃ (r : Region),
     s.block.region n = some r ∧ (∃ p, p ∈ r.map ∧ p.page = page ∧ p.tier.dirty = true ∧ p.tier.lost = false)) ∧
    (∃ s : State, ∃ n : Nat, ∃ v : Nat, s.awake ∧ s.block.Canonical ∧ s.block.noWrites = false ∧ ∃ (r : Region), s.block.region
     n = some r ∧ v ≠ r.current) ∧
    (∃ s : State, s.awake ∧ s.block.Canonical ∧ s.block.noWrites = true) ∧
    (∃ s : State, ∃ o : Nat, ∃ k : Nat, ∃ i : Nat, s.awake ∧ s.block.Canonical ∧ s.block.noWrites = false ∧ ∃ (l : Layer),
     s.block.layer o k = some l ∧ ∃ (t : StateTile), l.tiles[i]? = some t ∧ t.tier.lost = false ∧ t.tier.dirty = true) ∧
    (∃ s : State, ∃ k : Fin 9, s.awake ∧ s.block.Canonical ∧ (¬↑k ∈ s.block.deadStacks) ∧ ↑k < 8 ∧ s.block.roles.spare = 1) ∧
    (∃ s : State, ∃ k : Fin 9, s.awake ∧ s.block.Canonical ∧ (¬↑k ∈ s.block.deadStacks) ∧ ↑k < 8 ∧ s.block.roles.spare ≠ 1) ∧
    (∃ s : State, ∃ k : Fin 9, s.awake ∧ s.block.Canonical ∧ (¬↑k ∈ s.block.deadStacks) ∧ ↑k = 8) ∧
    (∃ s : State, ∃ k : Fin 9, s.awake ∧ s.block.Canonical ∧ ↑k ∈ s.block.deadStacks) ∧
    (∃ s : State, s.awake ∧ s.block.Canonical ∧ s.block.roles.spare = 2 ∧ ∃ (n : Nat), s.block.roles.standFor = some n ∧ n < 8)
     ∧
    (∃ s : State, s.awake ∧ s.block.Canonical ∧ s.block.roles.spare ≠ 2) :=
  ⟨⟨(fxStateCmd 0x54 2 3 (2 + 2 ^ 32 + 2 ^ 45) (.port 0)), [], 0, met inferInstance (by decide +kernel)⟩,
    ⟨(fxStateCmd 0x54 2 3 (2 + 2 ^ 32 + 2 ^ 47) (.port 0)), [], 0, met inferInstance (by decide +kernel)⟩,
    ⟨({ fxStateCmd 0x54 2 3 (7 + 2 ^ 32 + 2 ^ 47) (.port 0) with bays := [], ftl := { nextZone := 7, zones := [{ number := 6, log := true, place := some (fxBlk 1), tiles := [] }] } }),
     [], 0, met inferInstance (by decide +kernel)⟩,
    ⟨(fxStateCmd 0x55 1 3 (2 + 2 ^ 16) (.session 0 1)), [], 0, 0, 1, ([fxLayer 2 4 fxDirty]), met inferInstance
     (by decide +kernel)⟩,
    ⟨(fxStateCmd 0x60 0 3 2 (.port 0)), [], 0, met inferInstance (by decide +kernel)⟩,
    ⟨(fxStateCmd 0x60 0 3 1 (.port 0)), [], 0, met inferInstance (by decide +kernel)⟩,
    ⟨(fxStateCmd 0x61 0 0 3 (.port 0)), [], 0, met inferInstance (by decide +kernel)⟩,
    ⟨⟨[], fxErasing⟩, 0, false, met inferInstance (by decide +kernel)⟩,
    ⟨⟨[], fxErasesOpen⟩, 0, met inferInstance (by decide +kernel)⟩,
    ⟨⟨[], fxLayers [fxLayer 2 4 fxDirty]⟩, 3, 0, met inferInstance (by decide +kernel)⟩,
    ⟨⟨[], fxLayers [fxLayer 2 4 fxDirty]⟩, 3, 0, met inferInstance (by decide +kernel)⟩,
    ⟨⟨[], fxDone⟩, met inferInstance (by decide +kernel)⟩,
    ⟨⟨[], fxLayers [fxLayer 2 4 fxDirty]⟩, 3, 2, 0, met inferInstance (by decide +kernel)⟩,
    ⟨⟨[], fxDone⟩, 0, met inferInstance (by decide +kernel)⟩,
    ⟨⟨[], fxRoles 0⟩, 0, met inferInstance (by decide +kernel)⟩,
    ⟨⟨[], fxDone⟩, 8, met inferInstance (by decide +kernel)⟩,
    ⟨⟨[], fxRoles 0⟩, 5, met inferInstance (by decide +kernel)⟩,
    ⟨⟨[], fxRoles 2⟩, met inferInstance (by decide +kernel)⟩,
    ⟨⟨[], fxDone⟩, met inferInstance (by decide +kernel)⟩⟩

/-- The premises of FlashWritten are met. -/
theorem witness_FlashWritten :
    (∃ s : State, ∃ l : LunRef, ∃ page : Nat, s.awake ∧ s.block.Canonical ∧ s.block.writeStopped = false ∧ s.block.takesWrites =
     true ∧ s.block.engineUp ↑l.channel = true ∧ (∀ (p : Program), p ∈ s.block.ftl.programs → p.lun ≠ l) ∧
     (¬{ lun := l, block := page / 4096 } ∈ s.block.ftl.retired) ∧ s.block.slowItems ↑l.channel < 64 ∧ s.block.erasing
     { lun := l, block := page / 4096 } = false ∧ ∃ (w : FlashWrite) (rest : List FlashWrite), takeFirst (s.block.fits
     { lun := l, block := page / 4096 } (page % 4096)) s.block.ftl.writes = some (w, rest) ∧ ∃ (z : Zone), s.block.zoneFor
     w.what { lun := l, block := page / 4096 } = some z ∧ True) ∧
    (∃ s : State, ∃ l : LunRef, ∃ page : Nat, s.awake ∧ s.block.Canonical ∧ (s.block.writeStopped = true ∨ s.block.takesWrites =
     false ∨ s.block.engineUp ↑l.channel = false ∨ 64 ≤ s.block.slowItems ↑l.channel ∨ s.block.erasing
     { lun := l, block := page / 4096 } = true ∨ ∃ p, p ∈ s.block.ftl.programs ∧ p.lun = l)) ∧
    (∃ s : State, ∃ l : LunRef, s.awake ∧ s.block.Canonical ∧ ∃ (p : Program), List.find? (fun p => decide (p.lun = l))
     s.block.ftl.programs = some p ∧ p.failed = false ∧ (p.sent = false ∨ s.block.programSuspended p = true)) ∧
    (∃ s : State, ∃ l : LunRef, s.awake ∧ s.block.Canonical ∧ ∃ (p : Program), List.find? (fun p => decide (p.lun = l))
     s.block.ftl.programs = some p ∧ p.failed = false ∧ p.sent = true ∧ s.block.programSuspended p = false ∧ ∃ (bay : Nat), bay
     = ↑l.channel / 4 ∧ ∃ (row : Nat), row = p.page % 4096 ∧ ∃ (r : StripeRow), r = s.block.rowOf p.zone row ∧ ∃ (m : Member), m
     =
     { bay := bay, now := bay, what := some p.write.what, data := pageImage s.block.sec.tenantKey (luaOf p.zone row bay) p.write.data, journal := s.block.journalBay bay }
     ∧ r.parity = false ∧ (∃ t v k, p.write.what = WriteWhat.fold t v k ∨ p.write.what = WriteWhat.home t v) ∧ ∃ (n : Nat), n =
     (dataBays row r.absent).length ∧ r.zone = p.zone ∧ r.row = row ∧ r.members.length + 1 < n) ∧
    (∃ s : State, ∃ l : LunRef, s.awake ∧ s.block.Canonical ∧ ∃ (p : Program), List.find? (fun p => decide (p.lun = l))
     s.block.ftl.programs = some p ∧ p.failed = false ∧ p.sent = true ∧ s.block.programSuspended p = false ∧ ∃ (bay : Nat), bay
     = ↑l.channel / 4 ∧ ∃ (row : Nat), row = p.page % 4096 ∧ ∃ (r : StripeRow), r = s.block.rowOf p.zone row ∧ ∃ (m : Member), m
     =
     { bay := bay, now := bay, what := some p.write.what, data := pageImage s.block.sec.tenantKey (luaOf p.zone row bay) p.write.data, journal := s.block.journalBay bay }
     ∧ r.parity = false ∧ (∃ t v k, p.write.what = WriteWhat.fold t v k ∨ p.write.what = WriteWhat.home t v) ∧ ∃ (n : Nat), n =
     (dataBays row r.absent).length ∧ r.zone = p.zone ∧ r.row = row ∧ r.members.length + 1 = n) ∧
    (∃ s : State, ∃ l : LunRef, ∃ o : Nat, ∃ k : Nat, ∃ id : Nat, ∃ t : Nat, s.awake ∧ s.block.Canonical ∧ ∃ (p : Program),
     List.find? (fun p => decide (p.lun = l)) s.block.ftl.programs = some p ∧ p.failed = false ∧ p.sent = true ∧
     s.block.programSuspended p = false ∧ p.write.what = WriteWhat.stateTile o k id t ∧ ∃ (x : PushRun), List.find? (fun x =>
     decide (x.cmd = id) && decide (t ∈ x.left)) s.block.pushes = some x ∧ x.left = [t] ∧ (∀ (c : Cmd), s.block.cmd id = some c
     → s.block.passed c.deadline = false)) ∧
    (∃ s : State, ∃ l : LunRef, ∃ n : Nat, ∃ v : Nat, ∃ k : Nat, s.awake ∧ s.block.Canonical ∧ ∃ (p : Program), List.find? (fun
     p => decide (p.lun = l)) s.block.ftl.programs = some p ∧ p.failed = false ∧ p.sent = true ∧ s.block.programSuspended p =
     false ∧ p.write.what = WriteWhat.poolPage n v k ∧ ∃ (x : PublishRun), List.find? (fun x => decide (x.region = n) && decide
     (k ∈ x.left)) s.block.publishes = some x ∧ x.left = [k] ∧ ∃ (r : Region), s.block.region n = some r ∧ v = r.current + 1) ∧
    (∃ s : State, ∃ l : LunRef, ∃ n : Nat, ∃ v : Nat, ∃ k : Nat, s.awake ∧ s.block.Canonical ∧ ∃ (p : Program), List.find? (fun
     p => decide (p.lun = l)) s.block.ftl.programs = some p ∧ p.failed = false ∧ p.sent = true ∧ s.block.programSuspended p =
     false ∧ p.write.what = WriteWhat.poolBack n v k ∧ ∃ (r : Region), s.block.region n = some r ∧ (∃ q, q ∈ r.map ∧ q.page = k
     ∧ q.version = v ∧ q.tier.dirty = true ∧ q.tier.lost = false)) ∧
    (∃ s : State, ∃ l : LunRef, ∃ o : Nat, ∃ k : Nat, ∃ g : Nat, ∃ i : Nat, s.awake ∧ s.block.Canonical ∧ ∃ (p : Program),
     List.find? (fun p => decide (p.lun = l)) s.block.ftl.programs = some p ∧ p.failed = false ∧ p.sent = true ∧
     s.block.programSuspended p = false ∧ p.write.what = WriteWhat.stateBack o k g i ∧ ∃ (y : Layer), s.block.layer o k = some y
     ∧ y.gen = g ∧ ∃ (t : StateTile), y.tiles[i]? = some t ∧ t.tier.dirty = true ∧ t.tier.lost = false) ∧
    (∃ s : State, ∃ l : LunRef, s.awake ∧ s.block.Canonical ∧ ∃ (p : Program), List.find? (fun p => decide (p.lun = l))
     s.block.ftl.programs = some p ∧ p.failed = false ∧ p.sent = true ∧ s.block.programSuspended p = false) ∧
    (∃ s : State, ∃ z : Nat, s.awake ∧ s.block.Canonical ∧ Quiet s.block pFtl ∧ ∃ (x : Zone), s.block.zone z = some x ∧ x.log =
     false ∧ x.st = ZoneState.opened ∧ (x.filled = false ∨ x.durable < x.tiles.length)) ∧
    (∃ s : State, ∃ z : Nat, s.awake ∧ s.block.Canonical ∧ Quiet s.block pFtl ∧ ∃ (x : Zone), s.block.zone z = some x ∧ x.log =
     false ∧ x.st = ZoneState.opened ∧ x.filled = true ∧ x.tiles.length ≤ x.durable ∧ s.block.zlogFull = true) ∧
    (∃ s : State, ∃ z : Nat, s.awake ∧ s.block.Canonical ∧ Quiet s.block pFtl ∧ ∃ (x : Zone), s.block.zone z = some x ∧ x.log =
     false ∧ x.st = ZoneState.opened ∧ x.filled = true ∧ x.tiles.length ≤ x.durable ∧ s.block.zlogFull = false ∧ x.owner ≠
     ZoneOwner.table) ∧
    (∃ s : State, s.open_ ∧ s.block.Canonical ∧ Quiet s.block pFtl ∧ s.block.ftl.held = [] ∧ (∀ (x : Zone), x ∈
     s.block.ftl.zones → x.log = true ∨ x.st = ZoneState.sealed ∨ x.filled = false ∨ x.durable < x.tiles.length) ∧
     s.block.locked = false ∧ (s.block.pageState pFtl = 0 ∨ s.block.get pFtl 272 = 0)) ∧
    (∃ s : State, s.open_ ∧ s.block.Canonical ∧ Quiet s.block pFtl ∧ s.block.ftl.held = [] ∧ (∀ (x : Zone), x ∈
     s.block.ftl.zones → x.log = true ∨ x.st = ZoneState.sealed ∨ x.filled = false ∨ x.durable < x.tiles.length) ∧
     s.block.locked = false ∧ s.block.pageState pFtl ≠ 0 ∧ s.block.get pFtl 272 ≠ 0) ∧
    (∃ s : State, s.open_ ∧ s.block.Canonical ∧ Quiet s.block pFtl ∧ s.block.ftl.held = [] ∧ (∀ (x : Zone), x ∈
     s.block.ftl.zones → x.log = true ∨ x.st = ZoneState.sealed ∨ x.filled = false ∨ x.durable < x.tiles.length) ∧
     s.block.locked = true) ∧
    (∃ s : State, s.open_ ∧ s.block.Canonical ∧ Quiet s.block pFtl ∧ s.block.ftl.held = [] ∧ (∀ (x : Zone), x ∈
     s.block.ftl.zones → x.log = true ∨ x.st = ZoneState.sealed ∨ x.filled = false ∨ x.durable < x.tiles.length)) ∧
    (∃ s : State, ∃ r : BlockRef, s.awake ∧ s.block.Canonical ∧ ∃ (n : Nat), n = s.block.blockPages r ∧ s.block.mediaGoes = true
     ∧ s.block.rebuilding r = false ∧ s.block.moveServed r = true ∧ 1000 * s.block.fld pFtl 292 0 16 ≤ s.block.readCount r ∧
     (s.block.zoneAt r).isSome = true) ∧
    (∃ s : State, ∃ r : BlockRef, s.awake ∧ s.block.Canonical ∧ ∃ (n : Nat), n = s.block.blockPages r ∧ s.block.mediaGoes = true
     ∧ s.block.rebuilding r = false ∧ s.block.moveServed r = true ∧ r ∈ s.block.ftl.rewrites) ∧
    (∃ s : State, ∃ r : BlockRef, s.awake ∧ s.block.Canonical ∧ ∃ (n : Nat), n = s.block.blockPages r ∧ s.block.moveServed r =
     false) ∧
    (∃ s : State, ∃ r : BlockRef, s.awake ∧ s.block.Canonical ∧ ∃ (n : Nat), n = s.block.blockPages r ∧ (s.block.mediaGoes =
     false ∨ s.block.readCount r < 1000 * s.block.fld pFtl 292 0 16)) ∧
    (∃ s : State, ∃ r : BlockRef, s.awake ∧ s.block.Canonical ∧ ∃ (n : Nat), n = s.block.blockPages r ∧ (s.block.mediaGoes =
     false ∨ ¬r ∈ s.block.ftl.rewrites)) ∧
    (∃ s : State, ∃ r : BlockRef, s.awake ∧ s.block.Canonical ∧ ∃ (n : Nat), n = s.block.blockPages r ∧ (¬r ∈
     s.block.ftl.retired)) ∧
    (∃ s : State, ∃ r : BlockRef, s.awake ∧ s.block.Canonical ∧ ∃ (n : Nat), n = s.block.blockPages r ∧ r ∈ s.block.ftl.retired)
     ∧
    (∃ s : State, ∃ z : Nat, s.awake ∧ s.block.Canonical ∧ ∃ (x : Zone), s.block.zone z = some x ∧ x.log = true ∧ (∀ (y : Zone),
     y ∈ s.block.ftl.zones → y.number < s.block.ftl.nextZone) ∧ s.block.mediaWork = true ∧ (∀ (p : Program), p ∈
     s.block.ftl.programs → p.zone ≠ z)) ∧
    (∃ s : State, ∃ z : Nat, s.awake ∧ s.block.Canonical ∧ ∃ (x : Zone), s.block.zone z = some x ∧ x.log = true ∧ (∀ (y : Zone),
     y ∈ s.block.ftl.zones → y.number < s.block.ftl.nextZone) ∧ s.block.mediaWork = false) :=
  ⟨⟨⟨[], fxWith (fxFlash [] [fxHome] []) [((pFlc 20).at 0x0C, 2)]⟩, fxLun 20, 0, met inferInstance (by decide +kernel)⟩,
    ⟨⟨[], fxFlash [] [] [fxProg fxHome 5 false]⟩, (fxLun 20), 0, met inferInstance (by decide +kernel)⟩,
    ⟨⟨[], fxFlash [] [] [{ fxProg fxHome 5 false with sent := false }]⟩, fxLun 20, met inferInstance (by decide +kernel)⟩,
    ⟨⟨[], fxFlash [] [] [fxProg fxHome 5 false]⟩, (fxLun 20), met inferInstance (by decide +kernel)⟩,
    ⟨⟨[], fxFlash [fxRow 5 13 (some (.home 5 0))] [] [fxProg fxHome 5 false]⟩, (fxLun 20), met inferInstance
     (by decide +kernel)⟩,
    ⟨⟨[], fxPushing⟩, (fxLun 20), 3, 2, 0, 0, met inferInstance (by decide +kernel)⟩,
    ⟨⟨[], fxPublishing⟩, fxLun 20, 3, 7, 0, met inferInstance (by decide +kernel)⟩,
    ⟨⟨[], fxPoolBack⟩, fxLun 20, 3, 0, 0, met inferInstance (by decide +kernel)⟩,
    ⟨⟨[], fxStateBack⟩, fxLun 20, 3, 2, 0, 0, met inferInstance (by decide +kernel)⟩,
    ⟨⟨[], fxFlash [] [] [fxProg fxHome 5 false]⟩, (fxLun 20), met inferInstance (by decide +kernel)⟩,
    ⟨⟨[], fxFlash [] [] [fxProg fxHome 5 false]⟩, 5, met inferInstance (by decide +kernel)⟩,
    ⟨⟨[], fxSeal 1 4096 8 8⟩, 5, met inferInstance (by decide +kernel)⟩,
    ⟨⟨[], fxSeal 1 0 0 0⟩, 5, met inferInstance (by decide +kernel)⟩,
    ⟨⟨[], fxFlash [] [] [fxProg fxHome 5 false]⟩, met inferInstance (by decide +kernel)⟩,
    ⟨⟨[], fxWith fxMedia [(pFtl.at 0x110, 0x1000)]⟩, met inferInstance (by decide +kernel)⟩,
    ⟨⟨[], fxWith fxLocked [(pFtl.at 0x0C, 2)]⟩, met inferInstance (by decide +kernel)⟩,
    ⟨⟨[], fxFlash [] [] [fxProg fxHome 5 false]⟩, met inferInstance (by decide +kernel)⟩,
    ⟨⟨[], fxBlocks true false⟩, (fxBlk 20), met inferInstance (by decide +kernel)⟩,
    ⟨⟨[], fxBlocks true false⟩, (fxBlk 20), met inferInstance (by decide +kernel)⟩,
    ⟨⟨[], fxFlash [] [] [fxProg fxHome 5 false]⟩, (fxBlk 20), met inferInstance (by decide +kernel)⟩,
    ⟨⟨[], fxFlash [] [] [fxProg fxHome 5 false]⟩, (fxBlk 20), met inferInstance (by decide +kernel)⟩,
    ⟨⟨[], fxFlash [] [] [fxProg fxHome 5 false]⟩, (fxBlk 20), met inferInstance (by decide +kernel)⟩,
    ⟨⟨[], fxFlash [] [] [fxProg fxHome 5 false]⟩, (fxBlk 20), met inferInstance (by decide +kernel)⟩,
    ⟨⟨[], fxBlocks false true⟩, fxBlk 20, met inferInstance (by decide +kernel)⟩,
    ⟨⟨[], fxBlocks true false⟩, 6, met inferInstance (by decide +kernel)⟩,
    ⟨⟨[], fxWith (fxFlash [] [] []) [(pFtl.at 0x0C, 0)]⟩, 6, met inferInstance (by decide +kernel)⟩⟩

/-- The premises of CartridgesComeAndGo are met. -/
theorem witness_CartridgesComeAndGo :
    (∃ s : State, ∃ n : Fin 16, s.awake ∧ s.block.Canonical ∧ Quiet s.block (pBay ↑n) ∧ ∃ (x : Bay), x = s.block.bay ↑n ∧ x.st =
     0) ∧
    (∃ s : State, ∃ n : Fin 16, s.awake ∧ s.block.Canonical ∧ Quiet s.block (pBay ↑n) ∧ ∃ (x : Bay), x = s.block.bay ↑n ∧ x.st ≠
     0) ∧
    (∃ s : State, ∃ n : Fin 16, s.awake ∧ s.block.Canonical ∧ Quiet s.block (pBay ↑n) ∧ ∃ (x : Bay), x = s.block.bay ↑n ∧ x.st =
     1) ∧
    (∃ s : State, ∃ n : Fin 16, s.awake ∧ s.block.Canonical ∧ Quiet s.block (pBay ↑n) ∧ ∃ (x : Bay), x = s.block.bay ↑n ∧ x.st ≠
     1) ∧
    (∃ s : State, ∃ n : Fin 16, ∃ r : Bytes, ∃ ok : Bool, s.awake ∧ s.block.Canonical ∧ Quiet s.block (pBay ↑n) ∧ ∃ (x : Bay), x
     = s.block.bay ↑n ∧ x.st = 2 ∧ (recordOk r = false ∨ ok = false)) ∧
    (∃ s : State, ∃ n : Fin 16, ∃ r : Bytes, s.awake ∧ s.block.Canonical ∧ Quiet s.block (pBay ↑n) ∧ ∃ (x : Bay), x =
     s.block.bay ↑n ∧ x.st = 2 ∧ recordOk r = true ∧ ∃ (ok : Bool), ok = true ∧ s.block.recordMatches (↑n) r = true) ∧
    (∃ s : State, ∃ n : Fin 16, ∃ r : Bytes, s.awake ∧ s.block.Canonical ∧ Quiet s.block (pBay ↑n) ∧ ∃ (x : Bay), x =
     s.block.bay ↑n ∧ x.st = 2 ∧ recordOk r = true ∧ ∃ (ok : Bool), ok = true ∧ s.block.recordMatches (↑n) r = false) ∧
    (∃ s : State, ∃ n : Fin 16, s.awake ∧ s.block.Canonical ∧ Quiet s.block (pBay ↑n) ∧ ∃ (x : Bay), x = s.block.bay ↑n ∧ x.st ≠
     2) ∧
    (∃ s : State, ∃ n : Fin 16, s.awake ∧ s.block.Canonical ∧ Quiet s.block (pBay ↑n) ∧ ∃ (x : Bay), x = s.block.bay ↑n ∧ x.st =
     3 ∧ (x.format = true ∨ s.block.fld pFtl 300 16 1 = 1)) ∧
    (∃ s : State, ∃ n : Fin 16, s.awake ∧ s.block.Canonical ∧ Quiet s.block (pBay ↑n) ∧ ∃ (x : Bay), x = s.block.bay ↑n ∧ (x.st
     ≠ 3 ∨ x.format = false ∧ s.block.fld pFtl 300 16 1 = 0)) ∧
    (∃ s : State, ∃ n : Fin 16, s.awake ∧ s.block.Canonical ∧ Quiet s.block (pBay ↑n) ∧ ∃ (x : Bay), x = s.block.bay ↑n ∧ ∃ (e :
     Nat), e = ↑n ∧ ∃ (i : Instr), i ∈ [Instr.attentionPress n, Instr.bayCmdDrain n] ∧ x.st = 5 ∧ s.block.reachable = true ∧
     s.block.drainRefused e = true) ∧
    (∃ s : State, ∃ n : Fin 16, s.awake ∧ s.block.Canonical ∧ Quiet s.block (pBay ↑n) ∧ ∃ (x : Bay), x = s.block.bay ↑n ∧ ∃ (e :
     Nat), e = ↑n ∧ ∃ (i : Instr), i ∈ [Instr.attentionPress n, Instr.bayCmdDrain n] ∧ x.st = 5 ∧ s.block.reachable = true ∧
     s.block.drainRefused e = false) ∧
    (∃ s : State, ∃ n : Fin 16, s.awake ∧ s.block.Canonical ∧ Quiet s.block (pBay ↑n) ∧ ∃ (x : Bay), x = s.block.bay ↑n ∧ ∃ (e :
     Nat), e = ↑n ∧ ∃ (i : Instr), i ∈ [Instr.attentionPress n, Instr.bayCmdCancel n] ∧ x.st = 6 ∧ s.block.reachable = true) ∧
    (∃ s : State, ∃ n : Fin 16, s.awake ∧ s.block.Canonical ∧ Quiet s.block (pBay ↑n) ∧ ∃ (x : Bay), x = s.block.bay ↑n ∧ ∃ (e :
     Nat), e = ↑n ∧ x.st = 7) ∧
    (∃ s : State, ∃ n : Fin 16, s.awake ∧ s.block.Canonical ∧ Quiet s.block (pBay ↑n) ∧ ∃ (x : Bay), x = s.block.bay ↑n ∧ ∃ (e :
     Nat), e = ↑n ∧ (¬x.st ∈ [5, 6, 7])) ∧
    (∃ s : State, ∃ n : Fin 16, s.awake ∧ s.block.Canonical ∧ Quiet s.block (pBay ↑n) ∧ ∃ (x : Bay), x = s.block.bay ↑n ∧ ∃ (e :
     Nat), e = ↑n ∧ s.block.reachable = true ∧ x.st = 3) ∧
    (∃ s : State, ∃ n : Fin 16, s.awake ∧ s.block.Canonical ∧ Quiet s.block (pBay ↑n) ∧ ∃ (x : Bay), x = s.block.bay ↑n ∧ ∃ (e :
     Nat), e = ↑n ∧ s.block.reachable = true ∧ x.st ≠ 3) ∧
    (∃ s : State, ∃ n : Fin 16, s.awake ∧ s.block.Canonical ∧ Quiet s.block (pBay ↑n) ∧ ∃ (x : Bay), x = s.block.bay ↑n ∧ ∃ (e :
     Nat), e = ↑n ∧ s.block.reachable = true ∧ x.st ≠ 5) ∧
    (∃ s : State, ∃ n : Fin 16, s.awake ∧ s.block.Canonical ∧ Quiet s.block (pBay ↑n) ∧ ∃ (x : Bay), x = s.block.bay ↑n ∧ ∃ (e :
     Nat), e = ↑n ∧ s.block.reachable = true ∧ x.st ≠ 6) ∧
    (∃ s : State, ∃ n : Fin 16, s.awake ∧ s.block.Canonical ∧ Quiet s.block (pBay ↑n) ∧ ∃ (x : Bay), x = s.block.bay ↑n ∧ ∃ (e :
     Nat), e = ↑n ∧ x.st = 6 ∧ (∀ (c : Fin 64), ↑c / 4 = e → s.block.pageState (pFlc ↑c) = 0) ∧ (∀ (p : Program), p ∈
     s.block.ftl.programs → ↑p.lun.channel / 4 ≠ e)) ∧
    (∃ s : State, ∃ n : Fin 16, s.awake ∧ s.block.Canonical ∧ Quiet s.block (pBay ↑n) ∧ ∃ (x : Bay), x = s.block.bay ↑n ∧ ∃ (e :
     Nat), e = ↑n ∧ x.st ≠ 6) ∧
    (∃ s : State, ∃ n : Fin 16, s.awake ∧ s.block.Canonical ∧ Quiet s.block (pBay ↑n) ∧ ∃ (x : Bay), x = s.block.bay ↑n ∧ ∃ (e :
     Nat), e = ↑n ∧ x.st = 0) ∧
    (∃ s : State, ∃ n : Fin 16, s.awake ∧ s.block.Canonical ∧ Quiet s.block (pBay ↑n) ∧ ∃ (x : Bay), x = s.block.bay ↑n ∧ ∃ (e :
     Nat), e = ↑n ∧ x.st ≠ 0) ∧
    (∃ s : State, ∃ n : Fin 16, ∃ c : Fin 64, s.awake ∧ s.block.Canonical ∧ Quiet s.block (pBay ↑n) ∧ ∃ (x : Bay), x =
     s.block.bay ↑n ∧ ∃ (e : Nat), e = ↑n ∧ ↑c / 4 = e ∧ (x.st = 5 ∨ x.st = 6)) ∧
    (∃ s : State, ∃ n : Fin 16, ∃ c : Fin 64, s.awake ∧ s.block.Canonical ∧ Quiet s.block (pBay ↑n) ∧ ∃ (x : Bay), x =
     s.block.bay ↑n ∧ ∃ (e : Nat), e = ↑n ∧ ↑c / 4 = e ∧ x.st ≠ 5 ∧ x.st ≠ 6) ∧
    (∃ s : State, ∃ n : Fin 16, s.awake ∧ s.block.Canonical ∧ Quiet s.block (pBay ↑n) ∧ ∃ (x : Bay), x = s.block.bay ↑n ∧ ∃ (e :
     Nat), e = ↑n ∧ x.rail = true) ∧
    (∃ s : State, ∃ n : Fin 16, s.awake ∧ s.block.Canonical ∧ Quiet s.block (pBay ↑n) ∧ ∃ (x : Bay), x = s.block.bay ↑n ∧ ∃ (e :
     Nat), e = ↑n ∧ x.rail = false) ∧
    (∃ s : State, ∃ n : Fin 16, s.awake ∧ s.block.Canonical ∧ ∃ (x : Bay), x = s.block.bay ↑n ∧ s.block.ftl.rebuild = none ∧
     s.block.mediaWork = true ∧ ∃ (marks : List Nat), marks = List.map (fun c => (pFlc c).at 288) (List.range 64) ∧
     s.block.holdsMembers ↑n = true ∧ (x.st = 8 ∨ ∃ t, x.emptyAt = some t ∧ x.st = 0 ∧ t + 100000000 * s.block.fld pFtl 300 0 16
     ≤ s.block.meter)) ∧
    (∃ s : State, ∃ n : Fin 16, s.awake ∧ s.block.Canonical ∧ ∃ (x : Bay), x = s.block.bay ↑n ∧ s.block.ftl.rebuild = none ∧
     s.block.mediaWork = true ∧ ∃ (marks : List Nat), marks = List.map (fun c => (pFlc c).at 288) (List.range 64) ∧ x.st = 5 ∧
     x.fresh = true) ∧
    (∃ s : State, ∃ n : Fin 16, s.awake ∧ s.block.Canonical ∧ ∃ (x : Bay), x = s.block.bay ↑n ∧ (s.block.ftl.rebuild.isSome =
     true ∨ s.block.mediaWork = false)) ∧
    (∃ s : State, ∃ n : Fin 16, s.awake ∧ s.block.Canonical ∧ ∃ (x : Bay), x = s.block.bay ↑n ∧ (∃ e, e ∈ s.block.engines ∧ ∃ i,
     i ∈ e.snd.slow ++ e.snd.kept ∧ i.work = SlowWork.rebuild ∧ i.served = false)) ∧
    (∃ s : State, ∃ n : Fin 16, s.awake ∧ s.block.Canonical ∧ ∃ (x : Bay), x = s.block.bay ↑n ∧ (∀ (e : Nat × Engine), e ∈
     s.block.engines → ∀ (i : SlowItem), i ∈ e.snd.slow ++ e.snd.kept → i.work = SlowWork.rebuild → i.served = true) ∧
     s.block.ftl.rebuild = some (↑n, false)) ∧
    (∃ s : State, ∃ n : Fin 16, s.awake ∧ s.block.Canonical ∧ ∃ (x : Bay), x = s.block.bay ↑n ∧ (∀ (e : Nat × Engine), e ∈
     s.block.engines → ∀ (i : SlowItem), i ∈ e.snd.slow ++ e.snd.kept → i.work = SlowWork.rebuild → i.served = true) ∧
     s.block.ftl.rebuild = some (↑n, true)) :=
  ⟨⟨⟨[], fxDone⟩, 5, met inferInstance (by decide +kernel)⟩,
    ⟨⟨[], fxBay { st := 1, present := true, rail := true }⟩, 5, met inferInstance (by decide +kernel)⟩,
    ⟨⟨[], fxBay { st := 1, present := true, rail := true }⟩, 5, met inferInstance (by decide +kernel)⟩,
    ⟨⟨[], fxDone⟩, 5, met inferInstance (by decide +kernel)⟩,
    ⟨⟨[], fxIdentify true⟩, 5, fxIdRecord, false, met inferInstance (by decide +kernel)⟩,
    ⟨⟨[], fxIdentify true⟩, 5, fxIdRecord, met inferInstance (by decide +kernel)⟩,
    ⟨⟨[], fxIdentify false⟩, 5, fxIdRecord, met inferInstance (by decide +kernel)⟩,
    ⟨⟨[], fxDone⟩, 5, met inferInstance (by decide +kernel)⟩,
    ⟨⟨[], fxBay { st := 3, present := true, rail := true, serial := 77, format := true }⟩, 5, met inferInstance
     (by decide +kernel)⟩,
    ⟨⟨[], fxDone⟩, 5, met inferInstance (by decide +kernel)⟩,
    ⟨⟨[], fxRefused⟩, 5, met inferInstance (by decide +kernel)⟩,
    ⟨⟨[], fxBay { st := 5, present := true, rail := true, gen := 1 }⟩, 5, met inferInstance (by decide +kernel)⟩,
    ⟨⟨[], fxDrained⟩, 5, met inferInstance (by decide +kernel)⟩,
    ⟨⟨[], fxBay { st := 7, present := true }⟩, 5, met inferInstance (by decide +kernel)⟩,
    ⟨⟨[], fxDone⟩, 5, met inferInstance (by decide +kernel)⟩,
    ⟨⟨[], fxBay { st := 3, present := true, rail := true, serial := 77 }⟩, 5, met inferInstance (by decide +kernel)⟩,
    ⟨⟨[], fxDone⟩, 5, met inferInstance (by decide +kernel)⟩,
    ⟨⟨[], fxDone⟩, 5, met inferInstance (by decide +kernel)⟩,
    ⟨⟨[], fxDone⟩, 5, met inferInstance (by decide +kernel)⟩,
    ⟨⟨[], fxDrained⟩, 5, met inferInstance (by decide +kernel)⟩,
    ⟨⟨[], fxDone⟩, 5, met inferInstance (by decide +kernel)⟩,
    ⟨⟨[], fxDone⟩, 5, met inferInstance (by decide +kernel)⟩,
    ⟨⟨[], fxBay { st := 1, present := true, rail := true }⟩, 5, met inferInstance (by decide +kernel)⟩,
    ⟨⟨[], fxBay { st := 5, present := true, rail := true, gen := 1 }⟩, 5, 20, met inferInstance (by decide +kernel)⟩,
    ⟨⟨[], fxDone⟩, 5, 20, met inferInstance (by decide +kernel)⟩,
    ⟨⟨[], fxBay { st := 1, present := true, rail := true }⟩, 5, met inferInstance (by decide +kernel)⟩,
    ⟨⟨[], fxDone⟩, 5, met inferInstance (by decide +kernel)⟩,
    ⟨⟨[], fxBay { st := 8, present := true }⟩, 5, met inferInstance (by decide +kernel)⟩,
    ⟨⟨[], fxBay { st := 5, present := true, rail := true, fresh := true }⟩, 5, met inferInstance (by decide +kernel)⟩,
    ⟨⟨[], fxDone⟩, 5, met inferInstance (by decide +kernel)⟩,
    ⟨⟨[], fxRebuilding { st := 8, present := true }⟩, 5, met inferInstance (by decide +kernel)⟩,
    ⟨⟨[], fxRebuild false { st := 8, present := true }⟩, 5, met inferInstance (by decide +kernel)⟩,
    ⟨⟨[], fxRebuild true { st := 5, present := true, rail := true, fresh := true }⟩, 5, met inferInstance (by decide +kernel)⟩⟩

end Sys2Proof.Tests
end

section
/-! SUPPORT and proofs for the state after reset and for register accesses: where registers lie, what an operation
leaves of the register file, when an interrupt message is sent, and each access as its change of the block. -/

namespace Sys2Proof

open Machine

/-! ## Where registers lie in the window (R26) -/

theorem PageType.code_lt (t : PageType) : t.code < 23 := by cases t <;> decide

theorem PageType.instances_le (t : PageType) : t.instances ≤ 512 := by cases t <;> decide

@[simp] theorem PageType.ofCode_code (t : PageType) : PageType.ofCode t.code = some t := by cases t <;> rfl

theorem PageRef.inst_lt {p : PageRef} (hp : p.implemented = true) : p.inst < 512 :=
  Nat.lt_of_lt_of_le (of_decide_eq_true hp) p.type.instances_le

theorem PageRef.at_mod (p : PageRef) (off : Nat) : p.at off % 0x1000 = off % 0x1000 := by
  unfold PageRef.at PageRef.base; omega

/-- Registers at different page offsets lie at different window offsets. -/
theorem PageRef.at_ne {p q : PageRef} {off off' : Nat} (h : off % 0x1000 ≠ off' % 0x1000) : p.at off ≠ q.at off' := by
  intro e
  rw [← p.at_mod off, ← q.at_mod off', e] at h
  exact h rfl

/-- The register window ends below 64 MiB. -/
theorem PageRef.at_lt {p : PageRef} {off : Nat} (hp : p.implemented = true) (ho : off < 0x1000) : p.at off < 2 ^ 26 := by
  have hi := p.inst_lt hp
  have hc := p.type.code_lt
  unfold PageRef.at PageRef.base; omega

theorem PageRef.toNat_ofNat_at {p : PageRef} {off : Nat} (hp : p.implemented = true) (ho : off < 0x1000) :
    (BitVec.ofNat 26 (p.at off)).toNat = p.at off := by
  rw [BitVec.toNat_ofNat, Nat.mod_eq_of_lt (p.at_lt hp ho)]

theorem PageRef.at_type {p : PageRef} {off : Nat} (hp : p.implemented = true) (ho : off < 0x1000) :
    p.at off / 0x200000 = p.type.code := by
  have hi := p.inst_lt hp
  unfold PageRef.at PageRef.base; omega

theorem PageRef.at_inst {p : PageRef} {off : Nat} (hp : p.implemented = true) (ho : off < 0x1000) :
    p.at off % 0x200000 / 0x1000 = p.inst := by
  have hi := p.inst_lt hp
  unfold PageRef.at PageRef.base; omega

/-- The page of a window offset, from its type code and its number among the pages of its type. -/
theorem pageOf_eq_some {a : Nat} {p : PageRef} (htype : a / 0x200000 = p.type.code)
    (hinst : a % 0x200000 / 0x1000 = p.inst) (hp : p.implemented = true) : pageOf a = some p := by
  unfold pageOf
  rw [htype, hinst, PageType.ofCode_code]
  exact if_pos hp

theorem pageOf_at {p : PageRef} {off : Nat} (hp : p.implemented = true) (ho : off < 0x1000) : pageOf (p.at off) = some p :=
  pageOf_eq_some (PageRef.at_type hp ho) (PageRef.at_inst hp ho) hp

theorem findReg_common_reset {p : PageRef} {off : Nat} {d : RegDesc} (ho : off < 0x100) (hd : findReg p off = some d) :
    d.reset = 0 := by
  rw [findReg, if_pos ho] at hd
  exact (show ∀ d ∈ commonRegs, d.reset = 0 by decide) d (List.mem_of_find?_eq_some hd)

/-- Past PAGE_ID and PAGE_REV the common part of a page is reset to 0 (R10, R31). -/
theorem resetValue_common {a off : Nat} {p : PageRef} (hpage : pageOf a = some p) (hoff : a % 0x1000 = off)
    (hlo : 8 ≤ off) (hhi : off < 0x100) : resetValue a = 0 := by
  unfold resetValue
  rw [hpage, hoff]
  dsimp only
  rw [if_neg (show off ≠ 0 by omega), if_neg (show off ≠ 4 by omega), if_neg (fun h => absurd h.2 (by omega)),
    if_neg (fun h => absurd h.2.1 (by omega)), if_neg (fun h => absurd h.2 (by omega))]
  cases hd : findReg p off with
  | none => rfl
  | some d => simp only [findReg_common_reset hhi hd]; rfl

theorem resetValue_at {p : PageRef} {off : Nat} (hp : p.implemented = true) (hlo : 8 ≤ off) (hhi : off < 0x100) :
    resetValue (p.at off) = 0 :=
  resetValue_common (pageOf_at hp (by omega)) ((p.at_mod off).trans (Nat.mod_eq_of_lt (by omega))) hlo hhi

/-! ## Fields -/

theorem bits_eq_extractLsb' (v : BitVec 64) (lo w : Nat) : bits v lo w = (v.extractLsb' lo w).toNat := by
  simp [bits, BitVec.extractLsb'_toNat, Nat.shiftRight_eq_div_pow]

theorem getLsbD_low (v : BitVec 64) {i : Nat} (h : i < 32) :
    (BitVec.ofNat 64 (v.toNat % 2 ^ 32)).getLsbD i = v.getLsbD i := by
  rw [BitVec.getLsbD_ofNat, Nat.testBit_mod_two_pow, BitVec.testBit_toNat]
  simp [h, show i < 64 by omega]

/-- A field in the lower half is that of the word's low 32 bits, whatever masks both. -/
theorem bits_low_and (v m : BitVec 64) {lo w : Nat} (h : lo + w ≤ 32) :
    bits (BitVec.ofNat 64 (v.toNat % 2 ^ 32) &&& m) lo w = bits (v &&& m) lo w := by
  rw [bits_eq_extractLsb', bits_eq_extractLsb']
  congr 1
  apply BitVec.eq_of_getLsbD_eq
  intro i hi
  simp only [BitVec.getLsbD_extractLsb', BitVec.getLsbD_and, getLsbD_low v (show lo + i < 32 by omega)]

namespace Machine

/-! ## The state after reset -/

theorem reset_reg (a : Nat) : State.reset.block.reg a = resetValue a := rfl

theorem reset_pageState {p : PageRef} (hp : p.implemented = true) : State.reset.block.pageState p = 0 := by
  have hawake : State.reset.block.bivouac = false := rfl
  rw [Block.pageState, hawake, Block.fld, reset_reg, resetValue_at hp (by decide) (by decide)]
  decide

theorem reset_counter {p : PageRef} (hp : p.implemented = true) {n : Nat} (hn : n < 8) :
    State.reset.block.reg (p.at (0x40 + 8 * n)) = 0 := by
  rw [reset_reg, resetValue_at hp (by omega) (by omega)]

theorem reset_canonical : State.reset.block.Canonical where
  hostMem := rfl
  regs := rfl
  latches := rfl
  injected := rfl
  ports := rfl
  proxies := rfl
  sessions := rfl
  indexes := rfl
  stackSet := rfl
  engines := rfl
  bays := rfl
  links := rfl
  kept := nofun

theorem reset_canonicalParts : State.reset.block.CanonicalParts where
  domains := rfl
  flows := rfl
  shapers := rfl
  hwm := rfl
  slots := rfl
  firmware := rfl
  rx := rfl
  macs := rfl
  jobs := rfl
  mxcs := rfl
  staging := rfl
  fenced := rfl
  stores := rfl
  bands := rfl
  areas := nofun
  frames := nofun

theorem reset_numbersFresh : State.reset.block.NumbersFresh where
  cmds := nofun
  ctxs := nofun
  ops := nofun
  switches := nofun
  zones := nofun
  members := nofun

end Machine

/-- Settles O6: every clause is the value that the reset state's fields have, and the registers read as their reset
values, which are 0 in the common part of every page. -/
theorem resetState : Obligations.ResetState := by
  unfold Obligations.ResetState
  exact ⟨rfl, rfl, rfl, fun p hp => ⟨reset_pageState hp, fun n hn => reset_counter hp hn⟩,
    reset_canonical, reset_canonicalParts, reset_numbersFresh⟩

/-! ## Lists of sparse arrays -/

namespace Machine

theorem filterMap_sinsert {α β : Type} {f : Nat × α → Option β} {x : α} {i : Nat} (hf : ∀ v, f (i, v) = none)
    (l : Sparse α) : (sinsert i x l).filterMap f = l.filterMap f := by
  induction l with
  | nil => simp [sinsert, hf]
  | cons e l ih =>
    obtain ⟨k, v⟩ := e
    simp only [sinsert]
    split
    · simp [hf]
    · split
      · rename_i hik; subst hik; simp [hf]
      · simp [List.filterMap_cons, ih]

theorem filterMap_serase {α β : Type} {f : Nat × α → Option β} {i : Nat} (hf : ∀ v, f (i, v) = none) (l : Sparse α) :
    (serase i l).filterMap f = l.filterMap f := by
  induction l with
  | nil => rfl
  | cons e l ih =>
    obtain ⟨k, v⟩ := e
    simp only [serase]
    split
    · rename_i hik; subst hik; simp [hf]
    · simp [List.filterMap_cons, ih]

/-- What a function yields from an array is not changed by a write at a key from which it yields nothing. -/
theorem filterMap_sset {α β : Type} [DecidableEq α] {f : Nat × α → Option β} {d x : α} {i : Nat}
    (hf : ∀ v, f (i, v) = none) (l : Sparse α) : (sset d l i x).filterMap f = l.filterMap f := by
  unfold sset
  split
  · exact filterMap_serase hf l
  · exact filterMap_sinsert hf l

end Machine

/-! ## Registers that an operation leaves alone -/

theorem RegsBut.refl (l : List Nat) (b : Block) : RegsBut l b b := fun _ _ => rfl

theorem RegsBut.setReg {l : List Nat} {b c : Block} (h : RegsBut l b c) {a : Nat} (ha : a ∈ l) (v : BitVec 64) :
    RegsBut l b (c.setReg a v) :=
  fun x hx => (Block.reg_setReg_other c v (fun e => hx (by rw [e]; exact ha))).trans (h x hx)

theorem RegsBut.setFld {l : List Nat} {b c : Block} (h : RegsBut l b c) {p : PageRef} {off : Nat} (ha : p.at off ∈ l)
    (lo w n : Nat) : RegsBut l b (c.setFld p off lo w n) := h.setReg ha _

theorem RegsBut.put {l : List Nat} {b c : Block} (h : RegsBut l b c) {p : PageRef} {off : Nat} (ha : p.at off ∈ l)
    (n : Nat) : RegsBut l b (c.put p off n) := h.setReg ha _

theorem RegsBut.bump {l : List Nat} {b c : Block} (h : RegsBut l b c) {p : PageRef} {n : Nat}
    (ha : p.at (0x40 + 8 * n) ∈ l) (k : Nat) : RegsBut l b (c.bump p n k) := h.setReg ha _

/-- The value of a read goes to its reader, and to no register. -/
theorem RegsBut.deliver {l : List Nat} {b c : Block} (h : RegsBut l b c) (x : BitVec 64) :
    RegsBut l b (Block.deliver64 (x, c)) := h

namespace Machine

/-! ## Registers written whole, and counters -/

theorem Block.fld_put_same {b : Block} (h : swfBy resetValue b.regs = true) (p : PageRef) (off n lo w : Nat) :
    (b.put p off n).fld p off lo w = bits (BitVec.ofNat 64 n) lo w := by
  rw [Block.fld, Block.put, Block.reg_setReg_same h]

theorem Block.put_canonical {b : Block} (h : swfBy resetValue b.regs = true) (p : PageRef) (off n : Nat) :
    swfBy resetValue (b.put p off n).regs = true := Block.setReg_canonical h _ _

theorem Block.reg_bump_other (b : Block) {p : PageRef} {n k a : Nat} (h : a ≠ p.at (0x40 + 8 * n)) :
    (b.bump p n k).reg a = b.reg a := b.reg_setReg_other _ h

theorem Block.bump_canonical {b : Block} (h : swfBy resetValue b.regs = true) (p : PageRef) (n k : Nat) :
    swfBy resetValue (b.bump p n k).regs = true := Block.setReg_canonical h _ _

/-! ## The interrupt message (R40) -/

/-- All that the check for an interrupt message can do: nothing, or ARMED cleared and one message more. -/
theorem Block.notify_cases (b : Block) : b.notify = b ∨
    b.notify = { b.setFld pGlb 0x124 1 1 0 with out := { b.out with interrupts := b.out.interrupts + 1 } } := by
  unfold Block.notify
  split
  · exact .inr rfl
  · exact .inl rfl

/-- No message is sent while EN or ARMED is 0. -/
theorem Block.notify_of_unarmed {b : Block} (h : b.fld pGlb 0x124 0 2 ≠ 3) : b.notify = b :=
  if_neg (fun hc => h hc.1)

/-- No message is sent while no page asserts. -/
theorem Block.notify_of_silent {b : Block} (h : b.intSummary = 0) : b.notify = b :=
  if_neg (fun hc => hc.2 h)

/-- With EN and ARMED 1 and a page that asserts, one message is sent and ARMED clears. -/
theorem Block.notify_of_armed {b : Block} (h : b.fld pGlb 0x124 0 2 = 3) (hs : b.intSummary ≠ 0) :
    b.notify = { b.setFld pGlb 0x124 1 1 0 with out := { b.out with interrupts := b.out.interrupts + 1 } } :=
  if_pos ⟨h, hs⟩

theorem Block.reg_notify_other (b : Block) {a : Nat} (h : a ≠ pGlb.at 0x124) : b.notify.reg a = b.reg a := by
  obtain hn | hn := b.notify_cases <;> rw [hn]
  exact Block.reg_setReg_other b _ h

theorem Block.fld_notify_other (b : Block) {p : PageRef} {off : Nat} (lo w : Nat) (h : p.at off ≠ pGlb.at 0x124) :
    b.notify.fld p off lo w = b.fld p off lo w := by
  unfold Block.fld
  rw [b.reg_notify_other h]

/-- The interrupt message leaves INT_CTRL.EN as it is. -/
theorem Block.fld_notify_en {b : Block} (h : swfBy resetValue b.regs = true) :
    b.notify.fld pGlb 0x124 0 1 = b.fld pGlb 0x124 0 1 := by
  obtain hn | hn := b.notify_cases <;> rw [hn]
  exact Block.fld_setFld_disjoint h pGlb 0x124 0 (by decide) (by decide)

/-- The page offsets of the registers by which pages assert: ERR_STATUS, ERR_MASK, INT_STATUS and INT_ENABLE, and the CPL
interrupt registers of HLK (R40, R45). -/
def intOffsets : List Nat := [0x10, 0x14, 0x20, 0x24, 0x120, 0x128]

theorem Block.reg_intOffset_setReg (b : Block) {a : Nat} (v : BitVec 64) (h : a % 0x1000 ∉ intOffsets) (p : PageRef)
    {off : Nat} (ho : off ∈ intOffsets) : (b.setReg a v).reg (p.at off) = b.reg (p.at off) := by
  have hmod : off % 0x1000 = off := (show ∀ o ∈ intOffsets, o % 0x1000 = o by decide) off ho
  refine Block.reg_setReg_other b v (fun e => h ?_)
  rwa [← e, PageRef.at_mod, hmod]

theorem Block.errLive_setReg (b : Block) {a : Nat} (v : BitVec 64) (h : a % 0x1000 ∉ intOffsets) (p : PageRef) :
    (b.setReg a v).errLive p = b.errLive p := by
  unfold Block.errLive
  rw [b.reg_intOffset_setReg v h p (off := 0x10) (by decide), b.reg_intOffset_setReg v h p (off := 0x14) (by decide)]

theorem Block.intStatus_setReg (b : Block) {a : Nat} (v : BitVec 64) (h : a % 0x1000 ∉ intOffsets) (p : PageRef) :
    (b.setReg a v).intStatus p = b.intStatus p := by
  unfold Block.intStatus
  rw [b.errLive_setReg v h, b.reg_intOffset_setReg v h p (off := 0x20) (by decide),
    b.reg_intOffset_setReg v h p (off := 0x120) (by decide), b.reg_intOffset_setReg v h p (off := 0x128) (by decide)]

theorem Block.asserts_setReg (b : Block) {a : Nat} (v : BitVec 64) (h : a % 0x1000 ∉ intOffsets) :
    (b.setReg a v).asserts = b.asserts := by
  funext p
  unfold Block.asserts
  rw [b.intStatus_setReg v h, b.reg_intOffset_setReg v h p (off := 0x24) (by decide)]

theorem Block.enabledPages_setReg (b : Block) {a : Nat} (v : BitVec 64) (h : a % 0x1000 ∉ intOffsets) :
    (b.setReg a v).enabledPages = b.enabledPages :=
  filterMap_sset (fun _ => if_neg (fun e => h (by rw [e]; decide))) b.regs

/-- Writing any other register leaves the pages that assert as they are. -/
theorem Block.intSummary_setReg (b : Block) {a : Nat} (v : BitVec 64) (h : a % 0x1000 ∉ intOffsets) :
    (b.setReg a v).intSummary = b.intSummary := by
  unfold Block.intSummary
  rw [b.asserts_setReg v h, b.enabledPages_setReg v h]

theorem Block.intSummary_put (b : Block) {p : PageRef} {off : Nat} (n : Nat) (h : off % 0x1000 ∉ intOffsets) :
    (b.put p off n).intSummary = b.intSummary :=
  b.intSummary_setReg _ (by rwa [PageRef.at_mod])

end Machine

theorem RegsBut.notify {l : List Nat} {b c : Block} (h : RegsBut l b c) (ha : pGlb.at 0x124 ∈ l) : RegsBut l b c.notify :=
  fun x hx => (c.reg_notify_other (fun e => hx (by rw [e]; exact ha))).trans (h x hx)

/-! ## Errors recorded (R37, R38) -/

theorem RegsBut.raiseErr {l : List Nat} {b c : Block} (h : RegsBut l b c) {p : PageRef}
    (hl : ∀ a ∈ errRegs p, a ∈ l) (n k : Nat) : RegsBut l b (c.raiseErr p n k) := by
  have hstatus : p.at 0x10 ∈ l := hl _ (by simp [errRegs])
  have hfirst : p.at 0x1C ∈ l := hl _ (by simp [errRegs])
  have hctrl : pGlb.at 0x124 ∈ l := hl _ (by simp [errRegs])
  unfold Block.raiseErr
  dsimp only
  split
  · exact ((h.setFld hstatus _ _ _).put hfirst _).notify hctrl
  · exact (h.setFld hstatus _ _ _).notify hctrl

namespace Machine

/-- The error's bit of ERR_STATUS is set. -/
theorem Block.fld_raiseErr_same {b : Block} (h : swfBy resetValue b.regs = true) (p : PageRef) {n : Nat} (hn : n < 64)
    (k : Nat) : (b.raiseErr p n k).fld p 0x10 n 1 = 1 := by
  have hne {q : PageRef} {off : Nat} (ho : 0x10 ≠ off % 0x1000) : p.at 0x10 ≠ q.at off := PageRef.at_ne ho
  unfold Block.raiseErr
  dsimp only
  rw [Block.fld_notify_other _ _ _ (hne (by decide))]
  split
  · rw [Block.put, Block.fld, Block.reg_setReg_other _ _ (hne (by decide))]
    exact Block.fld_setFld_same h p 0x10 (by omega)
  · exact Block.fld_setFld_same h p 0x10 (by omega)

theorem Block.reg_raiseErr_other (b : Block) {p : PageRef} {a : Nat} (ha : a ∉ errRegs p) (n k : Nat) :
    (b.raiseErr p n k).reg a = b.reg a :=
  (RegsBut.refl (errRegs p) b).raiseErr (fun _ h => h) n k a ha

end Machine

/-! ## Where an access lands (R27) -/

namespace Machine

theorem locate_eq_some {a off : Nat} {p : PageRef} {d : RegDesc} (hpage : pageOf a = some p) (hoff : a % 0x1000 = off)
    (hd : findReg p off = some d) : locate a false = some ⟨p, d, off, false⟩ := by
  simp [locate, hpage, hoff, hd]

/-- An access at a register's own address lands on it. -/
theorem locate_at {p : PageRef} {off : Nat} {d : RegDesc} (hp : p.implemented = true) (ho : off < 0x1000)
    (hd : findReg p off = some d) : locate (p.at off) false = some ⟨p, d, off, false⟩ :=
  locate_eq_some (pageOf_at hp ho) ((p.at_mod off).trans (Nat.mod_eq_of_lt ho)) hd

/-- A 32-bit access at the address of a register of an implemented page. -/
theorem locate_ofNat_at {p : PageRef} {off : Nat} {d : RegDesc} (hp : p.implemented = true) (ho : off < 0x1000)
    (hd : findReg p off = some d) : locate (BitVec.ofNat 26 (p.at off)).toNat false = some ⟨p, d, off, false⟩ := by
  rw [PageRef.toNat_ofNat_at hp ho]
  exact locate_at hp ho hd

/-- The upper half of a register is named by a 32-bit access, of a 64-bit register. -/
theorem locate_upper {a : Nat} {wide : Bool} {t : Target} (h : locate a wide = some t) (hu : t.upper = true) :
    t.desc.bits = 64 := by
  unfold locate at h
  split at h
  · cases h
  · dsimp only at h
    split at h
    · split at h
      · cases h
      · cases h; cases hu
    · split at h
      · cases h
      · split at h
        · split at h
          · cases h; assumption
          · cases h
        · cases h

/-! ## Accesses that carry no error (R39) -/

theorem State.mem_when {s : State} {p : Bool} {l : List Carried} {c : Carried} (h : c ∈ s.when p l) : c ∈ l := by
  unfold State.when at h
  split at h
  · exact h
  · cases h

/-- A write of the common part, but for CTRL, carries errors of GLB alone. -/
theorem page_of_mem_writeErrs {s : State} {a : Nat} {wide : Bool} {t : Target} {c : Carried} (ht : locate a wide = some t)
    (hl : t.desc.hasRwl = false) (hctrl : t.off ≠ 8) (ho : t.off < 0x100) (hc : c ∈ writeErrs s a wide) : c.page = pGlb := by
  unfold writeErrs at hc
  rw [ht] at hc
  have hmem := State.mem_when hc
  simp only [hl, hctrl, ho, if_true, if_false, Bool.false_eq_true, List.append_nil, List.mem_singleton] at hmem
  rw [hmem]

theorem page_of_mem_readErrs {s : State} {a : Nat} {wide : Bool} {c : Carried} (hc : c ∈ readErrs s a wide) :
    c.page = pGlb := by
  rw [List.mem_singleton.mp (State.mem_when hc)]

/-! ## Reads (R28, R40) -/

/-- What a read returns of the register that an access names (R9). -/
def Target.shown (t : Target) (b : Block) : BitVec 64 := t.desc.hidden (BitVec.ofNat 64 (b.view t.page t.off))

/-- A register that is read whole returns what it shows, and the read leaves the block as it is. -/
theorem regRead_whole {a : Nat} {wide : Bool} {b : Block} {t : Target} (ht : locate a wide = some t)
    (hw : ¬ (t.desc.bits = 64 ∧ wide = false)) (hs : t.page.at t.off ≠ pGlb.at 0x120) :
    regRead a wide b = (t.shown b, b) := by
  have hw' : ¬ (t.desc.bits = 64 ∧ (!wide) = true) := by simpa using hw
  have hs' : ¬ (t.page = pGlb ∧ t.off = 0x120) := fun h => hs (by rw [h.1, h.2])
  simp only [regRead, ht, hw', hs', if_false, Target.shown, BitVec.ofNat_toNat, BitVec.setWidth_eq]

/-- A half of a 64-bit register is read by way of the register's latch. -/
theorem regRead_half {a : Nat} {b : Block} {t : Target} (ht : locate a false = some t) (hb : t.desc.bits = 64) :
    regRead a false b = b.readHalf (t.page.at t.off) (t.shown b).toNat t.upper := by
  simp [regRead, ht, hb, Target.shown]

/-- The two halves that a lower-half read yields are those of the value it reads. -/
theorem readHalf_lower_latched {b : Block} (v : BitVec 64) (a : Nat) :
    ∃ x, sget none (b.readHalf a v.toNat false).2.latches a = some x ∧
      (b.readHalf a v.toNat false).1.toNat + 2 ^ 32 * x.toNat = v.toNat := by
  have hset : sset none b.latches a (some (BitVec.ofNat 32 (v.toNat / 2 ^ 32))) =
      sinsert a (some (BitVec.ofNat 32 (v.toNat / 2 ^ 32))) b.latches := if_neg (by simp)
  refine ⟨_, (congrArg (sget none · a) hset).trans sget_sinsert_same, ?_⟩
  have hv := v.isLt
  simp only [Block.readHalf, Bool.false_eq_true, if_false, BitVec.toNat_ofNat]
  omega

/-- An upper-half read returns the register's latch. -/
theorem readHalf_upper_of_latch {b : Block} {a : Nat} {x : BitVec 32} (h : sget none b.latches a = some x) (n : Nat) :
    (b.readHalf a n true).1 = x.setWidth 64 := by
  simp [Block.readHalf, h]

/-- Without a latch it returns the live half. -/
theorem readHalf_upper_live {b : Block} {a : Nat} (h : sget none b.latches a = none) (v : BitVec 64) :
    (b.readHalf a v.toNat true).1.toNat = v.toNat / 2 ^ 32 := by
  have hv := v.isLt
  simp only [Block.readHalf, h, if_true, BitVec.toNat_ofNat]
  omega

/-- After it the latch is empty. -/
theorem readHalf_upper_empties {b : Block} (hc : swf none b.latches = true) (a n : Nat) :
    sget none (b.readHalf a n true).2.latches a = none := by
  cases h : sget none b.latches a with
  | none => simp [Block.readHalf, h]
  | some x => simp [Block.readHalf, h, sget_sset_same hc]

/-- A half read changes latches alone. -/
theorem readHalf_frame (b : Block) (a n : Nat) (upper : Bool) :
    ∃ l, (b.readHalf a n upper).2 = { b with latches := l } := by
  unfold Block.readHalf
  split
  · split
    · exact ⟨_, rfl⟩
    · exact ⟨b.latches, rfl⟩
  · exact ⟨_, rfl⟩

/-! ## Meanings in a state whose register window answers -/

theorem exec_lowerHalfRead {s : State} (ho : s.open_) (hq : Quiet s.block pGlb) (off : BitVec 26) (wide : Bool) :
    exec (.lowerHalfRead ⟨off, wide⟩) s =
      .next { s with block := Block.deliver64 (regRead off.toNat wide (s.block.bump pHlk 2)) } := by
  obtain ⟨⟨hpower, hbiv⟩, hreach⟩ := ho
  show State.carrying s (readErrs s off.toNat wide) (ownLowerHalfRead ⟨off, wide⟩) = _
  rw [State.carrying_quiet (fun c hc => page_of_mem_readErrs hc ▸ hq), ownLowerHalfRead,
    State.onRead_open hpower hbiv hreach, hostRead]

theorem exec_upperHalfRead {s : State} (ho : s.open_) (hq : Quiet s.block pGlb) (off : BitVec 26) :
    exec (.upperHalfRead off) s =
      .next { s with block := Block.deliver64 (regRead off.toNat false (s.block.bump pHlk 2)) } := by
  obtain ⟨⟨hpower, hbiv⟩, hreach⟩ := ho
  show State.carrying s (readErrs s off.toNat false) (ownUpperHalfRead off) = _
  rw [State.carrying_quiet (fun c hc => page_of_mem_readErrs hc ▸ hq), ownUpperHalfRead,
    State.onRead_open hpower hbiv hreach, hostRead]

theorem exec_intSummaryRead {s : State} (ho : s.open_) :
    exec .intSummaryRead s =
      .next { s with block := Block.deliver64 (regRead (pGlb.at 0x120) false (s.block.bump pHlk 2)) } := by
  obtain ⟨⟨hpower, hbiv⟩, hreach⟩ := ho
  show Host.Outcome.next (s.onRead (hostRead (pGlb.at 0x120) false)) = _
  rw [State.onRead_open hpower hbiv hreach, hostRead]

theorem exec_intCtrlEnWrite {s : State} (ho : s.open_) (v : BitVec 32) :
    exec (.intCtrlEnWrite v) s = .next { s with block := intCtrlWrite v (s.block.bump pHlk 3) } := by
  obtain ⟨⟨hpower, hbiv⟩, hreach⟩ := ho
  show Host.Outcome.next (s.onWrite (intCtrlWrite v)) = _
  rw [State.onWrite_open hpower hbiv hreach]

/-- A write that carries no armed error is the write. -/
theorem exec_registerWrite {s : State} (ho : s.open_) {off : BitVec 26} {wide : Bool}
    (hq : ∀ c ∈ writeErrs s off.toNat wide, Quiet s.block c.page) (v : BitVec 64) :
    exec (.registerWrite off wide v) s = .next { s with block := regWrite off.toNat wide v (s.block.bump pHlk 3) } := by
  obtain ⟨⟨hpower, hbiv⟩, hreach⟩ := ho
  show State.carrying s (writeErrs s off.toNat wide) (ownRegisterWrite off wide v) = _
  rw [State.carrying_quiet hq, ownRegisterWrite, State.onWrite_open hpower hbiv hreach]

theorem exec_invalidAccess {s : State} (ho : s.open_) {off : BitVec 26} {size : Nat}
    (hv : validAccess off.toNat size = false) (write : Bool) :
    exec (.invalidAccess off size write) s =
      .next { s with block :=
        if write then s.block.badAccess off.toNat else Block.deliver64 (0, s.block.badAccess off.toNat) } := by
  obtain ⟨⟨hpower, hbiv⟩, hreach⟩ := ho
  show Host.Outcome.next (s.on (invalidAccess off.toNat size write)) = _
  rw [State.on_awake hpower hbiv]
  simp [invalidAccess, hreach, hv]

/-- The command of an access that R27 admits is no access. -/
theorem exec_invalidAccess_of_valid (s : State) {off : BitVec 26} {size : Nat} (hv : validAccess off.toNat size = true)
    (write : Bool) : exec (.invalidAccess off size write) s = .next s := by
  have hid : invalidAccess off.toNat size write = id := by funext b; simp [invalidAccess, hv]
  show Host.Outcome.next (s.on (invalidAccess off.toNat size write)) = _
  rw [hid]
  simp [State.on, State.onPowered, State.onSled]

theorem exec_unreachableAccess {s : State} (hr : s.block.reachable = false) (off : BitVec 26) (write : Bool) :
    exec (.unreachableAccess off write) s =
      .next { s with block := if write then s.block else Block.deliver64 (0xFFFFFFFF, s.block) } := by
  show Host.Outcome.next (s.onSled (unreachableAccess write)) = _
  simp [State.onSled, unreachableAccess, hr]

/-! ## INT_SUMMARY and INT_CTRL (R40) -/

/-- A read of INT_SUMMARY returns it, and an all-zero one sets ARMED. -/
theorem regRead_intSummary (b : Block) :
    regRead (pGlb.at 0x120) false b = (b.intSummary, b.readSummary b.intSummary.toNat) := by
  have ht : locate (pGlb.at 0x120) false = some ⟨pGlb, ⟨0x120, 1, 4, 32, 0, .keepField, []⟩, 0x120, false⟩ := by decide
  have hv : b.view pGlb 0x120 = b.intSummary.toNat := rfl
  simp [regRead, ht, hv, RegDesc.hidden]

/-- An all-zero read sets ARMED and sends nothing. -/
theorem Block.readSummary_of_silent {b : Block} (h : b.intSummary = 0) :
    b.readSummary b.intSummary.toNat = b.setFld pGlb 0x124 1 1 1 := by
  have hs : (b.setFld pGlb 0x124 1 1 1).intSummary = 0 := (b.intSummary_setReg _ (by decide)).trans h
  rw [Block.readSummary, if_pos (by rw [h]; rfl), Block.notify_of_silent hs]

theorem Block.readSummary_of_asserting {b : Block} (h : b.intSummary ≠ 0) : b.readSummary b.intSummary.toNat = b :=
  if_neg (fun e => h (BitVec.eq_of_toNat_eq e))

/-- EN 0 clears INT_CTRL. -/
theorem intCtrlWrite_of_disable {v : BitVec 32} (hv : v.getLsbD 0 = false) {b : Block}
    (h : swfBy resetValue b.regs = true) : intCtrlWrite v b = b.put pGlb 0x124 0 := by
  have hunarmed : (b.put pGlb 0x124 0).fld pGlb 0x124 0 2 ≠ 3 := by
    rw [Block.fld_put_same h]; decide
  rw [← Block.notify_of_unarmed hunarmed]
  simp only [intCtrlWrite, hv]
  rfl

/-- EN from 0 to 1 sets ARMED, and a message is sent when a page asserts. -/
theorem intCtrlWrite_of_enable {v : BitVec 32} (hv : v.getLsbD 0 = true) {b : Block} (hen : b.fld pGlb 0x124 0 1 = 0) :
    intCtrlWrite v b = (b.put pGlb 0x124 3).notify := by
  simp only [intCtrlWrite, hv, hen]
  rfl

/-- EN written 1 again leaves ARMED as it is. -/
theorem intCtrlWrite_of_enabled {v : BitVec 32} (hv : v.getLsbD 0 = true) {b : Block} (hen : b.fld pGlb 0x124 0 1 ≠ 0) :
    intCtrlWrite v b = (b.put pGlb 0x124 (1 + b.get pGlb 0x124 / 2 * 2)).notify := by
  simp only [intCtrlWrite, hv, if_neg hen]
  rfl

/-- All that an INT_CTRL write can do: the register written, and the interrupt message. -/
theorem intCtrlWrite_eq (v : BitVec 32) (b : Block) : ∃ n, n % 2 = flag (v.getLsbD 0) ∧
    intCtrlWrite v b = (b.put pGlb 0x124 n).notify := by
  refine ⟨_, ?_, rfl⟩
  cases v.getLsbD 0 with
  | false => rfl
  | true =>
    simp only [flag, if_true, Bool.not_true, Bool.false_eq_true, if_false]
    split <;> omega

theorem intCtrlWrite_en (v : BitVec 32) {b : Block} (h : swfBy resetValue b.regs = true) :
    (intCtrlWrite v b).fld pGlb 0x124 0 1 = flag (v.getLsbD 0) := by
  obtain ⟨n, hn, heq⟩ := intCtrlWrite_eq v b
  rw [heq, Block.fld_notify_en (Block.put_canonical h _ _ _), Block.fld_put_same h, ← hn]
  simp only [bits, BitVec.toNat_ofNat]
  omega

end Machine

theorem RegsBut.intCtrlWrite {l : List Nat} {b c : Block} (h : RegsBut l b c) (ha : pGlb.at 0x124 ∈ l) (v : BitVec 32) :
    RegsBut l b (Machine.intCtrlWrite v c) := by
  obtain ⟨n, -, heq⟩ := intCtrlWrite_eq v c
  rw [heq]
  exact (h.put ha n).notify ha

namespace Machine

@[simp] theorem intCtrlWrite_cmds (v : BitVec 32) (b : Block) : (intCtrlWrite v b).cmds = b.cmds := by
  simp [intCtrlWrite]

@[simp] theorem intCtrlWrite_hostMem (v : BitVec 32) (b : Block) : (intCtrlWrite v b).hostMem = b.hostMem := by
  simp [intCtrlWrite]

/-- Enabling with no page that asserts: ARMED is set. -/
theorem intCtrlWrite_enable_silent {v : BitVec 32} (hv : v.getLsbD 0 = true) {b : Block}
    (h : swfBy resetValue b.regs = true) (hen : b.fld pGlb 0x124 0 1 = 0) (hs : b.intSummary = 0) :
    (intCtrlWrite v b).fld pGlb 0x124 1 1 = 1 ∧ (intCtrlWrite v b).out.interrupts = b.out.interrupts := by
  rw [intCtrlWrite_of_enable hv hen, Block.notify_of_silent ((b.intSummary_put 3 (by decide)).trans hs),
    Block.fld_put_same h]
  exact ⟨by decide, rfl⟩

/-- Enabling with a page that asserts: one message is sent, and ARMED is clear. -/
theorem intCtrlWrite_enable_asserting {v : BitVec 32} (hv : v.getLsbD 0 = true) {b : Block}
    (h : swfBy resetValue b.regs = true) (hen : b.fld pGlb 0x124 0 1 = 0) (hs : b.intSummary ≠ 0) :
    (intCtrlWrite v b).fld pGlb 0x124 1 1 = 0 ∧ (intCtrlWrite v b).out.interrupts = b.out.interrupts + 1 := by
  have harmed : (b.put pGlb 0x124 3).fld pGlb 0x124 0 2 = 3 := by rw [Block.fld_put_same h]; decide
  have hasserts : (b.put pGlb 0x124 3).intSummary ≠ 0 := by
    rw [Block.intSummary_put b 3 (by decide)]
    exact hs
  rw [intCtrlWrite_of_enable hv hen, Block.notify_of_armed harmed hasserts]
  exact ⟨Block.fld_setFld_same (Block.put_canonical h _ _ _) _ _ (by decide), rfl⟩

/-- Written 1 again with ARMED 0: ARMED stays 0 and nothing is sent. -/
theorem intCtrlWrite_enabled_unarmed {v : BitVec 32} (hv : v.getLsbD 0 = true) {b : Block}
    (h : swfBy resetValue b.regs = true) (hen : b.fld pGlb 0x124 0 2 = 1) :
    (intCtrlWrite v b).fld pGlb 0x124 1 1 = 0 ∧ (intCtrlWrite v b).out.interrupts = b.out.interrupts := by
  have hlt := (b.reg (pGlb.at 0x124)).isLt
  have hen1 : b.fld pGlb 0x124 0 1 ≠ 0 := by unfold Block.fld bits at *; omega
  have hbits : ∀ lo w, (b.put pGlb 0x124 (1 + b.get pGlb 0x124 / 2 * 2)).fld pGlb 0x124 lo w = b.fld pGlb 0x124 lo w := by
    have hodd : 1 + b.get pGlb 0x124 / 2 * 2 = b.get pGlb 0x124 := by
      unfold Block.fld bits Block.get at *; omega
    intro lo w
    rw [Block.fld_put_same h, hodd, Block.get, BitVec.ofNat_toNat, BitVec.setWidth_eq, Block.fld]
  rw [intCtrlWrite_of_enabled hv hen1, Block.notify_of_unarmed (by rw [hbits, hen]; decide), hbits]
  refine ⟨?_, rfl⟩
  unfold Block.fld bits at *; omega

/-! ## ERR_MASK and INT_ENABLE (R9, R31) -/

/-- The row of a register with a mask of `n` common bits and one of a page's own 16 bits. -/
def maskRow (off n : Nat) : RegDesc :=
  ⟨off, 1, 4, 32, 0, .keepField, [⟨.rw, 0, n, 0, 2 ^ n - 1⟩, ⟨.rw, 16, 16, 0, 2 ^ 16 - 1⟩]⟩

theorem findReg_errMask (p : PageRef) : findReg p 0x14 = some (maskRow 0x14 7) := rfl

theorem findReg_intEnable (p : PageRef) : findReg p 0x24 = some (maskRow 0x24 4) := rfl

theorem writeCommon_errMask (p : PageRef) (d : RegDesc) (w : BitVec 64) (b : Block) :
    writeCommon p d 0x14 w b = (b.writeFields p d 0x14 (w &&& p.errBits)).notify := rfl

theorem writeCommon_intEnable (p : PageRef) (d : RegDesc) (w : BitVec 64) (b : Block) :
    writeCommon p d 0x24 w b = (b.writeFields p d 0x24 (w &&& p.intBits)).notify := rfl

/-- A field that admits every value takes the value written. -/
theorem Field.apply_rw_all (locked : Bool) (lo w : Nat) (x old : BitVec 64) :
    Field.apply locked ⟨.rw, lo, w, 0, 2 ^ w - 1⟩ x old = some (setBits old lo w (bits x lo w)) :=
  if_pos ⟨Nat.zero_le _, Nat.le_sub_one_of_lt (bits_lt x lo w)⟩

theorem Block.writeFields_maskRow (b : Block) (p : PageRef) (off n : Nat) (w : BitVec 64) :
    b.writeFields p (maskRow off n) off w =
      b.setReg (p.at off) (setBits (setBits (b.reg (p.at off)) 0 n (bits w 0 n)) 16 16 (bits w 16 16)) := by
  have hrwl : (maskRow off n).hasRwl = false := rfl
  have hfields : applyFields b.locked (maskRow off n).policy (maskRow off n).fields w (b.reg (p.at off)) =
      (setBits (setBits (b.reg (p.at off)) 0 n (bits w 0 n)) 16 16 (bits w 16 16), none) := by
    simp only [applyFields, maskRow, List.foldl, Field.apply_rw_all, Option.getD_some]
  rw [Block.writeFields, hfields, hrwl]
  simp

/-- A write of such a register, of which the page uses the bits of `m`, gives the mask the bits written. -/
theorem regWrite_maskRow {a off n : Nat} {p : PageRef} {m : BitVec 64}
    (ht : locate a false = some ⟨p, maskRow off n, off, false⟩) (hoff : off < 0x100)
    (hw : ∀ w b, writeCommon p (maskRow off n) off w b = (b.writeFields p (maskRow off n) off (w &&& m)).notify)
    (v : BitVec 64) (b : Block) :
    regWrite a false v b =
      (b.writeFields p (maskRow off n) off (BitVec.ofNat 64 (v.toNat % 2 ^ 32) &&& m)).notify := by
  simp only [regWrite, ht, writeReg, hoff, if_true, hw, writeWord, show (maskRow off n).bits = 32 from rfl]

/-- The same as a command of the host die, which it counts; no other register but INT_CTRL changes. -/
theorem completes_maskWrite {s : State} {a : BitVec 26} {off n : Nat} {p : PageRef} {m : BitVec 64} (ho : s.open_)
    (hc : s.block.Canonical) (hq : Quiet s.block pGlb)
    (ht : locate a.toNat false = some ⟨p, maskRow off n, off, false⟩) (hoff : off < 0x100) (hctrl : off ≠ 8) (hn : n ≤ 16)
    (hw : ∀ w b, writeCommon p (maskRow off n) off w b = (b.writeFields p (maskRow off n) off (w &&& m)).notify)
    (v : BitVec 64) :
    Completes (.registerWrite a false v) s (fun b =>
      b.fld p off 0 n = bits (v &&& m) 0 n ∧ b.fld p off 16 16 = bits (v &&& m) 16 16 ∧
      b.hostMem = s.block.hostMem ∧ RegsBut [p.at off, pHlk.at 0x58, pGlb.at 0x124] s.block b) := by
  have hquiet : ∀ c ∈ writeErrs s a.toNat false, Quiet s.block c.page :=
    fun c hmem => page_of_mem_writeErrs ht rfl hctrl hoff hmem ▸ hq
  have hregs := Block.bump_canonical hc.regs pHlk 3 1
  have hne : p.at off ≠ pGlb.at 0x124 := PageRef.at_ne (by omega)
  refine ⟨_, exec_registerWrite ho hquiet v, ?_⟩
  rw [regWrite_maskRow ht hoff hw, Block.writeFields_maskRow]
  refine ⟨?_, ?_, by rw [Block.notify_hostMem, Block.setReg_hostMem, Block.bump_hostMem], ?_⟩
  · rw [Block.fld_notify_other _ _ _ hne, Block.fld, Block.reg_setReg_same hregs,
      bits_setBits_other _ _ (by decide) (.inl (by omega)), bits_setBits_same _ (by omega), bits_low_and _ _ (by omega),
      Nat.mod_eq_of_lt (bits_lt _ _ _)]
  · rw [Block.fld_notify_other _ _ _ hne, Block.fld, Block.reg_setReg_same hregs, bits_setBits_same _ (by decide),
      bits_low_and _ _ (by decide), Nat.mod_eq_of_lt (bits_lt _ _ _)]
  · exact (((RegsBut.refl _ _).bump (by simp) 1).setReg (by simp) _).notify (by simp)

end Machine

/-! ## Register accesses, row by row (R9, R27, R28, R30, R40) -/

/-- A write of ERR_MASK gives its two fields the bits written that the page uses (R8, R37). -/
theorem completes_errMaskWrite {s : State} {p : PageRef} (v : BitVec 64) (ho : s.open_) (hc : s.block.Canonical)
    (hp : p.implemented = true) (hq : Quiet s.block pGlb) :
    Completes (.registerWrite (BitVec.ofNat 26 (p.at 0x14)) false v) s (fun b =>
      b.fld p 0x14 0 7 = bits (v &&& p.errBits) 0 7 ∧ b.fld p 0x14 16 16 = bits (v &&& p.errBits) 16 16 ∧
      b.hostMem = s.block.hostMem ∧ RegsBut [p.at 0x14, pHlk.at 0x58, pGlb.at 0x124] s.block b) :=
  completes_maskWrite ho hc hq (locate_ofNat_at hp (by decide) (findReg_errMask p)) (by decide) (by decide) (by decide)
    (writeCommon_errMask p _) v

/-- A write of INT_ENABLE does the same by the page's interrupt causes (R8, R40). -/
theorem completes_intEnableWrite {s : State} {p : PageRef} (v : BitVec 64) (ho : s.open_) (hc : s.block.Canonical)
    (hp : p.implemented = true) (hq : Quiet s.block pGlb) :
    Completes (.registerWrite (BitVec.ofNat 26 (p.at 0x24)) false v) s (fun b =>
      b.fld p 0x24 0 4 = bits (v &&& p.intBits) 0 4 ∧ b.fld p 0x24 16 16 = bits (v &&& p.intBits) 16 16 ∧
      b.hostMem = s.block.hostMem ∧ RegsBut [p.at 0x24, pHlk.at 0x58, pGlb.at 0x124] s.block b) :=
  completes_maskWrite ho hc hq (locate_ofNat_at hp (by decide) (findReg_intEnable p)) (by decide) (by decide) (by decide)
    (writeCommon_intEnable p _) v

theorem completes_intSummaryRead {s : State} (ho : s.open_) (hc : s.block.Canonical) :
    Completes .intSummaryRead s (fun b => b.out.readData = (s.block.bump pHlk 2).intSummary ∧
      b.out.interrupts = s.block.out.interrupts ∧ b.cmds = s.block.cmds ∧ b.hostMem = s.block.hostMem ∧
      ((s.block.bump pHlk 2).intSummary = 0 → b.fld pGlb 0x124 1 1 = 1 ∧ RegsBut [pHlk.at 0x50, pGlb.at 0x124] s.block b) ∧
      ((s.block.bump pHlk 2).intSummary ≠ 0 → RegsBut [pHlk.at 0x50] s.block b)) := by
  have hcanon := Block.bump_canonical hc.regs pHlk 2 1
  have hregs {l : List Nat} (h : pHlk.at 0x50 ∈ l) : RegsBut l s.block (s.block.bump pHlk 2) :=
    (RegsBut.refl _ _).bump h 1
  refine ⟨_, exec_intSummaryRead ho, ?_⟩
  rw [regRead_intSummary]
  by_cases hs : (s.block.bump pHlk 2).intSummary = 0
  · rw [Block.readSummary_of_silent hs]
    have harmed := Block.fld_setFld_same hcanon pGlb 0x124 (lo := 1) (w := 1) (n := 1) (by decide)
    have hbut : RegsBut [pHlk.at 0x50, pGlb.at 0x124] s.block ((s.block.bump pHlk 2).setFld pGlb 0x124 1 1 1) :=
      (hregs (by simp)).setFld (by simp) 1 1 1
    exact ⟨rfl, rfl, rfl, rfl, fun _ => ⟨harmed, hbut.deliver _⟩, fun hn => absurd hs hn⟩
  · rw [Block.readSummary_of_asserting hs]
    exact ⟨rfl, rfl, rfl, rfl, fun h => absurd h hs, fun _ => (hregs (by simp)).deliver _⟩

theorem completes_intCtrlEnWrite {s : State} (v : BitVec 32) (ho : s.open_) (hc : s.block.Canonical) :
    Completes (.intCtrlEnWrite v) s (fun b => b.fld pGlb 0x124 0 1 = flag (v.getLsbD 0) ∧
      RegsBut [pHlk.at 0x58, pGlb.at 0x124] s.block b ∧ b.cmds = s.block.cmds ∧ b.hostMem = s.block.hostMem ∧
      (v.getLsbD 0 = false → b.fld pGlb 0x124 1 1 = 0 ∧ b.out.interrupts = s.block.out.interrupts) ∧
      (v.getLsbD 0 = true → s.block.fld pGlb 0x124 0 1 = 0 → (s.block.bump pHlk 3).intSummary = 0 →
        b.fld pGlb 0x124 1 1 = 1 ∧ b.out.interrupts = s.block.out.interrupts) ∧
      (v.getLsbD 0 = true → s.block.fld pGlb 0x124 0 1 = 0 → (s.block.bump pHlk 3).intSummary ≠ 0 →
        b.fld pGlb 0x124 1 1 = 0 ∧ b.out.interrupts = s.block.out.interrupts + 1) ∧
      (v.getLsbD 0 = true → s.block.fld pGlb 0x124 0 2 = 1 →
        b.fld pGlb 0x124 1 1 = 0 ∧ b.out.interrupts = s.block.out.interrupts)) := by
  have hregs := Block.bump_canonical hc.regs pHlk 3 1
  have hctrl : ∀ lo w, (s.block.bump pHlk 3).fld pGlb 0x124 lo w = s.block.fld pGlb 0x124 lo w := fun lo w =>
    congrArg (bits · lo w) (s.block.reg_bump_other (PageRef.at_ne (by decide)))
  refine ⟨_, exec_intCtrlEnWrite ho v, intCtrlWrite_en v hregs, ?_, ?_, ?_, fun hv => ?_, fun hv hen hs => ?_,
    fun hv hen hs => ?_, fun hv hen => ?_⟩
  · exact ((RegsBut.refl _ _).bump (by simp) 1).intCtrlWrite (by simp) v
  · rw [intCtrlWrite_cmds, Block.bump_cmds]
  · rw [intCtrlWrite_hostMem, Block.bump_hostMem]
  · rw [intCtrlWrite_of_disable hv hregs, Block.fld_put_same hregs]
    exact ⟨by decide, rfl⟩
  · exact intCtrlWrite_enable_silent hv hregs ((hctrl 0 1).trans hen) hs
  · exact intCtrlWrite_enable_asserting hv hregs ((hctrl 0 1).trans hen) hs
  · exact intCtrlWrite_enabled_unarmed hv hregs ((hctrl 0 2).trans hen)

namespace Machine

/-! ## Invalid accesses (R27) -/

/-- While ACCESS is set, a further invalid access leaves no trace. -/
theorem Block.badAccess_of_set {b : Block} (h : b.fld pGlb 0x10 5 1 = 1) (off : Nat) : b.badAccess off = b := if_pos h

theorem Block.badAccess_of_clear {b : Block} (h : b.fld pGlb 0x10 5 1 = 0) (off : Nat) :
    b.badAccess off = (b.put pGlb 0x128 (off % 2 ^ 26)).raiseErr pGlb 5 := if_neg (by rw [h]; decide)

@[simp] theorem Block.badAccess_cmds (b : Block) (off : Nat) : (b.badAccess off).cmds = b.cmds := by
  unfold Block.badAccess
  split
  · rfl
  · rw [Block.raiseErr_cmds, Block.put_cmds]

@[simp] theorem Block.badAccess_hostMem (b : Block) (off : Nat) : (b.badAccess off).hostMem = b.hostMem := by
  unfold Block.badAccess
  split
  · rfl
  · rw [Block.raiseErr_hostMem, Block.put_hostMem]

/-- The first invalid access sets ACCESS and records its offset; beside those, only what an error of GLB changes differs. -/
theorem Block.badAccess_first {b : Block} (hc : swfBy resetValue b.regs = true) (h : b.fld pGlb 0x10 5 1 = 0)
    (off : BitVec 26) : (b.badAccess off.toNat).fld pGlb 0x10 5 1 = 1 ∧ (b.badAccess off.toNat).get pGlb 0x128 = off.toNat ∧
      RegsBut (pGlb.at 0x128 :: errRegs pGlb) b (b.badAccess off.toNat) := by
  have hother : pGlb.at 0x128 ∉ errRegs pGlb := by decide
  have hlt := off.isLt
  rw [Block.badAccess_of_clear h]
  refine ⟨Block.fld_raiseErr_same (Block.put_canonical hc _ _ _) pGlb (by decide) 0, ?_, ?_⟩
  · rw [Block.get, Block.reg_raiseErr_other _ hother, Block.put, Block.reg_setReg_same hc, BitVec.toNat_ofNat,
      Nat.mod_eq_of_lt hlt, Nat.mod_eq_of_lt (by omega)]
  · exact ((RegsBut.refl _ _).put List.mem_cons_self _).raiseErr (fun _ h => List.mem_cons_of_mem _ h) 5 0

end Machine

theorem completes_invalidAccess {s : State} {off : BitVec 26} {size : Nat} (write : Bool) (ho : s.open_)
    (hc : s.block.Canonical) (hv : validAccess off.toNat size = false) :
    Completes (.invalidAccess off size write) s (fun b =>
      (write = false → b.out.readData = 0) ∧
      (s.block.fld pGlb 0x10 5 1 = 0 → b.fld pGlb 0x10 5 1 = 1 ∧ b.get pGlb 0x128 = off.toNat ∧
        RegsBut (pGlb.at 0x128 :: errRegs pGlb) s.block b) ∧
      (s.block.fld pGlb 0x10 5 1 = 1 → b.regs = s.block.regs) ∧
      b.cmds = s.block.cmds ∧ b.hostMem = s.block.hostMem) := by
  have hset : s.block.fld pGlb 0x10 5 1 = 1 → (s.block.badAccess off.toNat).regs = s.block.regs :=
    fun h => congrArg Block.regs (Block.badAccess_of_set h _)
  have hcmds := s.block.badAccess_cmds off.toNat
  have hmem := s.block.badAccess_hostMem off.toNat
  refine ⟨_, exec_invalidAccess ho hv write, ?_⟩
  cases write with
  | true => exact ⟨nofun, fun h => Block.badAccess_first hc.regs h off, hset, hcmds, hmem⟩
  | false => exact ⟨fun _ => rfl, fun h => Block.badAccess_first hc.regs h off, hset, hcmds, hmem⟩

/-- A read that the window does not answer returns all ones, and nothing else is changed (R30). -/
theorem completes_unreachableRead {s : State} (hr : s.block.reachable = false) (off : BitVec 26) :
    Completes (.unreachableAccess off false) s (fun b =>
      b.out.readData = 0xFFFFFFFF ∧ b.regs = s.block.regs ∧ b.hostMem = s.block.hostMem ∧ b.cmds = s.block.cmds) :=
  ⟨_, exec_unreachableAccess hr off false, rfl, rfl, rfl, rfl⟩

/-! ## Reads of halves (R28) -/

/-- A half read changes, beside the count of reads, latches alone. -/
theorem halfRead_frame (b : Block) (a n : Nat) (upper : Bool) :
    let c := Block.deliver64 ((b.bump pHlk 2).readHalf a n upper)
    RegsBut [pHlk.at 0x50] b c ∧ c.cmds = b.cmds ∧ c.hostMem = b.hostMem := by
  obtain ⟨l, hl⟩ := readHalf_frame (b.bump pHlk 2) a n upper
  have hregs : RegsBut [pHlk.at 0x50] b (b.bump pHlk 2) := (RegsBut.refl _ _).bump (by simp) 1
  simp only [Block.deliver64, hl]
  exact ⟨hregs, rfl, rfl⟩

theorem completes_lowerHalfRead {s : State} {off : BitVec 26} {wide : Bool} {t : Target} (ho : s.open_)
    (hq : Quiet s.block pGlb) (ht : locate off.toNat wide = some t) (hu : t.upper = false)
    (hs : t.page.at t.off ≠ pGlb.at 0x120) :
    Completes (.lowerHalfRead ⟨off, wide⟩) s (fun b => RegsBut [pHlk.at 0x50] s.block b ∧ b.cmds = s.block.cmds ∧
      b.hostMem = s.block.hostMem ∧
      (t.desc.bits = 32 ∨ wide = true → b.latches = s.block.latches ∧ b.out.readData = t.shown (s.block.bump pHlk 2)) ∧
      (t.desc.bits = 64 → wide = false → ∃ x, sget none b.latches (t.page.at t.off) = some x ∧
        b.out.readData.toNat + 2 ^ 32 * x.toNat = (t.shown (s.block.bump pHlk 2)).toNat)) := by
  refine ⟨_, exec_lowerHalfRead ho hq off wide, ?_⟩
  by_cases hhalf : t.desc.bits = 64 ∧ wide = false
  · obtain ⟨hbits, rfl⟩ := hhalf
    rw [regRead_half ht hbits, hu]
    obtain ⟨hregs, hcmds, hmem⟩ := halfRead_frame s.block (t.page.at t.off) (t.shown (s.block.bump pHlk 2)).toNat false
    refine ⟨hregs, hcmds, hmem, fun h => ?_, fun _ _ => readHalf_lower_latched _ _⟩
    exact absurd h (by rw [hbits]; decide)
  · rw [regRead_whole ht hhalf hs]
    have hregs : RegsBut [pHlk.at 0x50] s.block (s.block.bump pHlk 2) := (RegsBut.refl _ _).bump (by simp) 1
    exact ⟨hregs.deliver _, rfl, rfl, fun _ => ⟨rfl, rfl⟩, fun hb hw => absurd ⟨hb, hw⟩ hhalf⟩

theorem completes_upperHalfRead {s : State} {off : BitVec 26} {t : Target} (ho : s.open_) (hc : s.block.Canonical)
    (hq : Quiet s.block pGlb) (ht : locate off.toNat false = some t) (hu : t.upper = true) :
    Completes (.upperHalfRead off) s (fun b => RegsBut [pHlk.at 0x50] s.block b ∧ b.cmds = s.block.cmds ∧
      b.hostMem = s.block.hostMem ∧ sget none b.latches (t.page.at t.off) = none ∧
      (∀ x, sget none s.block.latches (t.page.at t.off) = some x → b.out.readData = x.setWidth 64) ∧
      (sget none s.block.latches (t.page.at t.off) = none → b.out.readData.toNat =
        (t.shown (s.block.bump pHlk 2)).toNat / 2 ^ 32)) := by
  refine ⟨_, exec_upperHalfRead ho hq off, ?_⟩
  rw [regRead_half ht (locate_upper ht hu), hu]
  obtain ⟨hregs, hcmds, hmem⟩ := halfRead_frame s.block (t.page.at t.off) (t.shown (s.block.bump pHlk 2)).toNat true
  exact ⟨hregs, hcmds, hmem, readHalf_upper_empties (b := s.block.bump pHlk 2) hc.latches _ _,
    fun _ h => readHalf_upper_of_latch (b := s.block.bump pHlk 2) h _,
    fun h => readHalf_upper_live (b := s.block.bump pHlk 2) h _⟩

/-- Settles O7: clause by clause, each access is its own change of the block, whose effect the lemmas above name. -/
theorem registerAccesses : Obligations.RegisterAccesses := by
  unfold Obligations.RegisterAccesses
  refine ⟨fun s p v ho hc hp hq => ⟨?_, ?_⟩, ⟨?_, ?_⟩, ⟨?_, ?_, ?_⟩, ⟨?_, ?_⟩⟩
  · exact completes_errMaskWrite v ho hc hp hq
  · exact completes_intEnableWrite v ho hc hp hq
  · exact fun s ho hc => completes_intSummaryRead ho hc
  · exact fun s v ho hc => completes_intCtrlEnWrite v ho hc
  · exact fun s off size write ho hc hv => completes_invalidAccess write ho hc hv
  · exact fun s off size write hv => exec_invalidAccess_of_valid s hv write
  · exact fun s off hr => ⟨completes_unreachableRead hr off, exec_unreachableAccess hr off true⟩
  · exact fun s off wide ho _ hq t ht hu hs => completes_lowerHalfRead ho hq ht hu hs
  · exact fun s off ho hc hq t ht hu => completes_upperHalfRead ho hc hq ht hu

end Sys2Proof

end

section
/-! SUPPORT and proofs for cairns: what sending a message through a port in frame mode does to the counters, the keeper's
answer to a cairn request, and a state in which that answer is not all that is sent. -/

namespace Sys2Proof

open Machine

/-! ## What putting frames on the wire does to the registers (R433) -/

/-- The registers that count the frames and bytes of one optical port: its CNT0 and CNT7. -/
def portCounters (n : Nat) : List Nat := [(pKwf n).at 0x40, (pKwf n).at 0x78]

theorem RegsBut.frameOut {l : List Nat} {b c : Block} (h : RegsBut l b c) {w : WaitFrame}
    (hl : ∀ a ∈ portCounters w.port, a ∈ l) : RegsBut l b (c.frameOut w) := by
  have hframes : (pKwf w.port).at (0x40 + 8 * 0) ∈ l := hl _ (by simp [portCounters])
  have hbytes : (pKwf w.port).at (0x40 + 8 * 7) ∈ l := hl _ (by simp [portCounters])
  unfold Block.frameOut
  split
  · exact h
  · split
    · exact h
    · exact RegsBut.bump (RegsBut.bump (p := pKwf w.port) (n := 7) (by exact h) hbytes _) hframes 1

/-- Frames that wait, tried in order, change no register but the counters of their ports. -/
theorem RegsBut.frames {l : List Nat} {b : Block} {ws : List WaitFrame}
    (hl : ∀ w ∈ ws, ∀ a ∈ portCounters w.port, a ∈ l) {c : Block} (h : RegsBut l b c) :
    RegsBut l b (ws.foldl Block.frameOut c) := by
  induction ws generalizing c with
  | nil => exact h
  | cons w ws ih =>
    exact ih (fun v hv => hl v (List.mem_cons_of_mem _ hv)) (h.frameOut (hl w List.mem_cons_self))

namespace Machine

theorem Block.reg_bump_same {b : Block} (h : swfBy resetValue b.regs = true) (p : PageRef) (n k : Nat) :
    (b.bump p n k).reg (p.at (0x40 + 8 * n)) = b.reg (p.at (0x40 + 8 * n)) + BitVec.ofNat 64 k :=
  Block.reg_setReg_same h _ _

theorem Block.fld_bump_other (b : Block) {p q : PageRef} {n k off : Nat} (lo w : Nat) (h : q.at off ≠ p.at (0x40 + 8 * n)) :
    (b.bump p n k).fld q off lo w = b.fld q off lo w :=
  congrArg (bits · lo w) (b.reg_bump_other h)

/-- What KWT counts decides neither the mode of a port nor whether new messages may use it. -/
theorem Block.linkMode_bumpKwt (b : Block) {c : Nat} (hc : c < 8) (k n : Nat) :
    (b.bump pKwt c k).linkMode n = b.linkMode n := by
  rw [Block.linkMode, Block.fld_bump_other _ _ _ (PageRef.at_ne (by omega)), Block.linkMode]

theorem Block.upPorts_bumpKwt (b : Block) {c : Nat} (hc : c < 8) (k : Nat) : (b.bump pKwt c k).upPorts = b.upPorts := by
  have hstate (n lo w : Nat) : (b.bump pKwt c k).fld (pKwf n) 0x0C lo w = b.fld (pKwf n) 0x0C lo w :=
    Block.fld_bump_other _ _ _ (PageRef.at_ne (by omega))
  have hband (n lo w : Nat) : (b.bump pKwt c k).fld (pKwf n) 0x98 lo w = b.fld (pKwf n) 0x98 lo w :=
    Block.fld_bump_other _ _ _ (PageRef.at_ne (by omega))
  simp only [Block.upPorts, Block.running, Block.pageState, hstate, hband]
  rfl

/-- A frame that need not wait goes out on the port it names. -/
theorem Block.frameOut_ready {b : Block} {w : WaitFrame} (hmac : b.neighbour w.endpoint ≠ none)
    (hup : (b.link w.port).up = true) (hw : w.counted = false) :
    ∃ (c : Block) (f : Bytes), b.frameOut w = (c.wire w.port f).bump (pKwf w.port) 0 ∧ c.regs = b.regs := by
  obtain ⟨mac, hmac⟩ := Option.ne_none_iff_exists'.mp hmac
  simp only [Block.frameOut, hmac, hup, hw, Bool.not_true, Bool.false_eq_true, false_and, or_false, if_false]
  exact ⟨_, _, rfl, rfl⟩

/-- Such a frame is counted in CNT0 of its port. -/
theorem Block.reg_frameOut_ready {b : Block} (hregs : swfBy resetValue b.regs = true) {w : WaitFrame}
    (hmac : b.neighbour w.endpoint ≠ none) (hup : (b.link w.port).up = true) (hw : w.counted = false) :
    (b.frameOut w).reg ((pKwf w.port).at 0x40) = b.reg ((pKwf w.port).at 0x40) + 1 := by
  obtain ⟨c, f, hout, hc⟩ := Block.frameOut_ready hmac hup hw
  have hcanon : swfBy resetValue (c.wire w.port f).regs = true := Block.bump_canonical (by rwa [← hc] at hregs) _ _ _
  have hwire : (c.wire w.port f).reg ((pKwf w.port).at 0x40) = c.reg ((pKwf w.port).at 0x40) :=
    Block.reg_bump_other _ (PageRef.at_ne (by decide))
  rw [hout, Block.reg_bump_same hcanon _ 0 1, hwire, Block.reg, hc, Block.reg]
  rfl

/-- Cutting a message into segments leaves the registers, the ports, the neighbours and the waiting frames as they are. -/
theorem Block.segments_frame {b c : Block} {kind cls endpoint session msgId budget : Nat} {body : Bytes} {segs : List Bytes}
    (h : b.segments kind cls endpoint session msgId budget body = (segs, c)) :
    c.regs = b.regs ∧ c.links = b.links ∧ c.transport.macs = b.transport.macs ∧ c.transport.frames = b.transport.frames := by
  obtain rfl : (b.segments kind cls endpoint session msgId budget body).2 = c := congrArg Prod.snd h
  by_cases hopen : kind = 6
  · rw [Block.segments, if_pos hopen]
    exact ⟨rfl, rfl, rfl, rfl⟩
  · rw [Block.segments, if_neg hopen]
    exact ⟨rfl, rfl, rfl, rfl⟩

/-- A message launched through the one port that is UP, in frame mode: the frames that wait already are tried before its own. -/
theorem Block.launch_frameMode {b : Block} {n : Nat} (hup : b.upPorts = [n]) (hmode : b.linkMode n = false) {endpoint : Nat}
    (hmac : b.neighbour endpoint ≠ none) (kind cls session msgId budget : Nat) (body : Bytes) (m : OutMsg) :
    ∃ (c : Block) (k : Nat) (ws : List WaitFrame),
      b.launch kind cls endpoint session msgId budget body m = (b.transport.frames ++ ws).foldl Block.frameOut c ∧
      c.regs = (b.bump pKwt 7 k).regs ∧ c.links = b.links ∧ c.transport.macs = b.transport.macs ∧ ∀ w ∈ ws, w.port = n := by
  have hone (x : Nat) : [n].getD (x % [n].length) 0 = n := by simp [Nat.mod_one]
  unfold Block.launch
  simp only [hup, hone]
  rw [if_neg (fun h => hmac h.2)]
  rcases hs : Block.segments _ kind cls endpoint session msgId budget body with ⟨segs, c⟩
  obtain ⟨hregs, hlinks, hmacs, hframes⟩ := Block.segments_frame hs
  have hbump (k : Nat) : (c.bump pKwt 7 k).regs = (b.bump pKwt 7 k).regs := by
    simp only [Block.bump, Block.setReg, Block.reg, hregs]
  have hstays (k : Nat) : ¬(c.bump pKwt 7 k).linkMode n = true := by
    rw [c.linkMode_bumpKwt (by decide) k, Block.linkMode, Block.fld, Block.reg, hregs]
    exact Bool.eq_false_iff.mp hmode
  simp only [hstays, Block.bump_transport, hframes]
  refine ⟨_, _, _, rfl, hbump _, hlinks, hmacs, fun w hw => ?_⟩
  obtain ⟨s, -, rfl⟩ := List.mem_map.mp hw
  rfl

/-- A frame that waits already and need not is counted at the port it names, whichever port the message itself goes out on. -/
theorem Block.reg_launch_waiting {b : Block} {n : Nat} {w : WaitFrame} (hcanon : swfBy resetValue b.regs = true)
    (hup : b.upPorts = [n]) (hmode : b.linkMode n = false) {endpoint : Nat} (hmac : b.neighbour endpoint ≠ none)
    (hframes : b.transport.frames = [w]) (hwmac : b.neighbour w.endpoint ≠ none) (hwup : (b.link w.port).up = true)
    (hw : w.counted = false) (hport : (pKwf w.port).at 0x40 ∉ pKwt.at 0x78 :: portCounters n)
    (kind cls session msgId budget : Nat) (body : Bytes) (m : OutMsg) :
    (b.launch kind cls endpoint session msgId budget body m).reg ((pKwf w.port).at 0x40) =
      b.reg ((pKwf w.port).at 0x40) + 1 := by
  obtain ⟨hbytes, hother⟩ := not_or.mp (fun h => hport (List.mem_cons.mpr h))
  obtain ⟨c, k, ws, hlaunch, hregs, hlinks, hmacs, hws⟩ :=
    Block.launch_frameMode hup hmode hmac kind cls session msgId budget body m
  have hown : RegsBut (portCounters n) (c.frameOut w) (ws.foldl Block.frameOut (c.frameOut w)) :=
    (RegsBut.refl _ _).frames (fun v hv a ha => hws v hv ▸ ha)
  have hneigh : c.neighbour w.endpoint ≠ none := by rwa [Block.neighbour, hmacs]
  have hlink : (c.link w.port).up = true := by rwa [Block.link, hlinks]
  have hc : c.reg ((pKwf w.port).at 0x40) = b.reg ((pKwf w.port).at 0x40) := by
    rw [Block.reg, hregs]
    exact Block.reg_bump_other b hbytes
  rw [hlaunch, hframes, List.cons_append, List.nil_append, List.foldl_cons, hown _ hother,
    Block.reg_frameOut_ready (hregs ▸ Block.bump_canonical hcanon _ _ _) hneigh hlink hw, hc]

/-- A message handed to the transport goes out on the one session that leads to its destination. -/
theorem Block.transmitBytes_route {b : Block} {m : OutMsg} {r : Nat × Nat} (hfatal : b.fatal = false)
    (hkwt : b.pageState pKwt = 2) (hroute : b.routes m.toward = [r]) (body : Bytes) :
    b.transmitBytes m body = Block.sendOn m body { b with out := { b.out with sent := snoc b.out.sent m } } r := by
  obtain ⟨c, hc⟩ : ∃ c : Block, c = { b with out := { b.out with sent := snoc b.out.sent m } } := ⟨_, rfl⟩
  have hgoes : ¬(c.fatal = true ∨ c.pageState pKwt ≠ 2 ∧ c.pageState pKwt ≠ 3) := by
    rw [hc]
    exact fun h => h.elim (fun hf => Bool.false_ne_true (hfatal.symm.trans hf)) (fun hk => hk.1 hkwt)
  have hroutes : c.routes m.toward = [r] := by rw [← hroute, hc]; rfl
  rw [Block.transmitBytes, ← hc]
  simp only [hgoes, if_false, hroutes, List.foldl_cons, List.foldl_nil]

/-- A body that the spec does not lay out draws a free value. -/
theorem Block.bodyOf_free {b : Block} {m : OutMsg} (hlaid : m.kind.laidOut = false) :
    ∃ body, b.bodyOf m = (body, { b with free := b.free + 1 }) := by
  rw [Block.bodyOf, hlaid]
  exact ⟨_, rfl⟩

/-- While TRF is OFF a message to another place is handed straight to the transport (R467). -/
theorem Block.send_trfOff {b : Block} {m : OutMsg} (hm : m.toward ≠ .place b.place) (htrf : b.pageState pTrf = 0)
    (hlaid : m.kind.laidOut = false) : ∃ body, b.send m = ({ b with free := b.free + 1 } : Block).transmitBytes m body := by
  obtain ⟨body, hbody⟩ := b.bodyOf_free hlaid
  rw [Block.send, if_neg hm, if_pos (.inl htrf), Block.transmit, hbody]
  exact ⟨body, rfl⟩

/-- A reply is numbered, remembered and launched, whatever deadline it serves: only a request is not sent for want of budget. -/
theorem Block.sendOn_reply (b : Block) {m : OutMsg} (hkind : m.kind.segKind = 1) (body : Bytes) (n endpoint : Nat) :
    ∃ (c : Block) (id budget : Nat), Block.sendOn m body b (n, endpoint) = c.launch 1 m.cls endpoint n id budget body m ∧
      c.regs = (b.bump pKwt 0).regs ∧ c.links = b.links ∧ c.transport.macs = b.transport.macs ∧
      c.transport.frames = b.transport.frames ∧ c.upPorts = b.upPorts := by
  have hports (t : Transport) : ({ b.bump pKwt 0 with transport := t } : Block).upPorts = (b.bump pKwt 0).upPorts := rfl
  simp only [Block.sendOn, hkind, Block.spent, Block.stamp]
  exact ⟨_, _, _, rfl, rfl, rfl, rfl, rfl, (hports _).trans (b.upPorts_bumpKwt (by decide) 1)⟩

/-- A reply sent through the one port that is UP, in frame mode, lets a frame that waits already and need not go out with it:
that frame is counted at the port it names, whichever port the reply itself goes out on. -/
theorem Block.reg_sendOn_waiting {b : Block} {n : Nat} {w : WaitFrame} {m : OutMsg} (hkind : m.kind.segKind = 1)
    (hcanon : swfBy resetValue b.regs = true) (hup : b.upPorts = [n]) (hmode : b.linkMode n = false) {endpoint : Nat}
    (hmac : b.neighbour endpoint ≠ none) (hframes : b.transport.frames = [w]) (hwmac : b.neighbour w.endpoint ≠ none)
    (hwup : (b.link w.port).up = true) (hw : w.counted = false)
    (hport : (pKwf w.port).at 0x40 ∉ pKwt.at 0x40 :: pKwt.at 0x78 :: portCounters n) (body : Bytes) (session : Nat) :
    (Block.sendOn m body b (session, endpoint)).reg ((pKwf w.port).at 0x40) = b.reg ((pKwf w.port).at 0x40) + 1 := by
  obtain ⟨hmsgs, hother⟩ := not_or.mp (fun h => hport (List.mem_cons.mpr h))
  obtain ⟨c, id, budget, hlaunch, hregs, hlinks, hmacs, hwaiting, hports⟩ := b.sendOn_reply hkind body session endpoint
  have hneigh (e : Nat) : c.neighbour e = b.neighbour e := by rw [Block.neighbour, hmacs, Block.neighbour]
  have hlink : (c.link w.port).up = true := by rwa [Block.link, hlinks]
  have hmode' : c.linkMode n = false := by
    rw [Block.linkMode, Block.fld, Block.reg, hregs]
    exact (b.linkMode_bumpKwt (by decide) 1 n).trans hmode
  have hreg : c.reg ((pKwf w.port).at 0x40) = b.reg ((pKwf w.port).at 0x40) := by
    rw [Block.reg, hregs]
    exact Block.reg_bump_other b hmsgs
  rw [hlaunch, Block.reg_launch_waiting (hregs ▸ Block.bump_canonical hcanon _ _ _) (hports.trans hup) hmode'
    (hneigh endpoint ▸ hmac) (hwaiting.trans hframes) (hneigh w.endpoint ▸ hwmac) hlink hw hother, hreg]

/-- The keeper assigns the next cairn to a change that has none, counts it and grants it (R106). -/
theorem cairnRequest_assigns {b : Block} {ix p tag : Nat} (hkeeper : (b.index ix).keeper = b.place)
    (hready : b.placeReady b.place = true) (hp : p ≠ b.place)
    (hnew : (b.index ix).opened.find? (fun o => decide (o.place = p ∧ o.tag = tag)) = none) (hrun : b.running pIdx = true)
    (hex : (b.index ix).exhausted = false) (hlast : (b.index ix).assigned + 1 ≠ 0xFFFEFFFFFFFF) :
    cairnRequest ix p tag b =
      ((b.setIndex ix { b.index ix with
          assigned := (b.index ix).assigned + 1
          opened := (b.index ix).opened ++ [⟨(b.index ix).assigned + 1, p, tag⟩] }).bump pIdx 0).send
        { toward := .place p, cls := 4, kind := .cairnGrant, args := [tag, stOk, (b.index ix).assigned + 1] } := by
  have hplace (x : Index) : ((b.setIndex ix x).bump pIdx 0).place = b.place :=
    congrArg (bits · 18 6) (Block.reg_bump_other (b.setIndex ix x) (PageRef.at_ne (by decide)))
  simp only [cairnRequest, hkeeper, hready, hp, hnew, hrun, hex, hlast, Block.replyUpdate, hplace, ne_eq, not_true, Bool.not_true,
    Bool.false_eq_true, or_self, decide_false, Bool.false_and, if_false]

end Machine

theorem exec_cairnRequest {s : State} (ha : s.awake) (ix : Fin 16) (p tag : Nat) :
    exec (.cairnRequest ix p tag) s = .next { s with block := cairnRequest ix.val p tag s.block } :=
  congrArg Host.Outcome.next (State.on_awake ha.1 ha.2 _)

/-- A command completes with what holds of the block that its meaning gives. -/
theorem Completes.of_exec {i : Instr} {s : State} {P : Block → Prop} {c : Block} (h : Completes i s P)
    (hexec : exec i s = .next { s with block := c }) : P c := by
  obtain ⟨b, hb, hP⟩ := h
  injection hb.symm.trans hexec with hs
  injection hs with _ hbc
  exact hbc ▸ hP

/-! ## A waiting frame whose port does not exist -/

/-- A frame that waits at port 6656: its CNT0 would lie where CNT0 of IDX lies. -/
def strayFrame : WaitFrame := { port := 6656, endpoint := 8, cls := 4, msg := (3, 0), counted := false, data := [] }

/-- The keeper of index 0, at place 0, with TRF OFF, and module 8 at place 1 reached in frame mode through port 0. -/
def strayBlock : Block where
  stage := .done
  regs := [((pKwf 0).at 0x0C, 2), ((pKwf 0).at 0x100, 1), (pKwt.at 0x0C, 2), (pIdx.at 0x0C, 2)]
  sessions := [(3, { state := .opened, rope := true, endpoint := 8 })]
  rope := { members := [{ id := 8, place := 1, spare := false }] }
  links := [(0, { up := true }), (6656, { up := true })]
  transport := { macs := [(8, 2 ^ 48)], frames := [strayFrame] }

def strayState : State := { block := strayBlock }

/-- The keeper's answer to change 3 of place 1. -/
def strayGrant : OutMsg := { toward := .place 1, cls := 4, kind := .cairnGrant, args := [3, stOk, 1] }

/-- The block in which that answer is sent. -/
def strayAssigned : Block := (strayBlock.setIndex 0 { assigned := 1, opened := [⟨1, 1, 3⟩] }).bump pIdx 0

/-- The block in which its session sends it. -/
def straySending : Block :=
  { strayAssigned with free := 1, out := { strayAssigned.out with sent := [strayGrant] } }

theorem strayBlock_canonical : strayBlock.Canonical where
  hostMem := rfl
  regs := by decide +kernel
  latches := rfl
  injected := rfl
  ports := rfl
  proxies := rfl
  sessions := by decide
  indexes := rfl
  stackSet := rfl
  engines := rfl
  bays := rfl
  links := by decide
  kept := nofun

theorem strayBlock_running : strayBlock.running pIdx = true := by decide +kernel

theorem cairnRequest_strayBlock : cairnRequest 0 1 3 strayBlock = strayAssigned.send strayGrant :=
  cairnRequest_assigns (by decide +kernel) (by decide +kernel) (by decide +kernel) rfl strayBlock_running rfl (by decide)

theorem send_strayGrant : ∃ body, strayAssigned.send strayGrant = Block.sendOn strayGrant body straySending (3, 8) := by
  obtain ⟨body, hsend⟩ := Block.send_trfOff (b := strayAssigned) (m := strayGrant) (by decide +kernel) (by decide +kernel) rfl
  exact ⟨body, hsend.trans (Block.transmitBytes_route rfl (by decide +kernel) (by decide +kernel) body)⟩

theorem reg_cairnRequest_strayBlock : (cairnRequest 0 1 3 strayBlock).reg (pIdx.at 0x40) = 2 := by
  obtain ⟨body, hsend⟩ := send_strayGrant
  have hcanon : swfBy resetValue straySending.regs = true := by decide +kernel
  have hup : straySending.upPorts = [0] := by decide +kernel
  have hmode : straySending.linkMode 0 = false := by decide +kernel
  have hcount : straySending.reg (pIdx.at 0x40) = 1 := by decide +kernel
  have hport : (pKwf strayFrame.port).at 0x40 ∉ pKwt.at 0x40 :: pKwt.at 0x78 :: portCounters 0 := by decide
  have hsent := Block.reg_sendOn_waiting (w := strayFrame) (m := strayGrant) (endpoint := 8) rfl hcanon hup hmode (by decide) rfl
    (by decide) (by decide) rfl hport body 3
  rw [cairnRequest_strayBlock, hsend]
  exact hsent.trans (congrArg (· + 1#64) hcount)

/-- Refutes O50, at its first clause: CNT0 of IDX counts the cairn assigned, but the premises leave open which frames wait to go
out. In `strayState` one waits that names a port past the eight there are (R26); the grant lets it go too, and its count at that
port falls on CNT0 of IDX, which advances by 2. -/
theorem not_cairnsAdvance : ¬ Obligations.CairnsAdvance := by
  unfold Obligations.CairnsAdvance
  intro h
  have hawake : strayState.awake := ⟨rfl, rfl⟩
  obtain ⟨hkeeper, -⟩ := h strayState 0 hawake strayBlock_canonical _ rfl
  obtain ⟨hrequest, -⟩ := hkeeper (by decide +kernel) (by decide +kernel)
  obtain ⟨hassign, -⟩ := hrequest 1 3 (by decide +kernel) strayBlock_running nofun
  obtain ⟨-, -, hcount, -⟩ := (hassign rfl).of_exec (exec_cairnRequest hawake 0 1 3)
  have hbefore : strayBlock.reg (pIdx.at 0x40) = 0 := by decide +kernel
  have htwo : (2 : BitVec 64) = strayBlock.reg (pIdx.at 0x40) + 1 := reg_cairnRequest_strayBlock.symm.trans hcount
  rw [hbefore] at htwo
  exact absurd htwo (by decide)

end Sys2Proof

end
